-- ==== Sys2Proof/Word.lean ====
section
/-! DEFINITION. The words of the part (R6, R7): plain bit vectors of the widths the spec names. -/

namespace Sys2Proof

/-- A byte of any memory (R7). -/
abbrev Byte := BitVec 8
/-- A 64-bit register, or one aligned 8-byte unit of memory (R10, R177). -/
abbrev Word := BitVec 64
/-- A short-vector register (R177). -/
abbrev SvWord := BitVec 512
/-- A long-vector register of 16,384 bits (R255). -/
abbrev LvWord := BitVec 16384
/-- A long-vector mask register of 2,048 bits (R255). -/
abbrev LvMask := BitVec 2048

end Sys2Proof
end

