-- ==== Sys2Proof/Syntax.lean ====
section
/-! DEFINITION. The commands the block takes: one constructor for each row of spec/opcode_table.json, with the row's
operands. A command that stands for an event inside the part or on its pins carries what the event brings (what was
read, measured, received or when); log entry 2, DESIGN CHOICE. -/

namespace Sys2Proof

/-- A logical tile (R5). -/
abbrev TileId := Fin 256
/-- A register number of five bits (R226). -/
abbrev RegNo := Fin 32
/-- A predicate or short-vector register number of four bits (R226). -/
abbrev PredNo := Fin 16

/-- The guard of an instruction: negate bit and predicate number (R184). -/
structure Guard where
  neg : Bool
  pred : Fin 16
  deriving DecidableEq, Repr

/-- What host memory answers to a load (R188, R486, R489): its bytes, whether they are poisoned, or that the read failed. -/
inductive LoadAns where
  | data (v : List Byte)
  | poison
  | fault
  deriving DecidableEq, Repr

/-- Who issues a dowel operation (R383). -/
inductive DowelSrc where
  | core (t : Nat)
  | spindle (t : Nat)
  | me (t : Nat)
  | te (t ch : Nat)
  | host (port fn : Nat)
  | iod
  | peer (slot : Nat)
  deriving DecidableEq, Repr

/-- Who accesses a register (R473, R475, R762): the management controller, a host function (0 is the PF), a tile
monitor. -/
inductive RegAgent where
  | mgmt
  | host (port : Fin 2) (fn : Fin 128)
  | tile (t : Fin 256)
  deriving DecidableEq, Repr

/-- A read of host memory that the part has outstanding (R489): a load, a block, a walk, a work-order descriptor, the oldest
flush read of a port (R482). -/
inductive HostReader where
  | core (t : Fin 256)
  | te (t : Fin 256) (ch : Fin 4)
  | walk (leaf : Fin 2) (k : Fin 8)
  | queue (q : Fin 256)
  | flush (port : Fin 2)
  deriving DecidableEq, Repr

/-- The completion of such a read (R486): data, data with EP, Unsupported Request, Completer Abort. -/
inductive HostAns where
  | data (v : List Byte)
  | ep (v : List Byte)
  | ur
  | ca
  deriving DecidableEq, Repr

/-- Who sends a management command (R725): a cabinet manager with its term, or the host on a port's PF. -/
inductive MgSrc where
  | manager (b : Bool) (term : BitVec 32)
  | host (port : Fin 2)
  deriving DecidableEq, Repr

/-- A level report as a manager receives it (R688): slot, term, epoch; H(e), H(e + 1), average, highest and lowest P in
0.125 W, cords spent, KILN_STATE, shortfall. -/
structure FlueReport where
  slot : Fin 256
  term : BitVec 32
  epoch : BitVec 64
  h : BitVec 16
  hNext : BitVec 16
  avg : BitVec 16
  hi : BitVec 16
  lo : BitVec 16
  spent : BitVec 8
  kiln : BitVec 16
  short : BitVec 16
  deriving DecidableEq, Repr

/-- What travels between parts (R590). Partition numbers are the sender's and the receiver's; `build` is the build
number of the target partition as the source knows it (R388). -/
inductive PeerMsg where
  /-- ARRIVE, SET or RESET (0, 1, 2); a completion carries its block tag (R413) -/
  | dowelOp (lpart ppart : Nat) (src : DowelSrc) (rank idx op v : Nat) (build : BitVec 32) (block : Option (Nat × Nat × Nat))
  /-- register a waiter (R384), withdraw it (R386), read the dowel word (`dread`, `dtest`, polls); `id` is the number of the
  wait or request at its tile (log entry 68) -/
  | dowelWait (lpart ppart tile rank idx n id : Nat) (build : BitVec 32)
  | dowelCancel (lpart ppart tile rank idx id : Nat)
  | dowelRead (lpart ppart tile rank idx id : Nat) (build : BitVec 32)
  /-- the answer to a tile: 0 wake, 1 broken wake, 2 the word read, 3 registration not stored -/
  | dowelAnswer (tile id kind : Nat) (v : Word)
  /-- bytes of a transfer block, the poison mark of each 64-byte word they lie in; its tile, channel and number follow
  (R368, R409) -/
  | write (lpart ppart rank off : Nat) (data : List Byte) (poison : List Bool) (build : BitVec 32) (tile ch b : Nat)
  | read (lpart ppart rank off n : Nat) (build : BitVec 32) (tile ch b : Nat)
  | readReply (tile ch b : Nat) (data : List Byte) (poison : List Bool)
  /-- cabinet barriers: 0 arrive, 1 release, 2 broken release, 3 abort (R595, R596) -/
  | barrier (kind group gen aborts : Nat) (inc : BitVec 32)
  | buildNotice (part : Nat) (build : BitVec 32)
  | resetNotice (inc : BitVec 32)
  /-- the twin traffic of bookmatch (R657): kind and words -/
  | bookmatch (kind : Nat) (data : List Word)
  /-- a management packet: destination endpoint, class, words (R601) -/
  | mctp (dst cls : Nat) (data : List Word)
  deriving DecidableEq, Repr

/-- A message of a stream (R584): source and destination slots, sequence number, the source's incarnation and the
destination's as the source knows it; whether it has crossed the wrap of a ring (R578), and the dimension and direction it is
detoured in, plus for true (R581). -/
structure StreamMsg where
  src : Nat
  dst : Nat
  seq : BitVec 32
  inc : BitVec 32
  dinc : BitVec 32
  m : PeerMsg
  crossed : Bool
  det : Option (Nat × Bool)
  deriving DecidableEq, Repr

/-- A defect that self-test finds in a tile or a link and that a spare may repair (R28, R31, R36, R37, R717). -/
inductive Defect where
  /-- a row of a scratchpad bank: physical tile, bank, word -/
  | spadRow (phys : Fin 288) (bank : Fin 24) (word : Fin 2048)
  /-- a bit column of a bank's stored 576-bit word -/
  | spadCol (phys : Fin 288) (bank : Fin 24) (col : Fin 576)
  /-- a fetch word of the instruction store -/
  | istRow (phys : Fin 288) (word : Fin 16384)
  /-- a wire of a mesh or attach link: UNIT, along a column, the half of SUB[1] -/
  | meshWire (unit : Fin 356) (axis half : Bool) (wire : BitVec 18)
  /-- a wire of a bridge link -/
  | bridgeWire (link : Fin 32) (half : Bool) (wire : BitVec 18)
  /-- a transfer-engine channel to be folded onto its sibling -/
  | fold (phys : Fin 288) (ch : Fin 4)
  deriving DecidableEq, Repr

/-- The commands (spec/opcode_table.json). -/
inductive Instr where

  /-- REGISTER_WRITE: A write to a register field that has no row of its own sets RW fields, clears W1C bits written as 1 and ignores RO fields. (R10) -/
  | registerWrite (agent : RegAgent) (tcb : Option TileId) (off : BitVec 24) (four : Bool) (v : BitVec 64)
  /-- RC_READ: A read of an RC field returns the accumulated value and clears it as one action, serialised in arrival order. (R20) -/
  | rcRead (agent : RegAgent) (tcb : Option TileId) (off : BitVec 24) (four : Bool)
  /-- REGISTER_ACCESS_IN_RESET: An access that reaches a block while its reset is asserted discards a write, or returns the reset value for a read. (R777) -/
  | registerAccessInReset (agent : RegAgent) (tcb : Option TileId) (off : BitVec 24) (four : Bool) (wr : Option (BitVec 64))
  /-- TILE_FAILURE: A physical tile is found failed; its partitions are stopped and the spare of its column is put under self-test. (R42) -/
  | tileFailure (phys : Fin 288)
  /-- SPARE_SELF_TEST_DONE: Self-test of the spare ends; on a pass a field entry is written, and on a failure both defects are recorded and the row is retired. (R43) -/
  | spareSelfTestDone (col : Fin 32) (pass : Bool)
  /-- FIELD_ENTRY_COMMIT: A field entry's flash write completes; MGC_KNOT_GEN increments, the knot registers update and routing tables reload. (R44) -/
  | fieldEntryCommit
  /-- MESH_LINK_OUT: A mesh or bridge link loses a wire with no spare left; it leaves service and its traffic detours. (R30) -/
  | meshLinkOut (unit : Fin 356) (axis bridge : Bool)
  /-- FLIT_REPLAY: A flit fails the link check and the sending router replays it from its link buffer. (R83) -/
  | flitReplay (phys : Fin 288)
  /-- ROUTER_FAILURE: A router fails; its links leave service and its tile is handled as a failed tile. (R84) -/
  | routerFailure (phys : Fin 288)
  /-- PLL_LOCK_LOST: A tile, mesh, I/O fabric, management or time PLL loses lock, and the part reports part-fatal. (R85) -/
  | pllLockLost (pll : Fin 31)
  /-- DVFS_STEP: Kiln requests a tile-clock step for a leaf, and the request crosses to the clock generator. (R72) -/
  | dvfsStep (leaf : Fin 2)
  /-- DVFS_STEP_DONE: A tile-clock step completes within 2 µs with no short period. (R72) -/
  | dvfsStepDone (leaf : Fin 2)
  /-- FAST_LOOP_TICK: At each 10 µs tick boundary Kiln takes P, updates the floor and ceiling, and sets the actuators in order. (R98) -/
  | fastLoopTick (p : Fin 0x8000000) (vin iin : BitVec 16)
  /-- EPOCH_BOUNDARY: At each epoch boundary the held level is computed and the shadow registers are swapped in. (R91) -/
  | epochBoundary
  /-- EPOCH_MESSAGE: A Flue epoch message arrives; it is judged on time or late and its fields are loaded or discarded. (R94) -/
  | epochMessage (term : BitVec 32) (epoch : BitVec 64) (cords : Fin 16) (slew : BitVec 16) (start stopOk resume shedClear : Bool)
  /-- SLOW_LOOP: Once per epoch, firmware loads the shadow registers, updates the thermal cap, counts silent epochs and collects kindling results. (R102) -/
  | slowLoop
  /-- SILENT_ENTRY: After five unheard epochs the part enters the silent state and sets KILN_STATE.SILENT. (R115) -/
  | silentEntry
  /-- SHED_ORDER: A shed order arrives; it is acknowledged within 20 µs and its ramp is set up. (R112) -/
  | shedOrder (term ident : BitVec 32) (target slope : BitVec 16)
  /-- DROOP_GUARD: Input current above the 1,180 W level drops the ME throttle of both leaves to 8/16 within 100 ns. (R100) -/
  | droopGuard
  /-- DROOP_GUARD_RELEASE: After 1 µs the throttle returns to the fast loop's value. (R100) -/
  | droopGuardRelease
  /-- KINDLING_QUANTUM: Kiln issues a 64-cycle kindling quantum on an engine that has no tenant work. (R104) -/
  | kindlingQuantum (t : TileId) (engine : Fin 2)
  /-- KINDLING_QUANTUM_END: A quantum's signature is compared with the reference, and a mismatch is treated as a failed tile. (R108) -/
  | kindlingQuantumEnd (t : TileId) (engine : Fin 2) (sig : BitVec 64)
  /-- BANK_SMOULDER: GO with TARGET Smoulder starts a controlled ramp of the ceiling down to 180 W. (R110) -/
  | bankSmoulder (slope : BitVec 16)
  /-- BANK_COLD: GO with TARGET Cold refuses doorbells and ramps down to 180 W, waiting for running work. (R111) -/
  | bankCold (slope : BitVec 16)
  /-- BANK_CANCEL: GO with TARGET 0 cancels banking at the next tick boundary. (R109) -/
  | bankCancel
  /-- BANK_COLD_DRAINED: The last running work order completes during banking to Cold, and the part waits for STOP_OK. (R111) -/
  | bankColdDrained
  /-- THERMAL_CAP: A junction sensor crosses 100 °C or 110 °C and LIMIT begins to descend. (R118) -/
  | thermalCap (leaf : Fin 2) (temp : Fin 1024)
  /-- THERMAL_TRIP: A junction reaches 125 °C and the hardware trip stops the part as part-fatal. (R118) -/
  | thermalTrip
  /-- INPUT_EXCURSION_START: The input leaves 46–56 V and an excursion begins. (R135) -/
  | inputExcursionStart (vin : BitVec 16)
  /-- INPUT_EXCURSION_END: The input returns in range within 10 ms, and the excursion is counted and logged. (R135) -/
  | inputExcursionEnd (vin : BitVec 16)
  /-- INPUT_FAULT: An under- or overvoltage condition is met, and an input fault is declared within 2 µs. (R136) -/
  | inputFault (high : Bool) (vin : BitVec 16)
  /-- INPUT_DEBOUNCE_DONE: After 10 ms in range with PWR_EN high, the hot-swap switch closes. (R139) -/
  | inputDebounceDone
  /-- INRUSH_NODE_UP: The internal 50 V node reaches the input voltage, and IB charging starts. (R139) -/
  | inrushNodeUp
  /-- IB_GOOD: The intermediate bus reaches 5.7 V, and VMGMT soft-start begins. (R139) -/
  | ibGood
  /-- INRUSH_WINDOW_FAULT: VMGMT or the IB misses its window; the switch opens, with up to three retries 1 s apart. (R156) -/
  | inrushWindowFault
  /-- VMGMT_GOOD: VMGMT becomes good and the management controller is released from reset. (R140) -/
  | vmgmtGood
  /-- RAIL_GOOD: A rail reaches 95–105% of its target; with its voltage and current. (R144) -/
  | railGood (rail : Fin 11) (reading : BitVec 16 × BitVec 16)
  /-- NEXT_RAIL_ENABLE: 100 µs after a rail becomes good, the next rail of the sequence is enabled. (R144) -/
  | nextRailEnable
  /-- RAIL_DOWN: A discharging rail falls below 10%, and the next rail is disabled. (R144) -/
  | railDown (rail : Fin 11)
  /-- DISCHARGE_WINDOW_END: A rail not down at the end of its discharge window fails with DISCHARGE, and the sequence continues. (R152) -/
  | dischargeWindowEnd (rail : Fin 11) (ilim : Bool) (mv da : BitVec 16)
  /-- PLL_LOCK_DONE: The PLLs lock during power-up, domain resets are released and kindling starts. (R145) -/
  | pllLockDone
  /-- QCLAMP: The analogue interlock clamps VHBM_Q when VHBM falls below 90% while VHBM_Q is up. (R148) -/
  | qclamp (stack : Option (Fin 6)) (mv da : BitVec 16)
  /-- SOFT_START_FAULT: A rail misses its soft-start window or stays in current limit for 200 µs; the part tears down and logs. (R150) -/
  | softStartFault (rail : Fin 11) (kind : Fin 3) (mv da : BitVec 16)
  /-- RETRY_BACKOFF_END: 1 s after teardown, the power-up is retried, up to three times, after which the part latches. (R151) -/
  | retryBackoffEnd
  /-- PWR_CLEAR_LATCH: Writing CLEAR_LATCH ends a latch and logs CLEARED. (R169) -/
  | pwrClearLatch
  /-- INPUT_RETURN: The input returns during an emergency power-down, and the switch recloses after the shutdown ends; with
  its voltage, and whether it had been removed for at least 1 s. (R153, R156) -/
  | inputReturn (back : BitVec 16 × Bool)
  /-- OFF_TIME_END: The 50 ms off time ends, and a held START begins power-up. (R154) -/
  | offTimeEnd
  /-- RAIL_FAULT: An up rail leaves range for 20 µs or stays in current limit for 200 µs; part-fatal and ordered power-down follow. (R155) -/
  | railFault (rail : Fin 11) (mv da : BitVec 16)
  /-- MGMT_SUPPLY_LOST: VMGMT or the IB leaves its good range while up; the switch opens and every rail is disabled. (R156) -/
  | mgmtSupplyLost
  /-- PWR_EN_LOW: PWR_EN held low for 1 s clears the inrush latch. (R156) -/
  | pwrEnLow
  /-- FUNC_POWER_UP: A PWR_FUNC_CTRL enable request powers a function up, or is stored in its pending slot. (R158) -/
  | funcPowerUp (f : Fin 24)
  /-- FUNC_POWER_DOWN: A disable request powers a function down if its precondition holds, or is stored in its pending slot. (R157) -/
  | funcPowerDown (f : Fin 24)
  /-- FUNC_TRANSITION_DONE: A function transition completes and the part acts on the pending slot; one that fails comes with
  the voltage and current of its rail or switch. (R158, R159) -/
  | funcTransitionDone (f : Fin 24) (fail : Option (BitVec 16 × BitVec 16))
  /-- ALWAYS_ON_LOG_COMMIT: A staged fault record is committed to the always-on log within 10 ms. (R161) -/
  | alwaysOnLogCommit
  /-- PREFETCH_FETCH: The prefetch queue reads one aligned fetch word from the instruction store while it has a free entry. (R182) -/
  | prefetchFetch (t : TileId) (ecc : Fin 3)
  /-- ILLEGAL_INSTRUCTION: An instruction with a reserved major, reserved function code, nonzero zero-field or major 0x3F issues and raises ILLEGAL precisely. (R228) -/
  | illegalInstruction (t : TileId) (gu : Guard) (long : Bool)
  /-- ALU: An ALU function computes gd from ga and gb. (R230) -/
  | alu (t : TileId) (gu : Guard) (rd ra rb : RegNo) (fn : Fin 64)
  /-- ADDI: gd := ga + sext(IMM11). (R231) -/
  | addi (t : TileId) (gu : Guard) (rd ra : RegNo) (imm : BitVec 11)
  /-- ANDI: gd := ga AND sext(IMM11). (R231) -/
  | andi (t : TileId) (gu : Guard) (rd ra : RegNo) (imm : BitVec 11)
  /-- ORI: gd := ga OR sext(IMM11). (R231) -/
  | ori (t : TileId) (gu : Guard) (rd ra : RegNo) (imm : BitVec 11)
  /-- XORI: gd := ga XOR sext(IMM11). (R231) -/
  | xori (t : TileId) (gu : Guard) (rd ra : RegNo) (imm : BitVec 11)
  /-- SHIFTI: ga is shifted by SHAMT in the selected kind. (R231) -/
  | shifti (t : TileId) (gu : Guard) (rd ra : RegNo) (kind : Fin 4) (w : Bool) (shamt : Fin 64)
  /-- MUL: Starts a signed 64×64 multiply into PLO and PHI with L = 4. (R232) -/
  | mul (t : TileId) (gu : Guard) (ra rb : RegNo)
  /-- MULH: Starts an unsigned 64×64 multiply into PLO and PHI. (R232) -/
  | mulh (t : TileId) (gu : Guard) (ra rb : RegNo)
  /-- DIV: Starts a signed 64-bit divide with L = 34. (R191) -/
  | div (t : TileId) (gu : Guard) (ra rb : RegNo)
  /-- DIVU: Starts an unsigned 64-bit divide. (R191) -/
  | divu (t : TileId) (gu : Guard) (ra rb : RegNo)
  /-- DIV_W: Starts a signed 32-bit divide with sign-extended results and L = 18. (R191) -/
  | divW (t : TileId) (gu : Guard) (ra rb : RegNo)
  /-- DIVU_W: Starts an unsigned 32-bit divide with zero-extended results. (R191) -/
  | divuW (t : TileId) (gu : Guard) (ra rb : RegNo)
  /-- PRODUCT_LANDS: L slots after issue, a multiply or divide writes PLO and PHI. (R189) -/
  | productLands (t : TileId)
  /-- LI: gd := sext(IMM32). (R233) -/
  | li (t : TileId) (gu : Guard) (rd : RegNo) (imm : BitVec 32)
  /-- LIH: gd[63:32] := IMM32. (R233) -/
  | lih (t : TileId) (gu : Guard) (rd : RegNo) (imm : BitVec 32)
  /-- LONG_ALU: add, and, or or xor with a sign-extended 32-bit immediate. (R233) -/
  | longAlu (t : TileId) (gu : Guard) (op : Fin 4) (rd ra : RegNo) (imm : BitVec 32)
  /-- LONG_LOAD: A load with a 32-bit offset. (R233) -/
  | longLoad (t : TileId) (gu : Guard) (op : Fin 7) (rd ra : RegNo) (imm : BitVec 32)
  /-- LONG_STORE: A store with a 32-bit offset. (R233) -/
  | longStore (t : TileId) (gu : Guard) (op : Fin 4) (rs ra : RegNo) (imm : BitVec 32)
  /-- CMP: pd := ga CC gb. (R234) -/
  | cmp (t : TileId) (gu : Guard) (pd : PredNo) (ra rb : RegNo) (cc : Fin 16)
  /-- CMPI: pd := ga CC sext(IMM8). (R234) -/
  | cmpi (t : TileId) (gu : Guard) (pd : PredNo) (ra : RegNo) (cc : Fin 16) (imm : BitVec 8)
  /-- PLOGIC: pd is set from pa and pb by a predicate logic function. (R235) -/
  | plogic (t : TileId) (gu : Guard) (pd pa pb : PredNo) (fn : Fin 8)
  /-- LOAD: A scalar load of 1, 2, 4 or 8 bytes is checked, forwarded or performed, and lands three slots later. (R236) -/
  | load (t : TileId) (gu : Guard) (op : Fin 7) (rd ra : RegNo) (imm : BitVec 11)
  /-- STORE: A scalar store is checked and enters the store buffer. (R236) -/
  | store (t : TileId) (gu : Guard) (op : Fin 4) (rs ra : RegNo) (imm : BitVec 11)
  /-- LOAD_DATA_RETURN: Data for a load from a target other than own scratchpad returns, ending the core's stall or raising its fault. (R188) -/
  | loadDataReturn (t : TileId) (ext : LoadAns)
  /-- LOAD_LANDS: A load's value is written to its destination at slot s + 3. (R186) -/
  | loadLands (t : TileId)
  /-- STORE_BUFFER_DRAIN: The oldest store-buffer entry drains to its target port. (R195) -/
  | storeBufferDrain (t : TileId)
  /-- BR: Branch to PC + 4 × DISP21. (R239) -/
  | br (t : TileId) (gu : Guard) (disp : BitVec 21)
  /-- CALL: Branch and write g31 := PC + 4. (R239) -/
  | call (t : TileId) (gu : Guard) (disp : BitVec 21)
  /-- JUMP: Branch to ga and write gd := PC + 4. (R239) -/
  | jump (t : TileId) (gu : Guard) (rd ra : RegNo)
  /-- NOP: No operation. (R240) -/
  | nop (t : TileId) (gu : Guard)
  /-- SYS: Raises the SYS exception. (R240) -/
  | sys (t : TileId) (gu : Guard)
  /-- BREAK: Raises the BREAK exception. (R240) -/
  | brk (t : TileId) (gu : Guard)
  /-- ERET: Completes the handler's pending writes, restores mode and delay state, and resumes at EPC. (R205) -/
  | eret (t : TileId) (gu : Guard)
  /-- FENCE: Waits for the store buffer and long-vector writes, and raises ENGINE if an engine error is recorded. (R240) -/
  | fence (t : TileId) (gu : Guard)
  /-- ISYNC: Drains the store buffer and flushes the prefetch queue. (R201) -/
  | isync (t : TileId) (gu : Guard)
  /-- MFC: Copies a control register into gd. (R241) -/
  | mfc (t : TileId) (gu : Guard) (rd : RegNo) (idx : Fin 64)
  /-- MTC: Copies ga into a control register. (R241) -/
  | mtc (t : TileId) (gu : Guard) (idx : Fin 64) (ra : RegNo)
  /-- MFPR: gd[15:0] := p15–p0. (R241) -/
  | mfpr (t : TileId) (gu : Guard) (rd : RegNo)
  /-- MTPR: p1–p15 := ga[15:1]. (R241) -/
  | mtpr (t : TileId) (gu : Guard) (ra : RegNo)
  /-- FADD: Scalar floating add. (R243) -/
  | fadd (t : TileId) (gu : Guard) (single : Bool) (rd ra rb : RegNo)
  /-- FSUB: Scalar floating subtract. (R243) -/
  | fsub (t : TileId) (gu : Guard) (single : Bool) (rd ra rb : RegNo)
  /-- FMUL: Scalar floating multiply. (R243) -/
  | fmul (t : TileId) (gu : Guard) (single : Bool) (rd ra rb : RegNo)
  /-- FDIV: Scalar floating divide. (R243) -/
  | fdiv (t : TileId) (gu : Guard) (single : Bool) (rd ra rb : RegNo)
  /-- FSQRT: Scalar floating square root. (R243) -/
  | fsqrt (t : TileId) (gu : Guard) (single : Bool) (rd ra : RegNo)
  /-- FMIN: minimumNumber of ga and gb. (R243) -/
  | fmin (t : TileId) (gu : Guard) (single : Bool) (rd ra rb : RegNo)
  /-- FMAX: maximumNumber of ga and gb. (R243) -/
  | fmax (t : TileId) (gu : Guard) (single : Bool) (rd ra rb : RegNo)
  /-- FABS: Clears the sign bit. (R243) -/
  | fabs (t : TileId) (gu : Guard) (single : Bool) (rd ra : RegNo)
  /-- FNEG: Inverts the sign bit. (R243) -/
  | fneg (t : TileId) (gu : Guard) (single : Bool) (rd ra : RegNo)
  /-- FCVT: Converts between FP64 and FP32. (R243) -/
  | fcvt (t : TileId) (gu : Guard) (single : Bool) (rd ra : RegNo)
  /-- FCVT_L: Converts floating to a signed 64-bit integer. (R243) -/
  | fcvtL (t : TileId) (gu : Guard) (single : Bool) (rd ra : RegNo)
  /-- FCVT_F_L: Converts a signed 64-bit integer to floating. (R243) -/
  | fcvtFL (t : TileId) (gu : Guard) (single : Bool) (rd ra : RegNo)
  /-- FCVT_LU: Converts floating to an unsigned 64-bit integer. (R243) -/
  | fcvtLu (t : TileId) (gu : Guard) (single : Bool) (rd ra : RegNo)
  /-- FCVT_F_LU: Converts an unsigned 64-bit integer to floating. (R243) -/
  | fcvtFLu (t : TileId) (gu : Guard) (single : Bool) (rd ra : RegNo)
  /-- FCLASS: Writes the one-hot class of ga. (R243) -/
  | fclass (t : TileId) (gu : Guard) (single : Bool) (rd ra : RegNo)
  /-- FMA: ga × gb + gc with one rounding. (R244) -/
  | fma (t : TileId) (gu : Guard) (single : Bool) (rd ra rb rc : RegNo)
  /-- FCMP: A floating compare sets pd. (R244) -/
  | fcmp (t : TileId) (gu : Guard) (single : Bool) (pd : PredNo) (ra rb : RegNo) (cc : Fin 16)
  /-- INTERRUPT_ENTRY: An eligible interrupt is taken at a slot boundary and enters the handler at evec + 0x40. (R207) -/
  | interruptEntry (t : TileId)
  /-- TIMER_INTERRUPT_PENDING: ctime reaches tcmp and ipend[0] is set. (R207) -/
  | timerInterruptPending (t : TileId)
  /-- QUIESCE_INTERRUPT: The management controller asks the tile monitor to stop the partition, and ipend[2] is set. (R207) -/
  | quiesceInterrupt (t : TileId)
  /-- TCB_DOORBELL: A write copies MSG to mbox and sets ipend[1]. (R215) -/
  | tcbDoorbell (t : TileId) (msg : BitVec 32)
  /-- CORE_HALT: Writing RUN = 0 halts the core at the next slot boundary, with the delay state frozen into the halt copy. (R206) -/
  | coreHalt (t : TileId)
  /-- CORE_RESUME: Writing RUN = 1 resumes at TCB_CORE_PC with the halt copy reloaded. (R215) -/
  | coreResume (t : TileId)
  /-- CORE_SRESET: SRESET resets the core and leaves RUN at 0. (R218) -/
  | coreSreset (t : TileId)
  /-- CREG_DATA_WRITE: A halted-core write through TCB_CREG_DATA acts as an MTC, or is refused with ACCESS_ERR. (R216) -/
  | cregDataWrite (t : TileId) (v : Word)
  /-- ISTORE_WIN_WRITE: A write through the window stores an aligned unit of the instruction store. (R214) -/
  | istoreWinWrite (t : TileId) (off : Fin 4096) (size : Fin 9) (v : Word)
  /-- SVLD: Loads 32 or 64 bytes into an sv register. (R247) -/
  | svld (t : TileId) (gu : Guard) (full : Bool) (v : PredNo) (ra : RegNo) (imm : BitVec 10)
  /-- SVST: Stores an sv register as 4 or 8 store-buffer entries. (R248) -/
  | svst (t : TileId) (gu : Guard) (full : Bool) (v : PredNo) (ra : RegNo) (imm : BitVec 10)
  /-- SV_INT: A short-vector integer element-wise function. (R249) -/
  | svInt (t : TileId) (gu : Guard) (full : Bool) (et : Fin 8) (fn : Fin 32) (vd va vb : PredNo)
  /-- SV_FP: A short-vector floating element-wise function. (R250) -/
  | svFp (t : TileId) (gu : Guard) (full : Bool) (et : Fin 8) (fn : Fin 32) (vd va vb : PredNo)
  /-- VPERM: Byte permute of va by vb. (R251) -/
  | vperm (t : TileId) (gu : Guard) (full : Bool) (et : Fin 8) (vd va vb : PredNo)
  /-- VZIPL: Interleaves the first halves of a and b. (R251) -/
  | vzipl (t : TileId) (gu : Guard) (full : Bool) (et : Fin 8) (vd va vb : PredNo)
  /-- VZIPH: Interleaves the second halves of a and b. (R251) -/
  | vziph (t : TileId) (gu : Guard) (full : Bool) (et : Fin 8) (vd va vb : PredNo)
  /-- SV_VBCAST: Broadcasts ga to every element. (R252) -/
  | svVbcast (t : TileId) (gu : Guard) (full : Bool) (et : Fin 8) (vd : PredNo) (ra : RegNo) (idx : Fin 64)
  /-- VINS: Writes ga into one element. (R252) -/
  | vins (t : TileId) (gu : Guard) (full : Bool) (et : Fin 8) (vd : PredNo) (ra : RegNo) (idx : Fin 64)
  /-- VEXT: Extracts one element into gd. (R252) -/
  | vext (t : TileId) (gu : Guard) (full : Bool) (et : Fin 8) (rd : RegNo) (va : PredNo) (idx : Fin 64)
  /-- VRSUM: Sums the elements into gd modulo 2^64. (R252) -/
  | vrsum (t : TileId) (gu : Guard) (full : Bool) (et : Fin 8) (rd : RegNo) (va : PredNo) (idx : Fin 64)
  /-- VSAD: Sum of absolute differences into lanes. (R253) -/
  | vsad (t : TileId) (gu : Guard) (full : Bool) (lw : Bool) (ty : Fin 4) (vd va vb : PredNo)
  /-- VSADA: Sum of absolute differences accumulated into lanes. (R253) -/
  | vsada (t : TileId) (gu : Guard) (full : Bool) (lw : Bool) (ty : Fin 4) (vd va vb : PredNo)
  /-- SETVL: Sets vl and vtype and returns vl. (R259) -/
  | setvl (t : TileId) (gu : Guard) (rd ra : RegNo) (sew : Fin 4) (alt : Bool)
  /-- LV_START: The long-vector unit starts the next queued instruction in issue order. (R261) -/
  | lvStart (t : TileId)
  /-- LV_INTEGER: vadd, vsub, vmul, vmulh, vmin, vmax, vminu, vmaxu on active elements. (R266) -/
  | lvInteger (t : TileId) (gu : Guard) (fn : Fin 8) (vd va vb : RegNo) (vm : Fin 8)
  /-- LV_LOGIC_SHIFT: vand, vor, vxor, vsll, vsrl, vsra and vabsd on active elements. (R266) -/
  | lvLogicShift (t : TileId) (gu : Guard) (fn : Fin 7) (vd va vb : RegNo) (vm : Fin 8)
  /-- VCVT: Converts elements to the floating type of SEW. (R776) -/
  | vcvt (t : TileId) (gu : Guard) (vd va : RegNo) (ty : Fin 8) (vm : Fin 8)
  /-- VCVT_I: Converts elements to the signed integer type of SEW. (R776) -/
  | vcvtI (t : TileId) (gu : Guard) (vd va : RegNo) (ty : Fin 8) (vm : Fin 8)
  /-- LV_FLOAT: vfadd, vfsub, vfmul, vfdiv, vfsqrt, vfmin, vfmax and vfma on active elements. (R264) -/
  | lvFloat (t : TileId) (gu : Guard) (fn : Fin 8) (vd va vb : RegNo) (vm : Fin 8)
  /-- LV_COMPARE: Integer and floating compares write a mask. (R266) -/
  | lvCompare (t : TileId) (gu : Guard) (fn : Fin 8) (vd va vb : RegNo) (vm : Fin 8)
  /-- VLD: Unit-stride vector load from own scratchpad. (R269) -/
  | vld (t : TileId) (gu : Guard) (vd ra : RegNo) (vm : Fin 8)
  /-- VLDS: Strided vector load. (R269) -/
  | vlds (t : TileId) (gu : Guard) (vd ra rb : RegNo) (vm : Fin 8)
  /-- VLDX: Indexed vector load. (R269) -/
  | vldx (t : TileId) (gu : Guard) (vd ra rb : RegNo) (vm : Fin 8)
  /-- VST: Unit-stride vector store. (R269) -/
  | vst (t : TileId) (gu : Guard) (vd ra : RegNo) (vm : Fin 8)
  /-- VSTS: Strided vector store. (R269) -/
  | vsts (t : TileId) (gu : Guard) (vd ra rb : RegNo) (vm : Fin 8)
  /-- VSTX: Indexed vector store. (R269) -/
  | vstx (t : TileId) (gu : Guard) (vd ra rb : RegNo) (vm : Fin 8)
  /-- VLM: Loads 256 bytes into a mask register. (R266) -/
  | vlm (t : TileId) (gu : Guard) (vd ra : RegNo)
  /-- VSM: Stores 256 bytes of a mask register. (R266) -/
  | vsm (t : TileId) (gu : Guard) (vd ra : RegNo)
  /-- LV_VBCAST: Broadcasts the low w bits of ga. (R266) -/
  | lvVbcast (t : TileId) (gu : Guard) (vd ra : RegNo) (vm : Fin 8)
  /-- VMV: Vector move, merging under a mask. (R266) -/
  | vmv (t : TileId) (gu : Guard) (vd va : RegNo) (vm : Fin 8)
  /-- VMFS: gd := element 0 of va. (R266) -/
  | vmfs (t : TileId) (gu : Guard) (rd va : RegNo)
  /-- VMSF: element 0 := ga. (R266) -/
  | vmsf (t : TileId) (gu : Guard) (vd ra : RegNo)
  /-- VFIRST: Lowest active set mask bit, or all ones. (R266) -/
  | vfirst (t : TileId) (gu : Guard) (rd va : RegNo) (vm : Fin 8)
  /-- VPOPC: Count of active set mask bits. (R266) -/
  | vpopc (t : TileId) (gu : Guard) (rd va : RegNo) (vm : Fin 8)
  /-- VCOMPRESS: Packs the selected elements to the front. (R267) -/
  | vcompress (t : TileId) (gu : Guard) (vd va vb : RegNo)
  /-- VID: Writes i mod 2^w to each element. (R266) -/
  | vid (t : TileId) (gu : Guard) (vd : RegNo) (vm : Fin 8)
  /-- VEXP: Exponential of each element at the numerics level. (R274) -/
  | vexp (t : TileId) (gu : Guard) (vd va : RegNo) (vm : Fin 8)
  /-- VLOG: Natural logarithm of each element. (R274) -/
  | vlog (t : TileId) (gu : Guard) (vd va : RegNo) (vm : Fin 8)
  /-- VRCP: Reciprocal of each element. (R274) -/
  | vrcp (t : TileId) (gu : Guard) (vd va : RegNo) (vm : Fin 8)
  /-- VRSQRT: Reciprocal square root of each element. (R274) -/
  | vrsqrt (t : TileId) (gu : Guard) (vd va : RegNo) (vm : Fin 8)
  /-- VTANH: Hyperbolic tangent of each element. (R274) -/
  | vtanh (t : TileId) (gu : Guard) (vd va : RegNo) (vm : Fin 8)
  /-- VMAXR: Maximum reduction into element 0. (R273) -/
  | vmaxr (t : TileId) (gu : Guard) (vd va : RegNo) (vm : Fin 8)
  /-- VSUMR: Pairwise sum reduction into element 0. (R273) -/
  | vsumr (t : TileId) (gu : Guard) (vd va : RegNo) (vm : Fin 8)
  /-- VSOFTMAX: Softmax of a row with the edge rules of R349. (R275) -/
  | vsoftmax (t : TileId) (gu : Guard) (vd va : RegNo) (vm : Fin 8)
  /-- VSYNC: Stalls until every earlier long-vector instruction has completed. (R272) -/
  | vsync (t : TileId) (gu : Guard)
  /-- VMAND: Mask AND. (R266) -/
  | vmand (t : TileId) (gu : Guard) (vd va vb : RegNo)
  /-- VMOR: Mask OR. (R266) -/
  | vmor (t : TileId) (gu : Guard) (vd va vb : RegNo)
  /-- VMXOR: Mask XOR. (R266) -/
  | vmxor (t : TileId) (gu : Guard) (vd va vb : RegNo)
  /-- VMANDN: Mask AND NOT. (R266) -/
  | vmandn (t : TileId) (gu : Guard) (vd va vb : RegNo)
  /-- SPLOAD: Copies an image into the spindle instruction buffer. (R283) -/
  | spload (t : TileId) (gu : Guard) (ra rb : RegNo)
  /-- SPENTER: Enters spindle mode with every spindle at one PC. (R284) -/
  | spenter (t : TileId) (gu : Guard) (ra : RegNo)
  /-- SPRESUME: Enters spindle mode with stopped spindles at their recorded PCs. (R284) -/
  | spresume (t : TileId) (gu : Guard)
  /-- SPEXIT: Exits spindle mode if all spindles are halted or faulted, otherwise writes 0. (R285) -/
  | spexit (t : TileId) (gu : Guard) (rd : RegNo)
  /-- SPSTOP: Stops every running spindle and exits. (R286) -/
  | spstop (t : TileId) (gu : Guard)
  /-- TCB_SPSTOP: TCB_LVU_CTRL.SPSTOP performs the forced stop for the host or management. (R286) -/
  | tcbSpstop (t : TileId)
  /-- SPINDLE_INSTRUCTION: A spindle executes one instruction of the allowed subset. (R279) -/
  | spindleInstruction (t : TileId) (lane : Fin 32)
  /-- SPHALT: Halts the spindle. (R280) -/
  | sphalt (t : TileId) (lane : Fin 32) (gu : Guard)
  /-- SID: Writes the lane number. (R280) -/
  | sid (t : TileId) (lane : Fin 32) (gu : Guard) (td : RegNo)
  /-- SPARRIVE: ARRIVE of 1 on the tile's dowel after the spindle's stores. (R280) -/
  | sparrive (t : TileId) (lane : Fin 32) (gu : Guard) (ta : RegNo)
  /-- VREG_WIN_ACCESS: Access to the selected vector register through the window while halted and idle. (R289) -/
  | vregWinAccess (t : TileId) (off : Fin 2048) (size : Fin 9) (wr : Option Word)
  /-- MMA: Queues a matrix multiply-accumulate command. (R300) -/
  | mma (t : TileId) (gu : Guard) (ra rb rc : RegNo) (acc : Fin 4) (dw : Bool)
  /-- MSTORE: Queues a store of an accumulator to scratchpad. (R308) -/
  | mstore (t : TileId) (gu : Guard) (ra rc : RegNo) (acc : Fin 4) (dw : Bool)
  /-- MSCALE: Queues a load of a scale buffer. (R306) -/
  | mscale (t : TileId) (gu : Guard) (ra rc : RegNo) (dw : Bool)
  /-- MZERO: Queues zeroing of an accumulator. (R299) -/
  | mzero (t : TileId) (gu : Guard) (acc : Fin 4) (dw : Bool)
  /-- MZERO_P: Queues zeroing of an accumulator pair. (R299) -/
  | mzeroP (t : TileId) (gu : Guard) (acc : Fin 4) (dw : Bool)
  /-- MSYNC: Stalls until every issued command has completed, failed or been dropped. (R297) -/
  | msync (t : TileId) (gu : Guard)
  /-- ME_COMMAND_START: A queued command starts, is checked and translated, and runs or fails. (R309) -/
  | meCommandStart (t : TileId)
  /-- ME_COMMAND_COMPLETE: A command completes and, with DW, applies an ARRIVE to its completion dowel. (R295) -/
  | meCommandComplete (t : TileId) (corr : Nat) (ue : Option (Fin 6 × Fin 4096))
  /-- MACC_WIN_ACCESS: Access to an accumulator or scale buffer through the window while the engine is idle. (R318) -/
  | maccWinAccess (t : TileId) (off : Fin 4096) (size : Fin 9) (wr : Option Word)
  /-- DRAWER_OWN_WRITE: A write of drawer ownership takes effect, may start zeroing, or is rejected for a resident drawer. (R358) -/
  | drawerOwnWrite (t : TileId) (d : Fin 6) (v : Word)
  /-- DRAWER_ZEROING_START: After the prior accesses drain, the drawer is written to zero. (R362) -/
  | drawerZeroingStart (t : TileId)
  /-- DRAWER_ZEROING_DONE: Zeroing ends, CLEAN is set and stalled accesses are checked and proceed. (R362) -/
  | drawerZeroingDone (t : TileId)
  /-- SCRUB_SLOT: The scrubber reads the next word of a bank in its guaranteed or a free cycle. (R369) -/
  | scrubSlot (t : TileId) (bank : Fin 24) (free : Bool) (ecc : Fin 3)
  /-- SCRUB_WRITEBACK: A corrected word is written back in the bank's next free cycle or slot. (R369) -/
  | scrubWriteback (t : TileId)
  /-- TRANSFER_PORT_REQUEST: A remote or host request reaches the tile's transfer port and is checked at the bank. (R366) -/
  | transferPortRequest (t src : TileId)
  /-- DARRIVE: Sends ARRIVE n to a named dowel after the release conditions. (R380) -/
  | darrive (t : TileId) (gu : Guard) (ra rb : RegNo)
  /-- DSET: Sends SET v to a named dowel. (R380) -/
  | dset (t : TileId) (gu : Guard) (ra rb : RegNo)
  /-- DRESET: Sends RESET to a named dowel. (R380) -/
  | dreset (t : TileId) (gu : Guard) (ra : RegNo)
  /-- DWAIT: Waits until the dowel's COUNT ≥ n, registering a remote waiter if needed. (R384) -/
  | dwait (t : TileId) (gu : Guard) (pd : PredNo) (ra rb : RegNo)
  /-- DTEST: Tests COUNT ≥ n into pd. (R380) -/
  | dtest (t : TileId) (gu : Guard) (pd : PredNo) (ra rb : RegNo)
  /-- DREAD: Reads the dowel word into gd. (R380) -/
  | dread (t : TileId) (gu : Guard) (rd ra : RegNo)
  /-- DOWEL_STORE_COMMAND: An 8-byte store to a dowel address applies ARRIVE, SET or RESET. (R378) -/
  | dowelStoreCommand (port : Fin 2) (tile : TileId) (idx : Fin 512) (v : Word)
  /-- DOWEL_OP_ARRIVAL: A tagged dowel operation reaches its target and is applied once or discarded as stale. (R388) -/
  | dowelOpArrival (src : DowelSrc) (tile : TileId) (idx : Fin 512)
  /-- DOWEL_WAKE: A wake message completes a registered wait. (R384) -/
  | dowelWake (t : TileId)
  /-- DWAIT_POLL: An unregistered waiter reads the dowel every 256 mesh cycles. (R387) -/
  | dwaitPoll (t : TileId)
  /-- CARRIVE: Arrives on a clamp channel, setting the pending bit or stalling to the next generation. (R390) -/
  | carrive (t : TileId) (gu : Guard) (ra : RegNo)
  /-- CWAIT: Waits until the tile's pending bit clears. (R391) -/
  | cwait (t : TileId) (gu : Guard) (pd : PredNo) (ra : RegNo)
  /-- CTEST: pd := pending bit clear. (R391) -/
  | ctest (t : TileId) (gu : Guard) (pd : PredNo) (ra : RegNo)
  /-- CBAR: carrive followed by cwait. (R391) -/
  | cbar (t : TileId) (gu : Guard) (pd : PredNo) (ra : RegNo)
  /-- CLAMP_RELEASE: All participants have arrived; GEN increments and the pending bits clear. (R390) -/
  | clampRelease (c : Fin 16)
  /-- TSUB: Submits a 128-byte descriptor to a channel. (R407) -/
  | tsub (t : TileId) (gu : Guard) (ra rb : RegNo)
  /-- TSTAT: Returns a channel's status. (R406) -/
  | tstat (t : TileId) (gu : Guard) (rd rb : RegNo)
  /-- TSYNC: Waits until the selected channels are not running. (R406) -/
  | tsync (t : TileId) (gu : Guard) (rb : RegNo)
  /-- TCLEAR: Clears a FAILED channel in the given mode. (R422) -/
  | tclear (t : TileId) (gu : Guard) (ra rb : RegNo)
  /-- TSTOP: Stops the selected channels. (R423) -/
  | tstop (t : TileId) (gu : Guard) (rb : RegNo)
  /-- TGO: Resumes STOPPED channels at block DONE. (R423) -/
  | tgo (t : TileId) (gu : Guard) (rb : RegNo)
  /-- TSAVE: Writes a channel's 768-byte save record. (R424) -/
  | tsave (t : TileId) (gu : Guard) (ra rb : RegNo)
  /-- TREST: Restores a channel from a save record. (R425) -/
  | trest (t : TileId) (gu : Guard) (ra rb : RegNo)
  /-- TE_CTRL_STOP: TCB_TE_CTRL.STOP stops the channel. (R427) -/
  | teCtrlStop (t : TileId) (ch : Fin 4)
  /-- TE_CTRL_GO: TCB_TE_CTRL.GO resumes a STOPPED channel. (R427) -/
  | teCtrlGo (t : TileId) (ch : Fin 4)
  /-- TE_CTRL_CLEAR: TCB_TE_CTRL.CLEAR acts as tclear with MODE. (R427) -/
  | teCtrlClear (t : TileId) (ch mode : Fin 4)
  /-- DESCRIPTOR_START: A descriptor becomes the running one and is checked for FORMAT. (R405) -/
  | descriptorStart (t : TileId) (ch : Fin 4)
  /-- BLOCK_PRETRANSLATE: A block's pages are translated and checked before any byte moves. (R408) -/
  | blockPretranslate (t : TileId) (ch : Fin 4)
  /-- BLOCK_COMMIT: Every write of a block is performed; DONE increments and the completion ARRIVE is applied. (R412) -/
  | blockCommit (t : TileId) (ch : Fin 4) (ext : LoadAns)
  /-- TE_STOP_DONE: The blocks in flight commit, and the channel enters STOPPED. (R423) -/
  | teStopDone (t : TileId) (ch : Fin 4)
  /-- PAGE_WALK: A translation miss starts a walk of the host page tables or computes a segment. (R437) -/
  | pageWalk (leaf : Fin 2)
  /-- PAGE_WALK_ENTRY_READ: A table entry read returns and the walk advances, completes or faults. (R438) -/
  | pageWalkEntryRead (leaf : Fin 2) (k : Fin 8) (entry : Option Word) (cas : Bool)
  /-- PAGE_GROUP_RESPONSE: A Page Request Group Response is matched and its waiters walk again or fail. (R453) -/
  | pageGroupResponse (port : Fin 2) (fn : Fin 128) (idx : Fin 512) (pasid : BitVec 20) (code : Fin 16)
  /-- PRI_TIMEOUT: An outstanding request times out and its waiters fail with ACCESS. (R455) -/
  | priTimeout (port : Fin 2) (fn : Fin 128) (idx : Fin 512)
  /-- XLT_INV_WRITE: XLT_INV.GO queues an invalidation of a tag. (R446) -/
  | xltInvWrite (v : Word)
  /-- ATS_INVALIDATE_REQUEST: An ATS Invalidate Request invalidates the matching tags. (R447) -/
  | atsInvalidateRequest (port : Fin 2) (fn : Fin 128) (pasid : Option (BitVec 20))
  /-- INVALIDATION_COMPLETE: An invalidation's covered accesses are performed, and the completion ARRIVE is applied. (R448) -/
  | invalidationComplete
  /-- XLT_CTX_WRITE: A write to a context descriptor, checked under R473 and R622. (R434) -/
  | xltCtxWrite (agent : RegAgent) (n : TileId) (k : Fin 32) (v : Word)
  /-- STOP_MARKER: Once no request of the context is outstanding, a Stop Marker is sent. (R458) -/
  | stopMarker (n : TileId)
  /-- XLT_FMT_WRITE: A write to a format descriptor, ignored while a valid context selects it. (R435) -/
  | xltFmtWrite (agent : RegAgent) (f k : Fin 4) (v : Word)
  /-- PRI_DISABLE: Clearing PRI Enable fails the accesses waiting on outstanding requests. (R452) -/
  | priDisable (port : Fin 2) (fn : Fin 128)
  /-- HOST_LINK_TRAINING: A host port trains to its rate, width and protocol. (R466) -/
  | hostLinkTraining (port : Fin 2) (rate : Fin 7) (width : Fin 17) (flit cache : Bool) (cxl : Fin 4)
  /-- DATA_LINK_DOWN: The data link goes down; outstanding requests fail and the down timer starts. (R491) -/
  | dataLinkDown (port : Fin 2)
  /-- DOWN_TIMER_EXPIRY: The 2 ms down timer expires and the port self-resets. (R492) -/
  | downTimerExpiry (port : Fin 2)
  /-- HOT_RESET: A Hot Reset starts the port self-reset. (R492) -/
  | hotReset (port : Fin 2)
  /-- PERST_ASSERT: PERSTn_N falls and the port self-resets at once. (R495) -/
  | perstAssert (port : Fin 2)
  /-- LINK_DISABLE: Setting Link Disable starts the port self-reset. (R492) -/
  | linkDisable (port : Fin 2)
  /-- FUNCTION_LEVEL_RESET: An FLR resets the bound partition and the function's configuration state. (R490) -/
  | functionLevelReset (port : Fin 2) (fn : Fin 128)
  /-- HOST_BAR_WRITE: A host write through a BAR is performed at its target or discarded. (R479) -/
  | hostBarWrite (port : Fin 2) (fn : Fin 128) (requester : BitVec 16) (bar : Fin 3) (off : BitVec 38) (data : List Byte) (ep : Bool)
  /-- HOST_BAR_READ: A host read completes after the requester's earlier writes to that BAR. (R480) -/
  | hostBarRead (port : Fin 2) (fn : Fin 128) (requester : BitVec 16) (bar : Fin 3) (off : BitVec 38) (n : Fin 4097)
  /-- CONFIG_REQUEST: A configuration request is served, or answered with Request Retry Status before ready. (R487) -/
  | configRequest (port : Fin 2) (fn : Fin 128) (field : Fin 32) (v : Option (BitVec 64))
  /-- FLUSH_READ: A zero-length read is issued to commit host-memory writes without CXL.cache. (R482) -/
  | flushRead (port : Fin 2)
  /-- HOST_READ_COMPLETION: A completion for the part's read arrives, possibly with EP, UR or CA. (R486) -/
  | hostReadCompletion (reader : HostReader) (ans : HostAns)
  /-- COMPLETION_TIMEOUT: A read of host memory times out and its source fails. (R489) -/
  | completionTimeout (reader : HostReader)
  /-- HPORT_RETRAIN: MGC_HPORTn_CTL.RETRAIN retrains the link. (R494) -/
  | hportRetrain (port : Fin 2)
  /-- HLC_REQUEST: An access misses or needs ownership and sends a CXL.cache request. The accesses of tiles, of walkers
  and of the rest that reach the slice of a line in one cycle are named by their places among those issued. (R499, R502) -/
  | hlcRequest (port : Fin 2) (line : Fin 0x400000000000) (tiles walkers others : List Nat) (ecc : Fin 5)
  /-- HLC_FILL: A request's response arrives and waiters on the line are served. (R501) -/
  | hlcFill (port : Fin 2) (line : Fin 0x400000000000) (st : Fin 4) (data : List Byte) (poison : Bool)
  /-- HOST_SNOOP: A host snoop is answered from the line's present state or the eviction buffer. (R503) -/
  | hostSnoop (port : Fin 2) (line : Fin 0x400000000000) (kind : Fin 3)
  /-- EVICTION_WRITEBACK_DONE: A DirtyEvict completes and its buffer entry is freed. (R504) -/
  | evictionWritebackDone (port : Fin 2) (line : Fin 0x400000000000)
  /-- HLC_PRELOAD: HLC_PRELOAD_CTL.GO reads lines and optionally locks them. (R506) -/
  | hlcPreload (v : Option Word)
  /-- HLC_UNLOCK: HLC_CTRL.UNLOCK frees every way lock. (R507) -/
  | hlcUnlock
  /-- WQ_DOORBELL: A WQ_DB write records a new TAIL or is refused with a code. (R513) -/
  | wqDoorbell (q : TileId) (tail : BitVec 32)
  /-- DESCRIPTOR_FETCH: A work-order descriptor is fetched from the ring and checked. (R515) -/
  | descriptorFetch (q : TileId) (ans : Option (List Word))
  /-- GRAIN_HASH_INPUTS: The declared program, weight and input regions are hashed before dispatch. (R653) -/
  | grainHashInputs (q : TileId) (list : Option (List Word)) (host : List (Option (List Byte × Bool)))
  /-- WORK_ORDER_DISPATCH: A work order is dispatched to the rank-0 tile monitor. (R518) -/
  | workOrderDispatch (q : TileId)
  /-- WQ_DONE_WRITE: The monitor ends a work order, accepted only when no engine work of its context remains. (R519) -/
  | wqDoneWrite (agent : RegAgent) (q : TileId) (v : Word) (host : List (Option (List Byte × Bool)))
  /-- COMPLETION_RECORD_WRITE: A completion record is written to the ring when space exists. (R523) -/
  | completionRecordWrite (q : TileId)
  /-- WQ_ENABLE: Enabling a queue resets its counters and duplicate window. (R512) -/
  | wqEnable (q : TileId)
  /-- WQ_DISABLE: Disabling waits for no dispatched work order and discards fetched descriptors. (R512) -/
  | wqDisable (q : TileId)
  /-- WQ_CQHEAD_WRITE: The host frees completion-ring space, and waiting records may be written. (R523) -/
  | wqCqheadWrite (q : TileId) (v : BitVec 32)
  /-- MEMORY_WRITE_ACCEPT: A write is placed in the pseudo-channel queue and becomes visible to later reads. (R539) -/
  | memoryWriteAccept (pc : Fin 192)
  /-- HBM_COMMAND_SLOT: A pseudo-channel issues the highest-precedence ready command in a command slot. (R540) -/
  | hbmCommandSlot (pc : Fin 192) (loc : Fin 0x80000000) (ecc : Fin 3)
  /-- REFRESH: A per-bank refresh falls due and is issued. (R548) -/
  | refresh (pc : Fin 192)
  /-- REFRESH_RATE_CHANGE: The stack temperature crosses a threshold and the refresh rate steps. (R548) -/
  | refreshRateChange (stack : Fin 6) (temp : Fin 256)
  /-- HBM_SCRUB_SLOT: Patrol scrub reads the next unit in its guaranteed slot. (R555) -/
  | hbmScrubSlot (pc : Fin 192) (ecc : Fin 3)
  /-- ROW_REMAP: A failing row's bank is closed and the row is copied to a spare. (R552) -/
  | rowRemap (late : Fin 17)
  /-- ROW_REMAP_DONE: The copy completes, the row is redirected and the bank resumes. (R552) -/
  | rowRemapDone
  /-- PC_MAP_OUT: A pseudo-channel is mapped out, and its reads return poison. (R545) -/
  | pcMapOut (pc : Fin 192)
  /-- MEMORY_RECAL_WINDOW: A pseudo-channel interface is recalibrated in its window. (R557) -/
  | memoryRecalWindow (pc : Fin 192) (late : Fin 17)
  /-- STACK_TRAINING: A stack is trained after power-up. (R556) -/
  | stackTraining (stack : Fin 6) (fails : List (Fin 192))
  /-- STACK_ZERO_FILL_DONE: Zero fill of a stack completes and accesses are admitted. (R558) -/
  | stackZeroFillDone (stack : Fin 6)
  /-- STACK_THERMAL_TRIP: A stack at 105 °C for 1 ms trips and takes the part down. (R550) -/
  | stackThermalTrip (stack : Fin 6)
  /-- LENYS_TRAINING: A Lenys port trains at the highest generation and exchanges slot and cabinet. (R568) -/
  | lenysTraining (port : Fin 16) (gen2 : Bool) (farSlot : TileId) (farPort : Fin 16) (farCab farInc : BitVec 32) (ok : Bool)
  /-- CODEWORD_RECEIVE: A codeword is received, corrected or discarded, and its flits are delivered in order. (R570) -/
  | codewordReceive (port : Fin 16) (seq ack : Fin 1024) (errs : Nat) (idle : Bool) (ms : List StreamMsg)
  /-- LINK_REPLAY: On a retry request the transmitter replays from the named codeword. (R571) -/
  | linkReplay (port : Fin 16) (seq : Fin 1024)
  /-- PORT_RETRAIN: A port retrains after repeated replay or loss of lock. (R572) -/
  | portRetrain (port : Fin 16)
  /-- LANE_FAIL: A lane fails and moves to the spare, or the port leaves service. (R573) -/
  | laneFail (port : Fin 16) (lane : Fin 5)
  /-- LENYS_RECAL_WINDOW: A port recalibrates in its window. (R574) -/
  | lenysRecalWindow (port : Fin 16)
  /-- PORT_DOWN: A port goes down on a link-down notice, far-end power loss or power-down. (R575) -/
  | portDown (port : Fin 16)
  /-- LOCAL_REROUTE: A port leaves or rejoins routing and local routes are recomputed within 1 µs. (R581) -/
  | localReroute
  /-- ROUTE_TABLE_LOAD: A new routing table is loaded. (R582) -/
  | routeTableLoad (entries : List (TileId × Word))
  /-- E2E_RECEIVE: A stream message is accepted in order, or discarded. (R585) -/
  | e2eReceive (src : TileId)
  /-- E2E_ACK: A cumulative acknowledgement frees the source's kept messages. (R586) -/
  | e2eAck (src : TileId) (seq : BitVec 32) (refs : List (BitVec 32 × Nat)) (inc dinc : BitVec 32) (stale : Bool)
  /-- E2E_RETRANSMIT: On a route change or 100 µs without progress, unacknowledged messages are resent. (R587) -/
  | e2eRetransmit (d : TileId)
  /-- DESTINATION_UNREACHABLE: After 64 retransmissions or an invalid route, the stream's messages fail. (R588) -/
  | destinationUnreachable (d : TileId)
  /-- BUILD_NOTICE: A build notice marks the matching binding stale. (R593) -/
  | buildNotice
  /-- BARRIER_ARRIVE_AT_ROOT: The root records a member's arrive, and releases when all are set. (R595) -/
  | barrierArriveAtRoot
  /-- BARRIER_RELEASE: A member releases its participants on a matching release. (R595) -/
  | barrierRelease
  /-- BARRIER_ABORT: An abort makes the root send a broken release and reset the generation. (R596) -/
  | barrierAbort
  /-- TIME_EXCHANGE: Every 10 µs the part exchanges time stamps with its parent and steers its counter. (R599) -/
  | timeExchange (off : BitVec 16) (now : Word)
  /-- HOLDOVER: Loss of every path to the parent starts holdover. (R600) -/
  | holdover
  /-- LENYS_RETRAIN_WRITE: LNY_PORTp_CTL.RETRAIN retrains the port. (R603) -/
  | lenysRetrainWrite (port : Fin 16)
  /-- PART_BUILD: A BUILD is checked and the partition is built and released. (R617) -/
  | partBuild (v : Word)
  /-- PART_RESET: A RESET stops and clears the partition and rebuilds it. (R621) -/
  | partReset (v : Word)
  /-- PART_TEARDOWN: A TEARDOWN removes the partition and releases its resources. (R619) -/
  | partTeardown (v : Word)
  /-- PART_CMD_HOLD_END: A held partition command is checked and executed once its hold ends. (R615) -/
  | partCmdHoldEnd
  /-- PARTITION_FATAL: A partition-fatal error stops, records and resets, repairs or retires the partition. (R753) -/
  | partitionFatal (p : Fin 128) (id : BitVec 16) (phys : Option (Fin 288))
  /-- ROLLBACK_COMMIT: Raises an anti-rollback counter to the running image's SVN. (R629) -/
  | rollbackCommit (src : MgSrc) (typ : BitVec 8)
  /-- GET_VERSION: SPDM GET_VERSION request. (R633) -/
  | getVersion (tr : Fin 7)
  /-- GET_CAPABILITIES: SPDM GET_CAPABILITIES request. (R633) -/
  | getCapabilities (tr : Fin 7) (flags : BitVec 32)
  /-- NEGOTIATE_ALGORITHMS: SPDM NEGOTIATE_ALGORITHMS request. (R633) -/
  | negotiateAlgorithms (tr : Fin 7) (p384 sha secp aes : Bool)
  /-- GET_DIGESTS: SPDM GET_DIGESTS request. (R633) -/
  | getDigests (tr : Fin 7)
  /-- GET_CERTIFICATE: SPDM GET_CERTIFICATE request for slot 0. (R633) -/
  | getCertificate (tr : Fin 7) (slot : Fin 8) (off len : BitVec 16)
  /-- CHALLENGE: SPDM CHALLENGE request. (R633) -/
  | challenge (tr : Fin 7) (slot : Fin 8) (nonce : BitVec 256)
  /-- GET_MEASUREMENTS: SPDM GET_MEASUREMENTS returns the measurements of R630. (R634) -/
  | getMeasurements (tr : Fin 7) (index : BitVec 8) (signed : Bool) (nonce : BitVec 256)
  /-- KEY_EXCHANGE: SPDM KEY_EXCHANGE request. (R633) -/
  | keyExchange (tr : Fin 7) (slot : Fin 8) (share : BitVec 768)
  /-- FINISH: SPDM FINISH request. (R633) -/
  | finish (tr : Fin 7) (sess : BitVec 32) (mac : BitVec 384)
  /-- SPDM_HEARTBEAT: SPDM HEARTBEAT request. (R633) -/
  | spdmHeartbeat (tr : Fin 7) (sess : BitVec 32)
  /-- KEY_UPDATE: SPDM KEY_UPDATE request. (R633) -/
  | keyUpdate (tr : Fin 7) (sess : BitVec 32) (op : Fin 4)
  /-- END_SESSION: SPDM END_SESSION request. (R633) -/
  | endSession (tr : Fin 7) (sess : BitVec 32)
  /-- BM_START: START checks locally and sends HELLO to the twin. (R657) -/
  | bmStart (part twin : Fin 128)
  /-- BM_HELLO: A HELLO arrives and is checked, answered with READY or a refusal. (R657) -/
  | bmHello
  /-- BM_READY: READY arrives and the part arms its digests. (R657) -/
  | bmReady
  /-- BM_STOP: STOP ends bookmatch and sends END. (R668) -/
  | bmStop
  /-- CHECKPOINT_COMPARE: The twin's counterpart arrives and the checkpoints are compared. (R663) -/
  | checkpointCompare
  /-- BM_CHECKPOINT_TIMEOUT: A counterpart missing for DET_BM_TMO is a TIMEOUT divergence. (R666) -/
  | bmCheckpointTimeout (rank : Option TileId)
  /-- BM_LOST: Loss of the twin ports, a new incarnation or a partition reset ends bookmatch. (R668) -/
  | bmLost
  /-- FLUE_EPOCH: Flue updates its up budget and computes grants for the next epoch. (R692) -/
  | flueEpoch (m : Fin 2) (reports : List FlueReport) (draw : BitVec 32) (want : List (TileId × Fin 16))
  /-- FLUE_HEARTBEAT: The active manager sends a heartbeat with term, balance and envelope. (R683) -/
  | flueHeartbeat (m : Fin 2) (now : BitVec 64) (heard : Bool)
  /-- MANAGER_FAILOVER: After 30 ms without a heartbeat the standby takes a new term and resumes grants. (R683) -/
  | managerFailover (m : Fin 2) (now : BitVec 64)
  /-- HIGHER_TERM_SEEN: A manager hearing a higher term becomes standby. (R685) -/
  | higherTermSeen (m : Fin 2) (term : BitVec 32)
  /-- SHELF_FAILURE: A rectifier shelf fails and Flue lowers the envelope. (R680) -/
  | shelfFailure
  /-- ENVELOPE_REQUEST: The facility lowers the envelope and Flue orders proportional sheds. (R696) -/
  | envelopeRequest (watts ms : BitVec 32)
  /-- CONTRACT_CHANGE: A new contract parameter takes effect at the next epoch boundary. (R690) -/
  | contractChange (param : Fin 3) (v : BitVec 32)
  /-- FLUE_START: Flue sends the next START in slot order when the budget allows. (R697) -/
  | flueStart (m : Fin 2)
  /-- WATCHDOG_EXPIRY: The watchdog expires after 100 ms unserved. (R704) -/
  | watchdogExpiry
  /-- FIRMWARE_START: Verified firmware rebuilds the knot map, scans the log and verifies the tile monitor. (R713) -/
  | firmwareStart
  /-- SELF_TEST: On reaching Smoulder the part self-tests tiles, stores, wires and the HLC. (R717) -/
  | selfTest
  /-- SELF_TEST_DONE: Self-test ends, repairs are committed and drawer zeroing starts. (R717) -/
  | selfTestDone (tiles : List (Fin 288)) (defects : List Defect)
  /-- BOOT_READY: Configuration space becomes ready and Device Readiness Status is sent. (R718) -/
  | bootReady
  /-- LOG_RECORD_WRITE: A log record is written to the flash store, or dropped for stream 2. (R710) -/
  | logRecordWrite
  /-- LOG_COMPACTION: With two erased sectors left, a sector is compacted and erased. (R711) -/
  | logCompaction
  /-- SETDASA: The manager assigns an I3C dynamic address. (R721) -/
  | setdasa (iface : Fin 2) (addr : Fin 128)
  /-- SET_ENDPOINT_ID: The bus owner assigns an MCTP EID on PCIe VDM. (R722) -/
  | setEndpointId (port : Fin 2) (eid : BitVec 8)
  /-- RELAY: A gateway relays an MCTP packet between I3C and Lenys. (R723) -/
  | relay (iface : Fin 2) (toLenys : Bool) (dst : BitVec 16) (packet : List Byte)
  /-- GET_ID: Returns the identification registers and MGC_BOOT. (R725) -/
  | getId (src : MgSrc)
  /-- REG_READ: Reads a register at a block offset. (R725) -/
  | regRead (src : MgSrc) (off : BitVec 32)
  /-- REG_WRITE: Writes an allowed register on behalf of a manager. (R726) -/
  | regWrite (src : MgSrc) (off : BitVec 32) (v : BitVec 64)
  /-- GET_KNOT: Returns bytes of the knot-map image. (R725) -/
  | getKnot (src : MgSrc) (off len : BitVec 32)
  /-- GET_LOG: Returns records of a log stream. (R725) -/
  | getLog (src : MgSrc) (stream : BitVec 8) (first count : BitVec 32)
  /-- GET_TLM: Returns telemetry samples. (R725) -/
  | getTlm (src : MgSrc) (first count : BitVec 32)
  /-- IMAGE_WRITE: Writes image bytes to a slot that is not running. (R726) -/
  | imageWrite (src : MgSrc) (typ slot : BitVec 8) (off : BitVec 32) (data : List Byte)
  /-- IMAGE_SELECT: Chooses the slot to try first at the next boot. (R725) -/
  | imageSelect (src : MgSrc) (typ slot : BitVec 8)
  /-- SET_TIME: Writes the time master's initial cabinet time. (R698) -/
  | setTime (src : MgSrc) (v : BitVec 64)
  /-- SET_DEFINE: Defines, changes or removes an interleave set. (R727) -/
  | setDefine (src : MgSrc) (k : BitVec 8) (valid : Bool) (base : BitVec 32) (m0 m1 m2 : BitVec 64)
  /-- CLAMP_JOIN: Joins a clamp channel to a cabinet barrier group. (R727) -/
  | clampJoin (src : MgSrc) (c : BitVec 8) (cab : Bool) (group : BitVec 8)
  /-- MBX_GO: MGC_MBX_CTL.GO submits the mailbox request as a command. (R728) -/
  | mbxGo (port : Fin 2)
  /-- TELEMETRY_SAMPLE: A scheduled telemetry sample is read, stamped and stored, or missed. (R729) -/
  | telemetrySample (late : Fin 3)
  /-- ERROR_HARVEST: Every 10 ms the tile error counters are read. (R734) -/
  | errorHarvest
  /-- PART_FATAL_SELF_RESET: A part-fatal error holds issue, stages the record and refuses doorbells. (R756) -/
  | partFatalSelfReset
  /-- DOMAIN_RESET_ASSERT: At 100 µs domain resets are asserted and links go down. (R756) -/
  | domainResetAssert
  /-- DOMAIN_RESET_RELEASE: At 500 µs domain resets are released and boot runs with a new incarnation. (R756) -/
  | domainResetRelease
  /-- RESET_NOTICE: A received reset notice makes the sender's new incarnation take effect at once. (R757) -/
  | resetNotice
  /-- ERR_INJECT: ERR_INJECT.GO arms one error injection into the next access of a unit. (R759) -/
  | errInject (ident : BitVec 16) (tile : TileId) (pc : BitVec 8)
  /-- ERROR_RING_RECORD: An error record is written to the partition's ring, or held or dropped. (R747) -/
  | errorRingRecord (p : Fin 128)
  /-- ERROR_RING_ENABLE: Enabling the ring resets TAIL and HEAD and writes the held records. (R749) -/
  | errorRingEnable (p : Fin 128)
  /-- CORRECTED_SUMMARY_WINDOW: At the end of each 1 ms window a corrected-error summary is written. (R748) -/
  | correctedSummaryWindow (log : Bool)
  /-- ERROR_RING_MSIX: The ring's MSI-X message is sent, at most once per 10 µs. (R751) -/
  | errorRingMsix (p : Fin 128)
  /-- REMOTE_STORE_ACK: The acknowledgement of a buffered store to a target other than the tile's own scratchpad returns, so the store counts as drained and a waiting darrive, carrive or FENCE may proceed. (R382) -/
  | remoteStoreAck (t : TileId)
  /-- BLOCK_WRITE_REFUSED: A transfer block's write is refused at its target (private drawer, forbidden target or refused peer), leaving the block uncommitted and failing the descriptor. (R420) -/
  | blockWriteRefused (t : TileId) (ch : Fin 4) (code : Fin 3)
  /-- GRANT_ZEROING_DONE: The zeroing of a released stacked-memory grant completes and the range stops being held. (R619) -/
  | grantZeroingDone
  /-- BM_HELLO_TIMEOUT: The twin's HELLO has not arrived within 100 ms of START, and the start is refused with REASON TIMEOUT. (R656) -/
  | bmHelloTimeout
  /-- MGMT_SRAM_UE: An uncorrectable error in the management controller's SRAM causes a management reset with CAUSE 2. (R701) -/
  | mgmtSramUe
  /-- PERST_DEASSERT: PERSTn_N rises, releasing port n's configuration space from reset and letting the link train. (R465) -/
  | perstDeassert (port : Fin 2)
  /-- PWR_EN_HIGH: PWR_EN rises while the input is in the operating range, allowing the hot-swap switch to close. (R139) -/
  | pwrEnHigh (vin : BitVec 16)
  /-- PORT_PLL_LOCK_LOST: A memory, host or Lenys PLL loses lock, setting its CLK_LOCK_LOST bit and being handled as a fault of that stack, port or link. (R85) -/
  | portPllLockLost (pll : Fin 31)
  deriving DecidableEq, Repr

end Sys2Proof
end

