-- ==== Sys2Proof/Decode.lean ====
section
/-! DEFINITION. spec/opcode_table.json gives no row any bits: a command is named, not encoded. So no word spells a
command (log entry 1, DESIGN CHOICE). -/

namespace Sys2Proof

/-- The command a word of the table's bits spells: no row of the table has bits. -/
def decodeTableWord (_nbits _w : Nat) : Option Instr := none

end Sys2Proof
end

