-- ==== Sys2Proof/Config.lean ====
section
/-! DEFINITION. The values the spec leaves open. Each is a constant without a body: nothing can be proved of its
value, so a claim that holds in the model holds for every value. Each names its log entry. -/

namespace Sys2Proof.Config

/-- A byte the spec leaves undefined (R411, R78 and others), drawn at a free-value index (log entry 5, DESIGN CHOICE). -/
opaque freeByte : Nat → BitVec 8
/-- A 64-bit value the spec leaves undefined, drawn at a free-value index (log entry 5, DESIGN CHOICE). -/
opaque freeWord : Nat → BitVec 64
/-- A number of clock cycles the spec does not fix (how long a stall lasts), at a free-value index (log entry 6, DESIGN CHOICE). -/
opaque freeCycles : Nat → Nat
/-- What a firmware build's routine gives in native mode, within the bounds of R274: build, `vtype`, function code, operand
(R345; log entry 7, DESIGN CHOICE). -/
opaque looseTranscendental : Nat → Nat → Nat → Nat → Nat
/-- The ECDSA P-384 signature of the part's attestation key over a digest (log entry 8, DESIGN CHOICE). -/
opaque attestSignature : Nat → Nat
/-- The content of a certificate chain that the secure engine makes, of any length: kind, index (log entry 8, DESIGN CHOICE). -/
opaque engineBytes : Nat → Nat → List (BitVec 8)
/-- A key share, code, nonce or digest of a known length that the secure engine makes: kind, index (log entry 8, DESIGN CHOICE). -/
opaque engineNum : Nat → Nat → Nat
/-- A byte the reset leaves as it was built: image bytes, fuse bytes that no rule states (log entry 9, DESIGN CHOICE). -/
opaque fusedWord : Nat → BitVec 64
/-- The credits of a virtual channel of a port, less one: channel (R578; log entry 74, DESIGN CHOICE). -/
opaque vcCredits : Nat → Nat
/-- The bank and the row in which a controller places a local offset of a pseudo-channel (R535; log entry 21, DESIGN CHOICE). -/
opaque hbmBank : Nat → Nat
opaque hbmRow : Nat → Nat
/-- Does the ECDSA P-384 signature (second) over header bytes (first) verify under fused signing key (third) (R627; log
entry 8, DESIGN CHOICE)? -/
opaque signatureVerifies : Nat → Nat → Nat → Bool
/-- The form of a field entry that is no repair-list entry in the flash log (log entry 9, DESIGN CHOICE): kind and operands. -/
opaque entryWord : Nat → Nat → Nat → Nat → Nat → BitVec 64
/-- What the fast loop chooses for its actuators where the spec fixes only their order (R98; log entry 23, DESIGN CHOICE): a free index. -/
opaque actuator : Nat → Nat
/-- The reference signature of a kindling quantum in the boot ROM, by engine (R108; log entry 7, DESIGN CHOICE). -/
opaque kindlingReference : Nat → BitVec 64

/-- Where in R76's range the lag of a cabinet-time reading lies: leaf, time (R76; log entry 48, DESIGN CHOICE). -/
opaque timeLag : Nat → Nat → Nat
/-- The tile-rail voltage of a clock step, in mV, within 650 to 900 by its user (R144; log entry 28, DESIGN CHOICE). -/
opaque vtile : Nat → Nat → Nat

end Sys2Proof.Config
end

