-- ==== Sys2Proof/Machine/Bits.lean ====
section
/-! DEFINITION. Bit fields, byte order and sign extension (R6, R7), and counts that saturate (R773). -/

namespace Sys2Proof.Machine
open Sys2Proof

/-- The field `[hi:lo]` of a word, as a number (R6). -/
def fld {n : Nat} (w : BitVec n) (hi lo : Nat) : Nat := (w.toNat >>> lo) % 2 ^ (hi + 1 - lo)

/-- One bit of a word (R6). -/
def bit {n : Nat} (w : BitVec n) (i : Nat) : Bool := w.getLsbD i

/-- The word with field `[hi:lo]` set to a number, the other bits unchanged (R6). -/
def setFld (w : Word) (hi lo v : Nat) : Word :=
  (w &&& ~~~(BitVec.ofNat 64 (2 ^ (hi + 1 - lo) - 1) <<< lo)) |||
    (BitVec.ofNat 64 (v % 2 ^ (hi + 1 - lo)) <<< lo)

/-- The word with one bit set to a Boolean. -/
def setBit (w : Word) (i : Nat) (b : Bool) : Word := setFld w i i (if b then 1 else 0)

/-- A Boolean as a number. -/
def b2n (b : Bool) : Nat := if b then 1 else 0

/-- A saturating count of the width of field `[hi:lo]` goes up by `k` (R773). -/
def incFld (w : Word) (hi lo k : Nat) : Word :=
  setFld w hi lo (min (fld w hi lo + k) (2 ^ (hi + 1 - lo) - 1))

/-- A saturating count of `n` bits (R773). -/
def satAdd (n v k : Nat) : Nat := min (v + k) (2 ^ n - 1)

/-- A count as a field of `n` bits shows it (R773). -/
def cap (n v : Nat) : Nat := min v (2 ^ n - 1)

/-- A 64-bit count goes up by `k` and keeps all ones (R773). -/
def countUp (w : Word) (k : Nat) : Word := BitVec.ofNat 64 (satAdd 64 w.toNat k)

/-- Sign extension of the low `n` bits of a number to 64 bits. -/
def sext64 (n : Nat) (v : Nat) : Word := (BitVec.ofNat n v).signExtend 64

/-- The little-endian bytes of a number, lowest address first (R7). -/
def leBytes : (n : Nat) → Nat → List Byte
  | 0, _ => []
  | n + 1, v => BitVec.ofNat 8 v :: leBytes n (v >>> 8)

/-- The number little-endian bytes spell (R7). -/
def leNat : List Byte → Nat
  | [] => 0
  | b :: r => b.toNat + 256 * leNat r

/-- A number with `n` bytes from byte `off` on replaced. -/
def putBytes (v off n b : Nat) : Nat :=
  v % 2 ^ (8 * off) + (b % 2 ^ (8 * n)) * 2 ^ (8 * off) + (v >>> (8 * (off + n))) * 2 ^ (8 * (off + n))

/-- The two's-complement value of the low `n` bits of a number. -/
def toSigned (n v : Nat) : Int :=
  let m := v % 2 ^ n
  if n ≠ 0 ∧ m ≥ 2 ^ (n - 1) then (m : Int) - 2 ^ n else m

/-- The low `n` bits of an integer. -/
def ofSigned (n : Nat) (i : Int) : Nat := (i % (2 ^ n : Int)).toNat

/-- An element of `w` bits of a wide register, by index (R245). -/
def elem {n : Nat} (x : BitVec n) (w i : Nat) : Nat := (x.toNat >>> (w * i)) % 2 ^ w

/-- A wide register spelled by a function from element index to element, `k` elements of `w` bits (R245). -/
def packElems (w : Nat) : (k : Nat) → (Nat → Nat) → Nat
  | 0, _ => 0
  | k + 1, f => packElems w k f + (f k % 2 ^ w) * 2 ^ (w * k)

/-- The count of leading zero bits of a 64-bit word (R230). -/
def clz64 (w : Word) : Nat := ((List.range 64).takeWhile (fun i => !(bit w (63 - i)))).length
/-- The count of trailing zero bits of a 64-bit word (R230). -/
def ctz64 (w : Word) : Nat := ((List.range 64).takeWhile (fun i => !(bit w i))).length
/-- The count of one bits of a number of `n` bits. -/
def popc (n : Nat) (v : Nat) : Nat := (List.range n).countP (fun i => v.testBit i)

end Sys2Proof.Machine
end

