-- ==== Sys2Proof/Machine/Crypto.lean ====
section
/-! DEFINITION. The checks and digests the spec names: CRC-64 of the stream digests (R658), CRC-32 IEEE 802.3
(R32, R44), SHA-384 of grain records and listed digests (R642, R652). -/

namespace Sys2Proof.Machine
open Sys2Proof

/-- The polynomial of R658. -/
def crc64Poly : Word := 0x42F0E1EBA9EA3693

/-- `n` shift steps of the non-reflected CRC-64. -/
def crc64Bits : (n : Nat) → Word → Word
  | 0, c => c
  | n + 1, c => crc64Bits n (if bit c 63 then (c <<< 1) ^^^ crc64Poly else c <<< 1)

/-- One byte, most significant bit first (R659). -/
def crc64Byte (c : Word) (b : Byte) : Word := crc64Bits 8 (c ^^^ ((b.zeroExtend 64) <<< 56))

/-- The CRC-64 state after some bytes. -/
def crc64 (c : Word) (bs : List Byte) : Word := bs.foldl crc64Byte c

/-- `n` steps of the reflected CRC-32 (IEEE 802.3). -/
def crc32Bits : (n : Nat) → BitVec 32 → BitVec 32
  | 0, c => c
  | n + 1, c => crc32Bits n (if bit c 0 then (c >>> 1) ^^^ 0xEDB88320 else c >>> 1)

/-- CRC-32 of some bytes (R32, R44). -/
def crc32 (bs : List Byte) : BitVec 32 :=
  ~~~(bs.foldl (fun c b => crc32Bits 8 (c ^^^ b.zeroExtend 32)) 0xFFFFFFFF)

/-! ### SHA-384 (FIPS 180-4, which the spec names and does not repeat; log entry 8) -/

/-- The bits of an integer root from bit `k` − 1 down: the largest number above `r` whose `e`-th power does not pass `n`. -/
def rootBits (e n : Nat) : (k : Nat) → (r : Nat) → Nat
  | 0, r => r
  | k + 1, r => rootBits e n k (if (r + 2 ^ k) ^ e ≤ n then r + 2 ^ k else r)

/-- The first 64 bits behind the point of the `e`-th root of a small number. -/
def rootFraction (e p : Nat) : Word := BitVec.ofNat 64 (rootBits e (p * 2 ^ (64 * e)) 69 0)

/-- The first eighty primes. -/
def smallPrimes : List Nat :=
  [2, 3, 5, 7, 11, 13, 17, 19, 23, 29, 31, 37, 41, 43, 47, 53, 59, 61, 67, 71, 73, 79, 83, 89, 97] ++
  [101, 103, 107, 109, 113, 127, 131, 137, 139, 149, 151, 157, 163, 167, 173, 179, 181, 191, 193, 197, 199] ++
  [211, 223, 227, 229, 233, 239, 241, 251, 257, 263, 269, 271, 277, 281, 283, 293] ++
  [307, 311, 313, 317, 331, 337, 347, 349, 353, 359, 367, 373, 379, 383, 389, 397, 401, 409]

/-- What each round adds: cube roots of the eighty primes. -/
def roundAdds : List Word := smallPrimes.map (rootFraction 3)

/-- Where the eight words start: square roots of the ninth to the sixteenth prime. -/
def digestStart : List Word := ((smallPrimes.drop 8).take 8).map (rootFraction 2)

/-- The exclusive or of a word turned right by several amounts. -/
def turned (w : Word) (l : List Nat) : Word := l.foldl (fun x n => x ^^^ w.rotateRight n) 0

/-- Extend a schedule, newest word first, by `n` words. -/
def schedule : (n : Nat) → List Word → List Word
  | 0, l => l
  | n + 1, l =>
    let lo := l.getD 14 0
    let hi := l.getD 1 0
    schedule n ((l.getD 15 0 + (turned lo [1, 8] ^^^ lo >>> 7) + l.getD 6 0 + (turned hi [19, 61] ^^^ hi >>> 6)) :: l)

/-- One round: what it adds and its schedule word come in summed. -/
def digestRound (v : List Word) (kw : Word) : List Word :=
  match v with
  | [a, b, c, d, e, f, g, h] =>
    let into := h + turned e [14, 18, 41] + (g ^^^ (e &&& (f ^^^ g))) + kw
    [into + turned a [28, 34, 39] + ((a &&& b) ||| (c &&& (a ||| b))), a, b, c, d + into, e, f, g]
  | _ => v

/-- The big-endian word of eight bytes. -/
def beWord (bs : List Byte) : Word := BitVec.ofNat 64 (leNat bs.reverse)

/-- The words after one chunk of 128 bytes. -/
def digestChunk (v : List Word) (bs : List Byte) : List Word :=
  let first := ((List.range 16).map (fun i => beWord ((bs.drop (8 * i)).take 8))).reverse
  let sums := List.zipWith (· + ·) roundAdds (schedule 64 first).reverse
  List.zipWith (· + ·) v (sums.foldl digestRound v)

/-- Big-endian bytes of a number. -/
def beBytes (n v : Nat) : List Byte := (leBytes n v).reverse

/-- SHA-384 of some bytes: 48 bytes. The message is closed by a 1 bit and filled up to its length in the last sixteen bytes
of a chunk. -/
def sha384 (bs : List Byte) : List Byte :=
  let chunks := (bs.length + 17 + 127) / 128
  let whole := bs ++ 0x80 :: List.replicate (128 * chunks - 17 - bs.length) 0 ++ beBytes 16 (8 * bs.length)
  let v := (List.range chunks).foldl (fun v i => digestChunk v ((whole.drop (128 * i)).take 128)) digestStart
  (v.take 6).flatMap (fun w => beBytes 8 w.toNat)

end Sys2Proof.Machine
end

