-- ==== Sys2Proof/Machine/SMap.lean ====
section
/-! DEFINITION. Sparse data by key: a list of (key, value) pairs in one canonical form, keys strictly rising and
no entry equal to what an unlisted key reads as. Every memory, register file and table of the part is one. -/

namespace Sys2Proof.Machine

/-- Sparse data by key, plain and comparable. -/
abbrev SMap (α : Type) := List (Nat × α)

/-- What key `k` holds; `d` is what an unlisted key reads as. -/
def mget {α : Type} (d : α) : SMap α → Nat → α
  | [], _ => d
  | (k', v) :: r, k => if k' = k then v else mget d r k

/-- Put a value at a key, keeping the keys rising. -/
def minsert {α : Type} (k : Nat) (v : α) : SMap α → SMap α
  | [] => [(k, v)]
  | (k', v') :: r =>
    if k < k' then (k, v) :: (k', v') :: r
    else if k = k' then (k, v) :: r
    else (k', v') :: minsert k v r

/-- Take a key out. -/
def merase {α : Type} (k : Nat) : SMap α → SMap α
  | [] => []
  | (k', v') :: r => if k' = k then merase k r else (k', v') :: merase k r

/-- Write `v` at `k`: writing what an unlisted key reads as removes the entry. -/
def mset {α : Type} [DecidableEq α] (d : α) (m : SMap α) (k : Nat) (v : α) : SMap α :=
  if v = d then merase k m else minsert k v m

/-- Change what a key holds. -/
def mmod {α : Type} [DecidableEq α] (d : α) (m : SMap α) (k : Nat) (f : α → α) : SMap α :=
  mset d m k (f (mget d m k))

/-- The canonical form: keys strictly rising, no entry equal to the value of an unlisted key. -/
def mwf {α : Type} [DecidableEq α] (d : α) : SMap α → Bool
  | [] => true
  | [(_, v)] => decide (v ≠ d)
  | (k, v) :: (k', v') :: r => decide (v ≠ d) && decide (k < k') && mwf d ((k', v') :: r)

/-- Bytes of a memory from address `a`, lowest first. -/
def mbytes (d : BitVec 8) (m : SMap (BitVec 8)) (a : Nat) : Nat → List (BitVec 8)
  | 0 => []
  | n + 1 => mget d m a :: mbytes d m (a + 1) n

/-- Write bytes at rising addresses from `a`. -/
def mwrite (d : BitVec 8) (m : SMap (BitVec 8)) (a : Nat) : List (BitVec 8) → SMap (BitVec 8)
  | [] => m
  | b :: r => mwrite d (mset d m a b) (a + 1) r

/-- Give every byte of `[a, a + n)` what an unlisted address reads as: zeroing a range takes its entries out. -/
def mclear {α : Type} (m : SMap α) (a n : Nat) : SMap α :=
  m.filter (fun e => decide (e.1 < a) || decide (a + n ≤ e.1))

end Sys2Proof.Machine
end

