-- ==== Sys2Proof/Machine/State.lean ====
section
/-! DEFINITION. Everything the spec gives the machine to hold, as plain data, and the machine right after reset. The
structures follow the chapters; INVENTORY.md lists every field with its rule. -/

namespace Sys2Proof.Machine
open Sys2Proof

/-! ### The scalar core (ch. 5) -/

/-- What a scalar or engine access reaches once its address is device-physical (R760, R762) or host (R436). -/
inductive Target where
  /-- scratchpad of a logical tile: tile, offset (R350) -/
  | scratch (tile off : Nat)
  /-- a dowel: tile, index (R378) -/
  | dowel (tile idx : Nat)
  /-- a tile control block register: tile, offset (R767) -/
  | tcb (tile off : Nat)
  /-- the I/O-die control space: offset (R763) -/
  | io (off : Nat)
  /-- stacked memory: address in the window (R535) -/
  | stacked (a : Nat)
  /-- host memory: 64-bit address (R436) -/
  | host (a : Nat)
  /-- scratchpad of a peer part, for transfers only: slot, partition, rank, offset (R403) -/
  | peer (slot part rank off : Nat)
  /-- the issuing tile's instruction store, for transfers only (R403) -/
  | istore (tile off : Nat)
  deriving DecidableEq, Repr

/-- A pending load write: destination, value, the slot in which it lands (R186, R206). -/
structure PendLoad where
  dst : Nat
  val : Word
  due : Nat
  deriving DecidableEq, Repr

/-- The pending product write: values and the slot in which it lands (R189, R190). -/
structure PendProd where
  plo : Word
  phi : Word
  due : Nat
  deriving DecidableEq, Repr

/-- A store-buffer entry: an access of at most 8 bytes inside one aligned 8-byte unit (R195). -/
structure SbEntry where
  tgt : Target
  n : Nat
  val : Word
  deriving DecidableEq, Repr

/-- A fold record of R659. -/
structure FoldRec where
  typ : Nat
  idx : Nat
  addr : Nat
  val : Word
  deriving DecidableEq, Repr

/-- A scalar load that waits in M for its target (R188): `op` 0 to 6 as R236, 7 `svld.h`, 10 `svld.f`, 8 a `dread`, 9 a `dtest`. -/
structure RemoteLoad where
  op : Nat
  rd : Nat
  /-- the accesses it is made of: target, address the program used, bytes -/
  parts : List (Target × Nat × Nat)
  /-- bytes of the instruction -/
  size : Nat
  /-- the number of the request a `dread` or `dtest` sent (log entry 68) -/
  id : Nat
  deriving DecidableEq, Repr

/-- A `dwait` that has issued and waits (R384, R387): the peer slot and partition if it names one, tile (the rank on a
peer) and index, threshold, predicate, registered or polling, whether it only waits for a checkpoint (R667), and the number
of the wait, which its registration, its polls and their answers carry (R386; log entry 68). -/
structure DwaitRec where
  peer : Option (Nat × Nat)
  tile : Nat
  idx : Nat
  n : Nat
  pd : Nat
  registered : Bool
  ckpt : Bool
  id : Nat
  deriving DecidableEq, Repr

/-- What keeps the core from issuing (R180). -/
inductive CoreWait where
  | none
  /-- a load from another target has not returned (R188) -/
  | load (l : RemoteLoad)
  /-- an access waits for a walk (`false`) or for the service of a page fault (`true`) (R200); `sub` names the half -/
  | xlate (va sub : Nat) (fault : Bool)
  /-- a registered or polling `dwait` (R384) -/
  | dwait (d : DwaitRec)
  deriving DecidableEq, Repr

/-- The delay state in the layout of c16 to c20 (R212). -/
structure Delay where
  ctl : Word
  ld0 : Word
  ld1 : Word
  plo : Word
  phi : Word
  deriving DecidableEq, Repr

/-- The architectural state of a scalar core and its control-block registers (R177, R215). -/
structure CoreSt where
  /-- the next slot to issue in (R179) -/
  slot : Nat
  run : Bool
  halted : Bool
  pc : Word
  g : SMap Word
  /-- p0 to p15; bit 0 is never written (R178) -/
  p : BitVec 16
  plo : Word
  phi : Word
  sv : SMap SvWord
  status : Word
  epc : Word
  cause : Word
  badaddr : Word
  evec : Word
  mscratch0 : Word
  mscratch1 : Word
  ctx : Word
  fcsr : Word
  cycle : Word
  instret : Word
  tcmp : Word
  ien : Word
  ipend : Word
  mbox : Word
  dly : Delay
  halt : Delay
  loads : List PendLoad
  prod : Option PendProd
  sb : List SbEntry
  /-- drained stores whose acknowledgement has not returned (R382) -/
  unacked : List SbEntry
  /-- fetch words in the prefetch queue: address, word, and 0 for a good word, 1 uncorrectable, 2 uncorrectable by
  injection (R182, R213, R759) -/
  pq : List (Nat × Word × Nat)
  /-- the address the queue fetches next -/
  fetchPc : Nat
  wait : CoreWait
  /-- an instruction that has not issued stalls: no interrupt is taken, and a halt waits (R180, R206, R207) -/
  stalled : Bool
  inHandler : Bool
  lastCode : Nat
  accessErr : Bool
  corePc : Word
  stallPartial : Word
  stallOther : Word
  istorePage : Nat
  istoreEcc : Word
  engErr : Word
  cregSel : Word
  deriving DecidableEq, Repr

/-- A delay state with nothing pending (R218). -/
def Delay.empty : Delay := ⟨0, 0, 0, 0, 0⟩

/-- A core after core reset (R218): RUN 0, halted, monitor mode, `tcmp` all ones. -/
def CoreSt.reset : CoreSt where
  slot := 0
  run := false
  halted := true
  pc := 0
  g := []
  p := 0
  plo := 0
  phi := 0
  sv := []
  status := 1
  epc := 0
  cause := 0
  badaddr := 0
  evec := 0
  mscratch0 := 0
  mscratch1 := 0
  ctx := 0
  fcsr := 0
  cycle := 0
  instret := 0
  tcmp := 0xFFFFFFFFFFFFFFFF
  ien := 0
  ipend := 0
  mbox := 0
  dly := .empty
  halt := .empty
  loads := []
  prod := none
  sb := []
  unacked := []
  pq := []
  fetchPc := 0
  wait := .none
  stalled := false
  inHandler := false
  lastCode := 0
  accessErr := false
  corePc := 0
  stallPartial := 0
  stallOther := 0
  istorePage := 0
  istoreEcc := 0
  engErr := 0
  cregSel := 0

/-! ### Digests of bookmatch (ch. 19, R658, R659) -/

/-- The stream digests of a tile: CRC-64 states, the spindle digests, the channel digests, the last stores. -/
structure Digests where
  armed : Bool
  core : Word
  lvu : Word
  me : Word
  te : Word
  spin : SMap Word
  chan : SMap Word
  hist : List FoldRec
  ckpt : Nat
  /-- core checkpoints whose compare has not completed: index, digest, when (R661, R666, R667) -/
  pending : List (Nat × Word × Nat)
  deriving DecidableEq, Repr

/-- The initial value of a CRC-64 state (R658). -/
def crcInit : Word := 0xFFFFFFFFFFFFFFFF

def Digests.reset : Digests :=
  ⟨false, crcInit, crcInit, crcInit, crcInit, [], [], [], 0, []⟩

/-! ### The long-vector unit and the spindles (ch. 7) -/

/-- A queued long-vector instruction with what it captured at issue (R260, R261). -/
structure LvEntry where
  major : Nat
  fn : Nat
  vd : Nat
  va : Nat
  vb : Nat
  vm : Nat
  vl : Nat
  vtype : Nat
  rm : Nat
  a : Word
  b : Word
  user : Bool
  ctx : Nat
  deriving DecidableEq, Repr

/-- The state of a spindle in spindle mode or in its record (R284, R289): RUN is 4, the others as in the record. -/
structure SpinSt where
  pc : Nat
  st : Nat
  cause : Nat
  deriving DecidableEq, Repr

/-- A spindle record that was never written (R290). -/
def SpinSt.reset : SpinSt := ⟨0, 0, 0⟩

/-- The long-vector unit of a tile (R255, R288, R289). -/
structure LvuSt where
  v : SMap LvWord
  vm : SMap LvMask
  vl : Nat
  vtype : Nat
  vcsr : Word
  nlvl : Nat
  queue : List LvEntry
  spin : Bool
  stopped : Bool
  lanes : SMap SpinSt
  sbuf : SMap Byte
  /-- captured at entry (R284): context, user mode, rounding mode; flags accrued so far (R281) -/
  capCtx : Nat
  capUser : Bool
  capRm : Nat
  flags : Nat
  vregSel : Nat
  deriving DecidableEq, Repr

/-- The unit after core reset (R290); `nlvl` holds the partition's level, here that of no partition, 0 (R288). -/
def LvuSt.reset : LvuSt where
  v := []
  vm := []
  vl := 0
  vtype := 3
  vcsr := 0
  nlvl := 0
  queue := []
  spin := false
  stopped := false
  lanes := []
  sbuf := []
  capCtx := 0
  capUser := false
  capRm := 0
  flags := 0
  vregSel := 0

/-! ### The matrix engine (ch. 8) -/

/-- A matrix-engine command with what it captured at issue (R293): kind 0 MMA, 1 MSTORE, 2 MSCALE, 3 MZERO,
4 MZERO_P; `num` is its ISSUED number. -/
structure MeCmd where
  kind : Nat
  a : Word
  b : Word
  c : Word
  acc : Nat
  dw : Bool
  mdwl : Word
  mstride : Word
  mcoarse : Word
  tag : Nat
  user : Bool
  num : BitVec 32
  deriving DecidableEq, Repr

/-- The matrix engine of a tile (R291, R316, R317). Accumulator element (i, j) of a`n` is keyed 1024·n + 32·i + j,
scale-buffer byte (r, b) of SA or SB 8192·side + 256·r + b. -/
structure MeSt where
  acc : SMap (BitVec 32)
  scale : SMap Byte
  mdwl : Word
  mstride : Word
  mcoarse : Word
  issued : BitVec 32
  queue : List MeCmd
  /-- the command that has passed its checks and runs (R309 to R311), with the scratchpad offset of each page it
  touches -/
  run : Option (MeCmd × List (Nat × Nat))
  stats : Word
  sel : Nat
  deriving DecidableEq, Repr

/-- The reset of `mcoarse` (R316): 1.0 for both operands. -/
def mcoarseReset : Word := 0x3F8000003F800000

/-- After core reset (R319). -/
def MeSt.reset : MeSt := ⟨[], [], 0, 0, mcoarseReset, 0, [], none, 0, 0⟩

/-! ### The transfer engines (ch. 12) -/

/-- A submitted descriptor with what it captured (R400): its sixteen words, tag, user mode, ticket. -/
structure TeDesc where
  w : List Word
  tag : Nat
  user : Bool
  ticket : BitVec 32
  deriving DecidableEq, Repr

/-- A block that has passed R408: its number and where the pieces of its source and destination lead, in byte order:
target, address in the form of its kind, bytes. -/
structure TeBlk where
  b : Nat
  src : List (Target × Nat × Nat)
  dst : List (Target × Nat × Nat)
  /-- its source reads have been issued: it is in flight (R410) -/
  asked : Bool
  /-- its bytes have been read and sent, and the CRC of those bytes; it waits for peers' acknowledgements and for host memory
  to show them (R409) -/
  sent : Option Word
  deriving DecidableEq, Repr

/-- A transfer channel (R399, R427): STATE 0 IDLE, 1 RUN, 2 FAULT_WAIT, 3 FAILED, 4 STOPPED. -/
structure TeChan where
  st : Nat
  run : Option TeDesc
  /-- the running descriptor has passed R405 -/
  checked : Bool
  queue : List TeDesc
  done : Nat
  poisoned : Bool
  err : Nat
  fault : Word
  next : BitVec 32
  blks : List TeBlk
  /-- a stop waits for the blocks in flight (R423) -/
  stopping : Bool
  /-- a failure of a block not yet in flight, which counts once the blocks before it have committed (R408): code, address -/
  failAt : Option (Nat × Nat)
  deriving DecidableEq, Repr

/-- After core reset (R428). -/
def TeChan.reset : TeChan := ⟨0, none, false, [], 0, false, 0, 0, 0, [], false, none⟩

/-! ### Drawers (ch. 10) -/

/-- The drawers of a tile and their registers (R350, R367 to R372). -/
structure DrawerSt where
  /-- TCB_DRAWER_OWN0 to 5; reset 0x7 -/
  own : SMap Word
  zeroing : BitVec 6
  zeroRun : Option Nat
  clean : BitVec 6
  reject : Bool
  scrubPasses : BitVec 32
  fault : Word
  ecc : Word
  /-- poison marks by 64-byte word of the scratchpad (R367) -/
  poison : SMap Bool
  /-- corrected errors by word since the partition's last reset (R371) -/
  corr : SMap Nat
  /-- corrected words still to write back (R369) -/
  wbPend : List Nat
  /-- the next word of each bank, and the banks that have finished the present pass (R369) -/
  scrubPos : SMap Nat
  scrubDone : BitVec 24
  deriving DecidableEq, Repr

def DrawerSt.reset : DrawerSt where
  own := []
  zeroing := 0
  zeroRun := none
  clean := 0x3F
  reject := false
  scrubPasses := 0
  fault := 0
  ecc := 0
  poison := []
  corr := []
  wbPend := []
  scrubPos := []
  scrubDone := 0

/-! ### Dowels and the clamp network (ch. 11) -/

/-- A dowel operation on its way: target, operation 0 ARRIVE 1 SET 2 RESET, operand, tags (R388), and for the
completion of a transfer block its channel, ticket and block number (R413). -/
structure DowelMsg where
  src : DowelSrc
  tile : Nat
  idx : Nat
  op : Nat
  v : Nat
  seq : BitVec 32
  build : BitVec 32
  block : Option (Nat × Nat × Nat)
  /-- its place among the messages the part's tiles have sent (R66) -/
  ord : Nat
  deriving DecidableEq, Repr

/-- A registered waiter of a dowel (R384, R387): the waiting tile of this part, or a peer slot and its tile; the
number of the wait. -/
structure DowelWaiter where
  tile : Nat
  idx : Nat
  peer : Option Nat
  src : Nat
  n : Nat
  id : Nat
  deriving DecidableEq, Repr

/-- The dowel and clamp registers of a tile (R396, R398), and whether the last release of a channel was broken. -/
structure DwlSt where
  ovf : Word
  stats : Word
  clampPend : BitVec 16
  clampBroken : BitVec 16
  lastBroken : BitVec 16
  /-- a `cbar` was abandoned after its arrive: it acts as `cwait` when it issues again (R386) -/
  barDone : BitVec 16
  /-- a broken release that this tile, not yet arrived, sees at its next wait (R395) -/
  clampOwed : BitVec 16
  deriving DecidableEq, Repr

def DwlSt.reset : DwlSt := ⟨0, 0, 0, 0, 0, 0, 0⟩

/-- A clamp channel (R397). -/
structure ClampSt where
  part : Nat
  valid : Bool
  cab : Bool
  group : Nat
  gen : Nat
  arrived : Nat
  brokenLast : Bool
  /-- the cabinet arrive of this generation has been sent (R393) -/
  sent : Bool
  deriving DecidableEq, Repr

def ClampSt.reset : ClampSt := ⟨0, false, false, 0, 0, 0, false, false⟩

/-! ### Translation (ch. 13) -/

/-- A cached translation (R443, R444): `lg` is the log2 of the region's size. -/
structure TlbEnt where
  tag : Nat
  seg : Bool
  va : Nat
  lg : Nat
  out : Nat
  host : Bool
  rd : Bool
  wr : Bool
  ex : Bool
  dirty : Bool
  deriving DecidableEq, Repr

/-- The unit whose access waits for a translation. -/
inductive XUnit where
  | core (t : Nat)
  | lvu (t : Nat)
  | spindle (t lane : Nat)
  | me (t : Nat)
  | te (t ch : Nat)
  deriving DecidableEq, Repr

/-- What a waiting access waits for: a walk, the host's allocation of page requests (R452), an outstanding request. -/
inductive XStage where
  | walk
  | alloc
  | req (idx : Nat)
  deriving DecidableEq, Repr

/-- An access that waits for a walk or for a page request. -/
structure XWant where
  unit : XUnit
  tag : Nat
  va : Nat
  write : Bool
  exec : Bool
  cls : Nat
  /-- Success responses its fault has had on this page (R454) -/
  succ : Nat
  /-- where the entry lies that it faulted on (R457) -/
  entry : Nat
  stage : XStage
  deriving DecidableEq, Repr

/-- A walk in progress (R437): the level whose entry is read next and its table. -/
structure Walk where
  unit : XUnit
  leaf : Nat
  tag : Nat
  va : Nat
  level : Nat
  table : Nat
  write : Bool
  exec : Bool
  wOk : Bool
  xOk : Bool
  deriving DecidableEq, Repr

/-- An outstanding page request (R450, R455). -/
structure PageReq where
  port : Nat
  fn : Nat
  tag : Nat
  pasid : Nat
  page : Nat
  write : Bool
  exec : Bool
  idx : Nat
  timedOut : Bool
  /-- the walker's leaf, and where the faulting entry lies, whose line the host line cache watches (R457) -/
  leaf : Nat
  entry : Nat
  deriving DecidableEq, Repr

/-- A queued invalidation (R446): tag, completion dowel, or the ATS request it belongs to. -/
structure InvReq where
  tag : Nat
  den : Bool
  dtile : Nat
  didx : Nat
  ats : Option Nat
  deriving DecidableEq, Repr

/-- A held or served ATS Invalidate Request (R447): function, tags still to queue, tags still to complete. -/
structure AtsReq where
  id : Nat
  port : Nat
  fn : Nat
  toQueue : List Nat
  left : Nat
  deriving DecidableEq, Repr

/-- The translation unit (ch. 13). Context words are keyed 32·n + offset/8, format words 4·f + offset/8. -/
structure XltSt where
  ctx : SMap Word
  fmt : SMap Word
  /-- formats written since the reset (log entry 65) -/
  fmtSet : SMap Bool
  ltlb : SMap (List TlbEnt)
  want : List XWant
  walks : List Walk
  reqs : List PageReq
  invQ : List InvReq
  ats : List AtsReq
  atsId : Nat
  overrun : Bool
  done : BitVec 32
  priTmo : Word
  statsA : Word
  statsB : Word
  priStats : Word
  /-- Stop Markers still to send: tag, port, function, PASID (R458) -/
  stops : List (Nat × Nat × Nat × Nat)
  deriving DecidableEq, Repr

/-- After a power-up or a part-fatal reset (R461): everything cleared, PFN_HI 51, the timeout 100 ms. -/
def XltSt.reset : XltSt where
  ctx := []
  fmt := []
  fmtSet := []
  ltlb := []
  want := []
  walks := []
  reqs := []
  invQ := []
  ats := []
  atsId := 0
  overrun := false
  done := 0
  priTmo := 100
  statsA := 0
  statsB := 0
  priStats := 0
  stops := []

/-! ### Partitions (ch. 18) -/

/-- A partition (R608 to R612, R636): words 0 to 9 of its definition, build number, state. -/
structure PartSt where
  w : SMap Word
  build : BitVec 32
  state : Nat
  valid : Bool
  /-- times of its partition-fatal resets (R754) -/
  fatals : List Nat
  deriving DecidableEq, Repr

def PartSt.reset : PartSt := ⟨[], 0, 0, false, []⟩

/-- The command unit of the PART_ block (R613 to R616): BUSY, PART, CODE, DETAIL, and the word of the command that is in
progress or held. -/
structure PartCmd where
  busy : Bool
  part : Nat
  code : Nat
  detail : Nat
  held : Word
  deriving DecidableEq, Repr

def PartCmd.reset : PartCmd := ⟨false, 0, 0, 0, 0⟩

/-! ### Errors (ch. 22) -/

/-- An error record of R746 before it is laid out in the ring. -/
structure ErrRec where
  part : Option Nat
  index : Nat
  id : Nat
  cls : Nat
  ctx : Option Nat
  queue : Option Nat
  esc : Bool
  summary : Bool
  unit : Nat
  time : Nat
  seq : Nat
  addr : Nat
  detail : Nat
  count : Nat
  deriving DecidableEq, Repr

/-- A partition's error ring (R745, R759). -/
structure RingSt where
  w0 : Word
  w1 : Word
  tail : BitVec 32
  head : BitVec 32
  /-- INDEX of the next record (R747) -/
  index : Nat
  /-- records created and not yet written, in INDEX order; while the ring is disabled at most 16 are held (R749) -/
  queue : List ErrRec
  /-- a record came due while the link was down: records are held until the ring is enabled again (ch. 22, seams) -/
  held : Bool
  /-- a record has been written since the last MSI-X message, and when that was sent (R751) -/
  msiPend : Bool
  msiAt : Option Nat
  /-- occurrences of corrected errors in the present window by 65536·ID + UNIT (R748) -/
  corr : SMap Nat
  deriving DecidableEq, Repr

def RingSt.reset : RingSt := ⟨0, 0, 0, 0, 0, [], false, false, none, []⟩

/-! ### Work queues (ch. 15) -/

/-- The grain work of a work order (R649 to R655): the checked entries of its declaration list, their digests in list
order, and whether a defect makes the record invalid. -/
structure GrainSt where
  /-- entry words of the list as read: four words an entry (R650) -/
  entries : List Word
  digests : SMap (List Byte)
  defect : Bool
  checked : Bool
  /-- a poisoned byte was met in hashing (R655) -/
  poison : Bool
  deriving DecidableEq, Repr

def GrainSt.reset : GrainSt := ⟨[], [], false, false, false⟩

/-- A fetched or dispatched work order (R514, R518). -/
structure WorkOrder where
  seq : Nat
  /-- the sixteen words of the descriptor -/
  d : List Word
  tDisp : Nat
  /-- INDEX of the first record that charged it (R740) -/
  charged : Option Nat
  /-- host-memory lines were lost (R528) -/
  link : Bool
  /-- the partition was reset while it was dispatched -/
  reset : Bool
  grain : GrainSt
  deriving DecidableEq, Repr

/-- An entry of the duplicate window (R516, R517): accepted, complete, duplicates counted, the record proper. -/
structure WinEnt where
  accepted : Bool
  complete : Bool
  dups : Nat
  proper : List Word
  deriving DecidableEq, Repr

def WinEnt.reset : WinEnt := ⟨false, false, 0, []⟩

/-- A completion record that waits for space (R523): DUP, record proper, send MSI-X after it. -/
structure CqRec where
  dup : Bool
  proper : List Word
  irq : Bool
  deriving DecidableEq, Repr

/-- A submission queue (R511, R525, R526). -/
structure WqSt where
  /-- WQ_OWN: VALID, PART, PORT, FUNC -/
  owned : Bool
  part : Nat
  port : Nat
  func : Nat
  en : Bool
  /-- a disable waits for the dispatched work order (R512) -/
  disabling : Bool
  tail : BitVec 32
  head : BitVec 32
  cqTail : BitVec 32
  cqHead : BitVec 32
  ring : Word
  cq : Word
  win : Word
  h : Nat
  code : Nat
  cfgRej : Bool
  refused : Nat
  dups : Nat
  marks : SMap WinEnt
  fetched : List WorkOrder
  disp : Option WorkOrder
  /-- WQ_DONE accepted, status to complete with: the order waits for its grain record or checkpoint (R520, R662) -/
  doneSt : Option Nat
  doneBusy : Bool
  res0 : Word
  res1 : Word
  waiting : List CqRec
  order : List Word
  deriving DecidableEq, Repr

def WqSt.reset : WqSt where
  owned := false
  part := 0
  port := 0
  func := 0
  en := false
  disabling := false
  tail := 0
  head := 0
  cqTail := 0
  cqHead := 0
  ring := 0
  cq := 0
  win := 0
  h := 0
  code := 0
  cfgRej := false
  refused := 0
  dups := 0
  marks := []
  fetched := []
  disp := none
  doneSt := none
  doneBusy := false
  res0 := 0
  res1 := 0
  waiting := []
  order := []

/-! ### The knot map and the floor (ch. 1, ch. 2) -/

/-- A committed or volatile entry of the knot map (R27, R36, R42 to R48). -/
inductive KnotEntry where
  /-- a failed row moves to the spare: column, failed and spare physical row, logical row (R42) -/
  | tileMove (col failed spare lrow : Nat)
  /-- a row dies: column, failed physical row, logical row, and the spare that failed with it (R43, R46) -/
  | tileDead (col failed lrow : Nat) (spare : Option Nat)
  /-- an unused spare failed (R775) -/
  | spareDead (col prow : Nat)
  /-- a repair-list entry (R36) -/
  | repair (w : Word)
  /-- a pseudo-channel is mapped out (R41) -/
  | pcOut (pc : Nat)
  /-- a Lenys entry (R34) -/
  | lane (port : Nat) (e : Nat)
  /-- a transfer-engine channel is folded (R31, R35) -/
  | fold (phys ch : Nat)
  deriving DecidableEq, Repr

/-- A knot map: the five regions of R32. -/
structure KnotMap where
  /-- column entries (R33), keyed leaf × 16 + column -/
  cols : SMap Word
  lny : SMap Nat
  pcOut : SMap Bool
  func : SMap Nat
  repairs : List Word
  deriving DecidableEq, Repr

/-- The column entry of R38: rows 0 to 7 in order, row 8 an unused spare. -/
def colFactory : Word := 0x0000000F76543210
/-- The Lenys entry of R38 with lane 4 held as spare and no failed lane (log entry 16, DESIGN CHOICE). -/
def lnyFactory : Nat := 0x3C

def KnotMap.factory : KnotMap := ⟨[], [], [], [], []⟩

/-- A field tile repair with a spare, in progress (R42, R44). -/
structure RepairJob where
  col : Nat
  failed : Nat
  spare : Nat
  lrow : Nat
  parts : List Nat
  /-- 0 self-test of the spare, 1 flash write, 2 zeroing, 3 flash write of a dead tile's entry, 4 a later failure of the
  column that waits for the first one's entry (R56) -/
  stage : Nat
  deriving DecidableEq, Repr

/-- The part's identity, its knot map and the links out of service. -/
structure KnotSt where
  grade : Nat
  fmax : Nat
  unique : Word
  fac : KnotMap
  field : List KnotEntry
  vol : List KnotEntry
  eff : KnotMap
  gen : Word
  /-- entries whose flash write has not completed (R44) -/
  flashPend : List KnotEntry
  jobs : List RepairJob
  /-- wire or SRAM defects that the full field layer could not take (R48) -/
  unrecorded : Bool
  /-- uncorrectable errors of the last second (R744): unit (a physical tile, or 288 plus a pseudo-channel), word or row, time -/
  unc : List (Nat × Nat × Nat)
  /-- physical tiles that R744 attributes and that are not yet treated as failed -/
  due : List Nat
  /-- the attach links out of service as the last part reset listed them (R64); routing changes timing only -/
  attachOut : List Nat
  deriving DecidableEq, Repr

/-- A part as shipped (R38): FK256-M5, bin 18 (log entry 15, DESIGN CHOICE). -/
def KnotSt.reset : KnotSt where
  grade := 1
  fmax := 72
  unique := 0
  fac := .factory
  field := []
  vol := []
  eff := .factory
  gen := 0
  flashPend := []
  jobs := []
  unrecorded := false
  unc := []
  due := []
  attachOut := []

/-! ### Lenys (ch. 17) -/

/-- A Lenys port (R566 to R575, R603): STATE 0 off, 1 training, 2 up, 3 down, 4 out of service, 5 miswired. -/
structure LPort where
  st : Nat
  gen2 : Bool
  farSlot : Nat
  farPort : Nat
  routeEn : Bool
  gen1Only : Bool
  stats : Word
  /-- SEQ of the next codeword sent, and the codewords not yet covered by an ACK (R571) -/
  txSeq : Nat
  replay : List (Nat × StreamMsg)
  /-- SEQ expected, and whether a retry has been asked for -/
  rxSeq : Nat
  asked : Bool
  /-- replays of one codeword in succession (R572) -/
  again : Nat
  /-- messages that wait for a credit of their channel, and the channel whose turn is next (R578) -/
  outq : List StreamMsg
  rr : Nat
  deriving DecidableEq, Repr

def LPort.reset : LPort := ⟨0, false, 0, 0, true, false, 0, 0, [], 0, false, 0, [], 0⟩

/-- The virtual channels of a link (R578). -/
inductive VChan where
  | mgmt
  | req0
  | req1
  | rsp0
  | rsp1
  | det
  deriving DecidableEq, Repr

/-- A stream to another part (R584, R587): next number, messages not acknowledged, retransmissions without progress,
the destination's incarnation as known. -/
structure LTx where
  next : BitVec 32
  kept : List (BitVec 32 × PeerMsg)
  retries : Nat
  inc : BitVec 32
  /-- the port it leaves by (R580) -/
  path : Option Nat
  deriving DecidableEq, Repr

def LTx.reset : LTx := ⟨1, [], 0, 0, none⟩

/-- A stream from another part (R585): the number expected, the source's incarnation. -/
structure LRx where
  expect : BitVec 32
  inc : BitVec 32
  /-- the refusals among the last 4,096 messages, which an acknowledgement names again (R592): number, 1 LINK, 2 DRAWER -/
  refs : List (BitVec 32 × Nat)
  deriving DecidableEq, Repr

def LRx.reset : LRx := ⟨1, 0, []⟩

/-- A cabinet barrier group (R594 to R596, R606): its member mask, and at the root the members that have arrived. -/
structure LGrp where
  valid : Bool
  m0 : Word
  m1 : Word
  m2 : Word
  m3 : Word
  gen : Nat
  aborts : Nat
  bits : List Nat
  /-- this part has sent an abort and its broken release has not come (R596) -/
  aborting : Bool
  deriving DecidableEq, Repr

def LGrp.reset : LGrp := ⟨false, 0, 0, 0, 0, 0, 0, [], false⟩

/-- The Lenys fabric's state; the routes hold only entries written since the default table was filled. -/
structure LenySt where
  /-- CAB_SLOT[7:0] as strapped, and as read when VMGMT became good (R566) -/
  strap : Nat
  slot : Nat
  cabId : BitVec 32
  inc : BitVec 32
  ports : SMap LPort
  tx : SMap LTx
  /-- stream messages the links have delivered and the end-to-end layer has not handled yet (R571, R585) -/
  inbox : List StreamMsg
  /-- transit messages that no port takes (R581) -/
  held : List StreamMsg
  /-- accepted barrier, management and bookmatch messages that wait for their unit: source slot, message -/
  ctl : List (Nat × PeerMsg)
  rx : SMap LRx
  unreach : SMap Bool
  /-- routes written (R582), by slot -/
  route : SMap (Option Word)
  e2e : Word
  grps : SMap LGrp
  master : Nat
  holdover : Bool
  depth : Nat
  offset : Nat
  deriving DecidableEq, Repr

def LenySt.reset : LenySt where
  strap := 0
  slot := 0
  cabId := 0
  inc := 0
  ports := []
  tx := []
  inbox := []
  held := []
  ctl := []
  rx := []
  unreach := []
  route := []
  e2e := 0
  grps := []
  master := 0
  holdover := false
  depth := 0
  offset := 0

/-! ### The host line cache (ch. 15) -/

/-- A line held (R497, R499): port, line address, state 0 Invalid but locked, 1 Shared, 2 Exclusive, 3 Modified; its
bytes, whether they are poisoned, whether its way is locked. The least recently used comes first. -/
structure HLine where
  port : Nat
  line : Nat
  st : Nat
  data : List Byte
  poison : Bool
  locked : Bool
  deriving DecidableEq, Repr

/-- What an access of host memory belongs to (R482, R496, R502). -/
inductive HostSrc where
  /-- a load or the stores of a core -/
  | load (t : Nat)
  | store (t : Nat)
  /-- the source reads and the writes of a block of a channel -/
  | read (t ch b : Nat)
  | block (t ch b : Nat)
  /-- a walker's read of an entry, its update of one, and its second read of a watched line (R457): leaf, tag, address -/
  | walk (leaf tag addr : Nat)
  | cas (leaf tag addr : Nat)
  | watch (leaf : Nat)
  /-- the descriptor fetch of a queue -/
  | fetch (q : Nat)
  /-- the records a queue writes, with the MSI-X message that follows when they are visible: port, function, vector -/
  | record (q : Nat) (msix : Option (Nat × Nat × Nat)) (n : Nat)
  /-- the records of an error ring -/
  | ring (p : Nat)
  /-- a preload (R506) -/
  | preload
  deriving DecidableEq, Repr

/-- An access that waits for a line (R501, R504): kind 0 read, 1 transfer-engine read, 2 write of a whole line, 3 partial
write or compare-and-swap, 4 preload, 5 locking preload; offset and bytes of a write; what it belongs to and its place in the
order of issue; what a compare-and-swap compares with; whether the bytes are poisoned. -/
structure HWait where
  port : Nat
  line : Nat
  kind : Nat
  off : Nat
  data : List Byte
  src : HostSrc
  ord : Nat
  cmp : Option (List Byte)
  poison : Bool
  deriving DecidableEq, Repr

/-- A line as an access read it: whose access, the line, its bytes and their poison. -/
structure HGot where
  src : HostSrc
  port : Nat
  line : Nat
  data : List Byte
  poison : Bool
  deriving DecidableEq, Repr

/-- The host line cache: accesses issued that have not reached their slice, with the count of accesses issued; lines, lines
with a request outstanding, accesses at their slice in arrival order; what reads have returned; eviction buffers, the preload
in progress (port, next line, lines left, lock), and an armed injection (R759). -/
structure HlcSt where
  inq : List HWait
  ctr : Nat
  got : List HGot
  lines : List HLine
  reqs : List (Nat × Nat)
  wait : List HWait
  evict : List HLine
  preload : Option (Nat × Nat × Nat × Bool)
  inject : Bool
  deriving DecidableEq, Repr

def HlcSt.reset : HlcSt := ⟨[], 0, [], [], [], [], [], none, false⟩

/-! ### The host link (ch. 14) -/

/-- What a function's configuration space holds of the state the rules name (R447, R452, R453, R471, R474, R483, R489,
R769). Where each field lies in configuration space is the PCIe specification's matter. -/
structure FnSt where
  memEn : Bool
  master : Bool
  /-- Enable Relaxed Ordering -/
  relaxed : Bool
  /-- AtomicOp Requester Enable -/
  atomics : Bool
  /-- Completion Timeout Value and Disable -/
  ctoVal : Nat
  ctoDis : Bool
  pasid : Bool
  ats : Bool
  /-- PRI Enable, Outstanding Page Request Allocation, PRI Status: [0] Response Failure -/
  pri : Bool
  priAlloc : Nat
  priRf : Bool
  msixEn : Bool
  msixMask : Bool
  /-- the MSI-X table, two words an entry: address; data and [32] the mask bit -/
  msix : SMap Word
  pba : SMap Bool
  /-- the addresses of BAR0, BAR2 and BAR4, and the log2 of BAR4's size in GiB -/
  bar0 : Word
  bar2 : Word
  bar4 : Word
  bar4lg : Nat
  deriving DecidableEq, Repr

/-- An MSI-X table word at reset: the mask bit of every entry is set (log entry 18, PRESUMED). -/
def msixReset (k : Nat) : Word := if k % 2 = 1 then 0x100000000 else 0

/-- A function's defaults (R474, R490; log entry 18 for the fields the spec states no default of). -/
def FnSt.reset : FnSt where
  memEn := false
  master := false
  relaxed := true
  atomics := false
  ctoVal := 0
  ctoDis := false
  pasid := false
  ats := false
  pri := false
  priAlloc := 0
  priRf := false
  msixEn := false
  msixMask := false
  msix := []
  pba := []
  bar0 := 0
  bar2 := 0
  bar4 := 0
  bar4lg := 8

/-- A host port (R463 to R467, R491 to R494). -/
structure HPort where
  dlUp : Bool
  rate : Nat
  width : Nat
  flit : Bool
  cxl : Nat
  cache : Bool
  /-- PERSTn_N is low -/
  perst : Bool
  /-- when the down timer started (R491) -/
  down : Option Nat
  /-- the line cache's lines of the port were lost when the link went down, and it has not returned (R528) -/
  lost : Bool
  /-- the port drives no lanes: the rails are not up (R465) -/
  linkDis : Bool
  /-- configuration requests are answered (R487, R488) -/
  ready : Bool
  ctl : Word
  stats : Word
  ap : Nat
  hostid : SMap Word
  /-- SR-IOV: VF Enable, VF Memory Space Enable, NumVFs; ARI -/
  vfEn : Bool
  vfMem : Bool
  numVfs : Nat
  ari : Bool
  fns : SMap FnSt
  /-- writes sent that no flush read covers yet, and those that each flush read outstanding covers (R482) -/
  uncov : List HostSrc
  cov : List (List HostSrc)
  deriving DecidableEq, Repr

/-- MGC_HPORTn_CTL after reset (R494): CXL offered, 64 GT/s, 16 lanes. -/
def hportCtlReset : Word := 0x10D

def HPort.reset : HPort where
  dlUp := false
  rate := 0
  width := 0
  flit := false
  cxl := 0
  cache := false
  perst := false
  down := none
  lost := false
  linkDis := true
  ready := false
  ctl := hportCtlReset
  stats := 0
  ap := 0
  hostid := []
  vfEn := false
  vfMem := false
  numVfs := 0
  ari := false
  fns := []
  uncov := []
  cov := []

/-! ### Bookmatch (ch. 19) -/

/-- Bookmatch of the part (R656 to R668): STATE and REASON as DET_BM_STATUS; the twin's HELLO if it has come, when this
part sent its own, whether its READY has been sent; the work-order checkpoint that waits for its counterpart (index,
queue, partition digest, the digests of the ranks, when it was reached), its index, and counterparts that came early
(kind, rank, index, digests). -/
structure BmSt where
  part : Nat
  twinPart : Nat
  st : Nat
  reason : Nat
  hello : Option (List Word)
  sentAt : Nat
  readySent : Bool
  woDone : BitVec 32
  wo : Nat
  woPend : List (Nat × Nat × Word × List Word × Nat)
  early : List (Nat × List Word)
  /-- the twin's incarnation when this part armed (R668) -/
  inc : BitVec 32
  deriving DecidableEq, Repr

def BmSt.reset : BmSt := ⟨0, 0, 0, 0, none, 0, false, 0, 0, [], [], 0⟩

/-! ### The management controller (ch. 18, ch. 21) -/

/-- A log record (R708): stream, sequence number, payload of 8 to 240 bytes. -/
structure LogRec where
  stream : Nat
  seq : Nat
  payload : List Word
  deriving DecidableEq, Repr

/-- A sector of the log store (R708): its erase count, the order of its allocation (0: erased and not allocated), its
records. -/
structure Sector where
  erases : Nat
  sseq : Nat
  recs : List LogRec
  deriving DecidableEq, Repr

/-- An SPDM session (R634): identifier, whether FINISH has been accepted, key updates. -/
structure SpdmSess where
  id : Nat
  open_ : Bool
  updates : Nat
  deriving DecidableEq, Repr

/-- The responder state of a transport (R632): what has been negotiated, and the sessions. -/
structure SpdmSt where
  /-- 0 nothing, 1 version, 2 capabilities, 3 algorithms -/
  stage : Nat
  sess : List SpdmSess
  nextId : Nat
  deriving DecidableEq, Repr

def SpdmSt.reset : SpdmSt := ⟨0, [], 1⟩

/-- The management controller: boot, images, fuses, measurements, flash, interfaces, telemetry. -/
structure MgmtSt where
  /-- MGC_BOOT (R735) -/
  stage : Nat
  mfSlot : Nat
  tmSlot : Nat
  bistFail : Nat
  readyUs : Nat
  /-- self-test of the present boot: 0 not begun, 1 running, 2 done; the boot stops at BIST (R758) -/
  bist : Nat
  bootStop : Bool
  /-- when the START of the present boot was accepted -/
  startAt : Nat
  /-- MGC_MRESET -/
  resets : Nat
  cause : Nat
  /-- the firmware that runs: version and SVN (R627, R642) -/
  mfVersion : BitVec 32
  mfSvn : Nat
  /-- the tile monitor image that was verified (R628) -/
  tmOk : Bool
  tmSvn : Nat
  tmBody : List Byte
  /-- fuses: revoked signing keys, anti-rollback counters of types 1 and 2 (R627, R629) -/
  revoked : BitVec 4
  roll1 : Nat
  roll2 : Nat
  /-- the slot tried first at the next boot, by type (R725) -/
  sel1 : Nat
  sel2 : Nat
  bootCount : Nat
  /-- the attestation log: index, digest or content, slot and SVN (R630) -/
  meas : List (Nat × List Byte × Nat)
  /-- the attestation key has been derived (R715) -/
  attest : Bool
  /-- the image partition of the flash; an erased byte reads 0xFF (R706) -/
  flash : SMap Byte
  /-- the image written in recovery (R714) -/
  sram : SMap Byte
  /-- the log store: 50 sectors, and the next sequence number of each stream (R706 to R712) -/
  sectors : List Sector
  seqs : SMap Nat
  dropped : Nat
  wearWarn : Bool
  /-- the dynamic address of I3C interfaces A and B, 0 while there is none (R721); EIDs assigned on PCIe by port (R722) -/
  i3c : SMap Nat
  eid : SMap Nat
  /-- the mailbox (R728) -/
  mbxReq : SMap Byte
  mbxRsp : SMap Byte
  mbxBusy : Bool
  mbxDone : Bool
  mbxStatus : Nat
  /-- telemetry samples, oldest first, and the SEQ of the next (R729, R730) -/
  tlm : List (List Word)
  tlmSeq : Nat
  /-- the number of the telemetry slot taken last (R729) -/
  tlmSlot : Option Nat
  spdm : SMap SpdmSt
  deriving DecidableEq, Repr

/-- An erased sector. -/
def Sector.blank : Sector := ⟨0, 0, []⟩

/-- The management controller before VMGMT first comes up: nothing in flash, no fuse blown (log entry 20, DESIGN CHOICE). -/
def MgmtSt.reset : MgmtSt where
  stage := 0
  mfSlot := 0
  tmSlot := 0
  bistFail := 0
  readyUs := 0
  bist := 0
  bootStop := false
  startAt := 0
  resets := 0
  cause := 0
  mfVersion := 0
  mfSvn := 0
  tmOk := false
  tmSvn := 0
  tmBody := []
  revoked := 0
  roll1 := 0
  roll2 := 0
  sel1 := 0
  sel2 := 0
  bootCount := 0
  meas := []
  attest := false
  flash := []
  sram := []
  sectors := List.replicate 50 Sector.blank
  seqs := []
  dropped := 0
  wearWarn := false
  i3c := []
  eid := []
  mbxReq := []
  mbxRsp := []
  mbxBusy := false
  mbxDone := false
  mbxStatus := 0
  tlm := []
  tlmSeq := 0
  tlmSlot := none
  spdm := []

/-! ### Stacked memory (ch. 16) -/

/-- A write of a tile on its way to a pseudo-channel's queue (R539): the tile, the address, the bytes. -/
structure HbmReq where
  tile : Nat
  addr : Nat
  data : List Byte
  deriving DecidableEq, Repr

/-- The memory controllers: writes that have not been accepted; by pseudo-channel, the accepted writes that have not been
issued, command slots counted, scrub position and passes; by stack, POWERED, TRAINED, INIT, refresh rate and temperature;
corrected errors by row; failing rows, the copies that run, the remaps not yet permanent; corrected units to write back;
armed injections. -/
structure HbmSt where
  inq : List HbmReq
  queue : SMap (List Nat)
  slots : SMap Nat
  /-- a refresh took the guaranteed slot of patrol scrub (R542) -/
  scrubDue : SMap Bool
  scrubPos : SMap Nat
  scrubPass : SMap Nat
  wb : List (Nat × Nat)
  powered : SMap Bool
  trained : SMap Bool
  init : SMap Bool
  rate : SMap Nat
  temp : SMap Nat
  /-- by stack since when its temperature has stayed 3 °C below the threshold (R548) -/
  cool : SMap (Option Nat)
  rowCorr : SMap Nat
  rowsBad : List (Nat × Nat × Nat)
  copying : List (Nat × Nat × Nat)
  unmade : List (Nat × Nat × Nat)
  inject : List Nat
  deriving DecidableEq, Repr

def HbmSt.reset : HbmSt := ⟨[], [], [], [], [], [], [], [], [], [], [], [], [], [], [], [], [], []⟩

/-! ### Clocks, Kiln and power (ch. 2 to ch. 4) -/

/-- The clock generators (R80, R81): by leaf the tile clock in 25 MHz units, a step asked for, a step in progress; CLK_LOCK
and CLK_LOCK_LOST. -/
structure ClkSt where
  freq : SMap Nat
  want : SMap (Option Nat)
  step : SMap Bool
  /-- by leaf the latest cabinet time a tile can have read before its clock last changed (R76) -/
  seen : SMap Nat
  lock : Word
  lost : Word
  deriving DecidableEq, Repr

def ClkSt.reset : ClkSt := ⟨[], [], [], [], 0, 0⟩

/-- An accepted epoch message (R93, R94): flags [0] START, [1] STOP_OK, [2] RESUME, [3] SHED_CLEAR. -/
structure KMsg where
  epoch : Nat
  cords : Nat
  slew : Nat
  flags : Nat
  late : Bool
  deriving DecidableEq, Repr

/-- A ramp of the ceiling: target (180 W or above), slope in mW/ms as declared or ordered, whether it goes on to Cold, and the
level it has reached: each ramp keeps its own, and the ceiling is the lower (R110, R113, R133; log entry 26, DESIGN CHOICE). -/
structure Ramp where
  target : Nat
  slope : Nat
  cold : Bool
  level : Nat
  deriving DecidableEq, Repr

/-- Kiln (R91 to R132). Powers are in units of 10 µW, so that a slope of 1 mW/ms is one unit a tick. -/
structure KilnSt where
  p : Nat
  c : Nat
  f : Nat
  h : Nat
  limit : Nat
  /-- an epoch has begun whose boundary has not been acted on -/
  due : Bool
  cords : Nat
  slew : Nat
  /-- the shadow registers (R94) -/
  shadow : Option KMsg
  term : BitVec 32
  msgs : List KMsg
  /-- silent epochs counted, whether the present one is counted, silent state (R115) -/
  missed : Nat
  counted : Bool
  silent : Bool
  /-- GO of KILN_BANK for the next tick boundary: TARGET, SLOPE (R109) -/
  bankGo : Option (Nat × Nat)
  bank : Option Ramp
  /-- the last work order has completed and banking to Cold waits for STOP_OK (R111) -/
  drained : Bool
  shed : Option Ramp
  cap : Option Nat
  /-- the last shed executed: identifier, target in W, slope -/
  shedId : Option Nat
  shedW : Nat
  shedSlope : Nat
  /-- kindling power, actuators by leaf: m of the ME throttle less 16 (R99); droop guard -/
  kind : Nat
  kindTiles : Nat
  thrCut : SMap Nat
  /-- the fast loop has set its actuators since the reset; KILN_ACT reads 0 until then (R127) -/
  acted : Bool
  /-- P of the last nine ticks, the latest first (R92) -/
  recent : List Nat
  droop : Bool
  short : Bool
  shortNow : Bool
  /-- P over the epoch: sum, highest, lowest, ticks -/
  sum : Nat
  hi : Nat
  lo : Nat
  ticks : Nat
  /-- the level report that has not been sent (R97): its two body words and its epoch -/
  report : Option (Nat × Word × Word)
  /-- by leaf, 0.25 °C; a thermal cap is descending -/
  temp : SMap Nat
  capping : Bool
  /-- quanta that run: tile, engine (0 matrix, 1 long vector); physical tiles with a mismatch outstanding (R104, R108) -/
  quanta : List (Nat × Nat)
  bad : List Nat
  /-- KILN_FREQ_REQ, and the requests as the slow loop loaded them last (R101, R125) -/
  freqReq : Word
  freqLoad : Word
  bankReg : Word
  kindFail : Word
  stats : Word
  kindEn : Bool
  deriving DecidableEq, Repr

/-- KILN_ after a power-up from Cold or a part-fatal self-reset (R121 to R132, R770): held level 180 W. -/
def KilnSt.reset : KilnSt where
  p := 0
  c := 0
  f := 0
  h := 0
  limit := 118000000
  due := false
  cords := 0
  slew := 2500
  shadow := none
  term := 0
  msgs := []
  missed := 0
  counted := false
  silent := false
  bankGo := none
  bank := none
  drained := false
  shed := none
  cap := none
  shedId := none
  shedW := 0
  shedSlope := 0
  kind := 0
  kindTiles := 0
  thrCut := []
  acted := false
  recent := []
  droop := false
  short := false
  shortNow := false
  sum := 0
  hi := 0
  lo := 0
  ticks := 0
  report := none
  temp := []
  capping := false
  quanta := []
  bad := []
  freqReq := 0x4848
  freqLoad := 0x4848
  bankReg := 0
  kindFail := 0
  stats := 0
  kindEn := true

/-- A rail (R173): state 0 off, 1 soft-start, 2 good, 3 discharging, 4 faulted off; voltage in mV, current in 0.1 A. -/
structure RailSt where
  st : Nat
  mv : Nat
  ma : Nat
  deriving DecidableEq, Repr

/-- A function (R157 to R159): state as PWR_FUNC_STATE, pending request, latched off, retries used, and whether it waits the
1 s before its next retry. -/
structure FuncSt where
  st : Nat
  pend : Option Bool
  latch : Bool
  tries : Nat
  wait : Bool
  deriving DecidableEq, Repr

def FuncSt.reset : FuncSt := ⟨0, none, false, 0, false⟩

/-- The inrush stage, the sequencer, the rails, the functions and the always-on log (ch. 4). -/
structure PwrSt where
  /-- the input is in the operating range; PWR_EN is high -/
  inRange : Bool
  pwrEn : Bool
  /-- INPUT of PWR_STATUS -/
  input : Nat
  vin : Nat
  iin : Nat
  exc : Nat
  /-- 0 switch open, 1 node rising, 2 IB charging, 3 VMGMT ramping, 4 up (R139) -/
  inrush : Nat
  tries : Nat
  inrushLatch : Bool
  /-- VMGMT is good; the rail, VMGMT or the IB, that left its range while the part was up, not yet logged (R156) -/
  vmgmt : Bool
  mgmtLost : Option Nat
  /-- SEQ, ATTEMPT, LATCHED, START_PENDING of PWR_STATUS -/
  seq : Nat
  attempt : Nat
  latched : Bool
  startPend : Bool
  /-- the 50 ms after the last main rail was down have not passed (R154) -/
  offRun : Bool
  /-- power-up: 0 rails, 1 PLLs lock, 2 the draw rises to 180 W; the 100 µs before the next enable run -/
  phase : Nat
  nextDue : Bool
  /-- rails are being taken down; one failed to discharge -/
  downing : Bool
  disch : Bool
  rails : SMap RailSt
  funcs : SMap FuncSt
  /-- PWR_FAULT -/
  fault : Word
  logSeq : Nat
  lost : Nat
  staged : List (List Word)
  thermtrip : Bool
  deriving DecidableEq, Repr

/-- A rail that is off. -/
def RailSt.off : RailSt := ⟨0, 0, 0⟩

def PwrSt.reset : PwrSt where
  inRange := false
  pwrEn := false
  input := 0
  vin := 0
  iin := 0
  exc := 0
  inrush := 0
  tries := 0
  inrushLatch := false
  vmgmt := false
  mgmtLost := none
  seq := 0
  attempt := 0
  latched := false
  startPend := false
  offRun := false
  phase := 0
  nextDue := false
  downing := false
  disch := false
  rails := []
  funcs := []
  fault := 0
  logSeq := 0
  lost := 0
  staged := []
  thermtrip := false

/-- Part-fatal errors (R756 to R759): 0 none, 1 the part is freezing, 2 domain resets are asserted; what was found;
ERR_LAST_FATAL; the times of the self-resets in the last 10 s. -/
structure FatalSt where
  phase : Nat
  id : Nat
  unit : Nat
  last : Word
  times : List Nat
  deriving DecidableEq, Repr

def FatalSt.reset : FatalSt := ⟨0, 0, 0, 0, []⟩

/-! ### The cabinet managers (ch. 20) -/

/-- What a manager knows of a part from its level reports (R688, R694): the epoch reported, H(e) and H(e + 1) in 0.125 W,
P averaged, highest and lowest, cords spent, shortfall; the cords granted for the last epoch computed and for the one
before it, the SLEW; whether the report of the last epoch is missing. -/
structure FluePart where
  epoch : Nat
  h : Nat
  hNext : Nat
  avg : Nat
  hi : Nat
  lo : Nat
  spent : Nat
  short : Nat
  cords : Nat
  prev : Nat
  slew : Nat
  missing : Bool
  deriving DecidableEq, Repr

def FluePart.reset : FluePart := ⟨0, 0, 0, 0, 0, 0, 0, 0, 0, 0, 0, false⟩

/-- A cabinet manager (R682 to R697): active; its term and the highest it has seen; the up budget in mW; the last shed
identifier; the contract: S in W/ms, ENVELOPE and FIXED in W, the values that take effect at the next boundary; the epoch
it works on; what it knows of the parts; slots whose START is charged; shelves lost; when a heartbeat last came, in ns. -/
structure FlueMgr where
  active : Bool
  term : BitVec 32
  seen : BitVec 32
  budget : Int
  shedId : BitVec 32
  slewS : Nat
  envelope : Nat
  confEnv : Nat
  fixed : Nat
  newS : Option Nat
  newEnv : Option Nat
  newFixed : Option Nat
  epoch : Nat
  parts : SMap FluePart
  starting : List Nat
  shelves : Nat
  lastHb : Nat
  deriving DecidableEq, Repr

/-- A manager before its first message: the default contract (R690), the balance at its capacity (R692). (log entry 40, DESIGN CHOICE) -/
def FlueMgr.reset : FlueMgr where
  active := false
  term := 0
  seen := 0
  budget := 200000
  shedId := 0
  slewS := 40
  envelope := 310000
  confEnv := 310000
  fixed := 16000
  newS := none
  newEnv := none
  newFixed := none
  epoch := 0
  parts := []
  starting := []
  shelves := 0
  lastHb := 0

/-- The two managers; A is active first (R682, log entry 22, DESIGN CHOICE). -/
structure FlueSt where
  a : FlueMgr
  b : FlueMgr
  deriving DecidableEq, Repr

def FlueSt.reset : FlueSt := ⟨{ FlueMgr.reset with active := true }, FlueMgr.reset⟩

/-! ### What the part sends out -/

/-- A message the part sends to the host, to another part, to the managers or to a requester (log entry 4, DESIGN CHOICE). -/
inductive Msg where
  /-- a write to host memory: port, address, data, first 8-byte words -/
  | hostWrite (port : Nat) (addr : Nat) (data : List Word)
  /-- bytes written to host memory by a tile: with the poison indication (R486), with Relaxed Ordering (R483) -/
  | hostBytes (port : Nat) (addr : Nat) (data : List Byte) (poison relaxed : Bool)
  /-- an atomic compare-and-swap of a table entry: port, address, old, new (R439) -/
  | hostCas (port addr : Nat) (old new : Word)
  /-- a read of host memory: port, address, bytes -/
  | hostRead (port : Nat) (addr n : Nat)
  /-- an MSI-X message: port, function, vector -/
  | msix (port fn vec : Nat)
  /-- an answer to a host request -/
  | hostReply (data : List Byte) (poison : Bool)
  /-- a host read refused with Unsupported Request (R485): port -/
  | hostUr (port : Nat)
  /-- a configuration answer: 0 done, 1 Request Retry Status -/
  | cfgReply (code : Nat) (v : Nat)
  | pageRequest (port fn pasid page idx : Nat) (write exec : Bool)
  | stopMarker (port fn pasid : Nat)
  | invCompletion (port fn id : Nat)
  /-- an AER error: port, function, kind, header words -/
  | aer (port fn kind : Nat) (hdr : List Word)
  | drs (port : Nat)
  /-- a stream message that leaves by a port, on a virtual channel, in a codeword with its SEQ and ACK (R570, R578, R584) -/
  | lenys (port : Nat) (vc : VChan) (seq ack : Nat) (m : StreamMsg)
  /-- a cumulative acknowledgement to a slot with the refusals among the messages it covers (R586, R592), or a refusal
  naming the current incarnation (R589) -/
  | lenysAck (slot : Nat) (seq : BitVec 32) (refs : List (BitVec 32 × Nat)) (inc : BitVec 32) (stale : Bool)
  /-- a link-layer message of a Lenys port: port, kind, value -/
  | lenysLink (port kind v : Nat)
  /-- a CXL.cache request or answer: port, kind, address -/
  | cxl (port kind addr : Nat) (data : List Word)
  /-- a vendor-defined management message: destination, class, words -/
  | mctp (dst cls : Nat) (data : List Word)
  | spdm (transport code : Nat) (data : List Byte)
  | twin (kind : Nat) (data : List Word)
  | flue (kind : Nat) (data : List Word)
  /-- a change of an output ball: 0 PWRGD, 1 FAULT_N, 2 THERMTRIP_N -/
  | ball (which level : Nat)
  deriving DecidableEq, Repr

/-- A request through a BAR that waits: for a drawer being zeroed (R363), or for a write of its requester before it (R479,
R480). -/
structure BarReq where
  port : Nat
  fn : Nat
  req : Nat
  bar : Nat
  off : Nat
  n : Nat
  /-- the bytes of a write and its EP bit; none for a read -/
  data : Option (List Byte × Bool)
  deriving DecidableEq, Repr

/-! ### A tile -/

/-- A drained store on its way to another tile's transfer port (R365, R366). -/
structure PortReq where
  src : Nat
  dst : Nat
  off : Nat
  n : Nat
  val : Word
  /-- its place among the messages the part's tiles have sent (R66) -/
  ord : Nat
  deriving DecidableEq, Repr

/-- What kindling keeps at a physical tile, which no program reaches (R103): what quanta have left in the 64 KiB kindling store
by byte, in the matrix engine's kindling accumulator and in the long-vector unit's kindling lane buffer. The reference
signatures the store holds from boot ROM are Config.kindlingReference. -/
structure KindSt where
  store : SMap Byte
  acc : SMap (BitVec 32)
  lane : SMap Word
  deriving DecidableEq, Repr

def KindSt.reset : KindSt := ⟨[], [], []⟩

/-- Everything a logical tile holds. -/
structure Tile where
  core : CoreSt
  lvu : LvuSt
  dig : Digests
  dr : DrawerSt
  dwl : DwlSt
  me : MeSt
  te : SMap TeChan
  /-- TCB_TE_STATS and TCB_TE_FILTER (R427) -/
  teStats : Word
  teDiscarded : Nat
  /-- the completion filter, least recently used first: source tile, channel, ticket, highest block (R413) -/
  teFilter : List (Nat × Nat × Nat × Nat)
  /-- the partition it belongs to, plus one; 0 for none (R608) -/
  member : Nat
  istore : SMap Byte
  /-- units of the instruction store written with an uncorrectable check (R421) -/
  istPoison : SMap Bool
  spad : SMap Byte
  utlb : List TlbEnt
  /-- armed error injections by identifier (R759) -/
  inject : List Nat
  deriving DecidableEq, Repr

def Tile.reset : Tile where
  core := .reset
  lvu := .reset
  dig := .reset
  dr := .reset
  dwl := .reset
  me := .reset
  te := []
  teStats := 0
  teDiscarded := 0
  teFilter := []
  member := 0
  istore := []
  istPoison := []
  spad := []
  utlb := []
  inject := []

/-! ### The machine -/

/-- Why the machine stops. -/
inductive Fault where
  /-- No meaning raises it: the spec stops the block nowhere (safe). -/
  | none
  deriving DecidableEq, Repr

/-- Why a command has no meaning. -/
inductive Refusal where
  /-- raised by the dispatch for a command the model does not reach yet (safe) -/
  | notModelled (mnemonic : String)
  deriving DecidableEq, Repr

/-- The part: everything the spec gives it. -/
structure Dev where
  /-- the index of the next free value (the model's own, log entry 5, DESIGN CHOICE) -/
  freeCtr : Nat
  /-- the cabinet time counter in ns (R598) -/
  time : Nat
  /-- cabinet time is valid (R600) -/
  timeValid : Bool
  /-- management uptime in ns (R162) -/
  uptime : Nat
  tiles : SMap Tile
  /-- by physical tile (R103) -/
  kindle : SMap KindSt
  /-- the registers of the I/O-die control space that no other field holds, by offset (R763) -/
  io : SMap Word
  dowels : SMap Word
  waiters : List DowelWaiter
  dops : List DowelMsg
  /-- wake messages on their way: tile, number of the wait, and whether it completes or is broken (R384, R385) -/
  wakes : List (Nat × Nat × Bool)
  /-- the number of the next wait or dowel request (log entry 68) -/
  reqCtr : Nat
  /-- how many messages the tiles have sent (R66) -/
  sent : Nat
  /-- sequence numbers of the sources of dowel operations (R388) -/
  dseq : SMap (BitVec 32)
  clamps : SMap ClampSt
  mesh : List PortReq
  parts : SMap PartSt
  partCmd : PartCmd
  /-- partitions stopped and cleared that wait to be rebuilt until the management firmware has verified a tile monitor
  again, with the partition-fatal error that stopped them, or 0 (R617, R705, R753) -/
  rebuild : List (Nat × Nat)
  /-- released grants that are being zeroed: set, address, bytes (R619) -/
  zeroing : List (Nat × Nat × Nat)
  hports : SMap HPort
  /-- requests through a BAR that wait, in order of arrival (R363, R479, R480) -/
  barq : List BarReq
  /-- MGC_HOST_CTL.CTRL_PORT (R473) -/
  ctrlPort : Nat
  xlt : XltSt
  knots : KnotSt
  lny : LenySt
  /-- issue is held in every engine (R146, R147, R756) -/
  hold : Bool
  /-- banking or a shed to Cold has begun: doorbells are refused with COLD (R111, R113, R513) -/
  coldRefuse : Bool
  hlc : HlcSt
  bm : BmSt
  wqs : SMap WqSt
  /-- part-fatal errors found and not yet acted on (identifier, unit) (R736, R756) -/
  fatal : List (Nat × Nat)
  rings : SMap RingSt
  /-- occurrences of corrected errors in the present 100 ms by 65536·ID + UNIT, for the management log (R748) -/
  corrLog : SMap Nat
  /-- records for the management log that its writer has not taken yet (R748, R750) -/
  logPend : List ErrRec
  mgmt : MgmtSt
  hbm : HbmSt
  clk : ClkSt
  kiln : KilnSt
  pwr : PwrSt
  pf : FatalSt
  /-- the stacked memory by pseudo-channel and local offset (`stackKey`), its poisoned units by that key over 64 (R533) -/
  stack : SMap Byte
  stackPoison : SMap Bool
  out : List Msg
  deriving DecidableEq, Repr

/-- The part right after reset. (log entry 11, DESIGN CHOICE) -/
def Dev.reset : Dev where
  freeCtr := 0
  time := 0
  timeValid := false
  uptime := 0
  tiles := []
  kindle := []
  io := []
  dowels := []
  waiters := []
  dops := []
  wakes := []
  reqCtr := 0
  sent := 0
  dseq := []
  clamps := []
  mesh := []
  parts := []
  partCmd := .reset
  rebuild := []
  zeroing := []
  hports := []
  barq := []
  ctrlPort := 0
  xlt := .reset
  knots := .reset
  lny := .reset
  hold := false
  coldRefuse := false
  hlc := .reset
  bm := .reset
  wqs := []
  fatal := []
  rings := []
  corrLog := []
  logPend := []
  mgmt := .reset
  hbm := .reset
  clk := .reset
  kiln := .reset
  pwr := .reset
  pf := .reset
  stack := []
  stackPoison := []
  out := []

/-- The machine: the commands that wait, first in first out; the part; the two cabinet managers, which are no part of it
(R682). -/
structure State where
  pending : List Instr
  dev : Dev
  flue : FlueSt
  deriving DecidableEq, Repr

/-- The machine right after reset: no command waits. -/
def State.reset : State where
  pending := []
  dev := .reset
  flue := .reset

end Sys2Proof.Machine
end

