-- ==== Sys2Proof/Machine/Ops.lean ====
section
/-! DEFINITION. The named operations every scalar instruction is made of: registers (R178), folding (R659), the
exposed latencies (R186 to R192), issue (R179 to R185), taking an exception and returning (R205, R206). -/

namespace Sys2Proof.Machine
open Sys2Proof

/-! ### Tiles -/

/-- A logical tile's state. (log entry 10, DESIGN CHOICE) -/
def tileOf (s : Dev) (t : Nat) : Tile := mget Tile.reset s.tiles t
/-- Write a logical tile's state. -/
def setTile (s : Dev) (t : Nat) (x : Tile) : Dev := { s with tiles := mset Tile.reset s.tiles t x }
/-- Change a logical tile's state. -/
def modTile (s : Dev) (t : Nat) (f : Tile → Tile) : Dev := setTile s t (f (tileOf s t))
/-- Draw a free value index: the counter moves on (log entry 5, DESIGN CHOICE). -/
def drawFree (s : Dev) : Dev := { s with freeCtr := s.freeCtr + 1 }

/-- Is the core in user mode (R202)? -/
def isUser (t : Tile) : Bool := !(bit t.core.status 0)

/-! ### Clocks (R76, R81) -/

/-- Change the clock tree's state. -/
def modClk (s : Dev) (f : ClkSt → ClkSt) : Dev := { s with clk := f s.clk }

/-- A PLL locks, or is switched off, which is no loss of lock (R81). -/
def setLock (s : Dev) (i : Nat) (on : Bool) : Dev := modClk s (fun c => { c with lock := setBit c.lock i on })

/-! ### Cabinet time as a tile reads it (R76) -/

/-- What a tile clock domain sees of cabinet time: at least 2 Tr old and less than 3 Tr + 1 ns, and never less than what
it has shown before. Tr is 40 / f ns at a clock of f times 25 MHz, and the lag within the range is open (log entry 48,
DESIGN CHOICE). -/
def timeSeen (s : Dev) (leaf : Nat) : Nat :=
  let f := max 1 (mget 32 s.clk.freq leaf)
  let lo := (80 + f - 1) / f
  let hi := (120 + f + f - 1) / f
  max (mget 0 s.clk.seen leaf) (s.time - (lo + Config.timeLag leaf s.time % max 1 (hi - lo)))

/-- `ctime` as a tile reads it: 0 until the part's cabinet time is valid (R209, R76). -/
def ctimeOf (s : Dev) (t : Nat) : Nat := if s.timeValid then timeSeen s (t / 128) else 0

/-- Cabinet time is loaded: what the domains showed before holds no longer. -/
def loadTime (s : Dev) (v : Nat) : Dev := modClk { s with time := v, timeValid := true } (fun c => { c with seen := [] })

/-! ### Folding (R658, R659) -/

/-- The 16 bytes of a fold record. -/
def foldBytes (r : FoldRec) : List Byte :=
  BitVec.ofNat 8 r.typ :: BitVec.ofNat 8 r.idx :: (leBytes 6 r.addr ++ leBytes 8 r.val.toNat)

/-- Fold a record into the core's digest: only while armed and in user mode. -/
def foldCore (t : Tile) (typ idx addr : Nat) (v : Word) : Tile :=
  if t.dig.armed && isUser t then
    { t with dig := { t.dig with core := crc64 t.dig.core (foldBytes ⟨typ, idx, addr, v⟩) } }
  else t

/-- Keep a store's record among the last 64 (R664). -/
def keepStore (d : Digests) (r : FoldRec) : Digests := { d with hist := (d.hist ++ [r]).drop (d.hist.length + 1 - 64) }

/-- Fold a scalar store's record: core stream, and the list of the last stores. -/
def foldStore (t : Tile) (mask addr : Nat) (v : Word) : Tile :=
  if t.dig.armed && isUser t then
    let r : FoldRec := ⟨5, mask, addr, v⟩
    { t with dig := keepStore { t.dig with core := crc64 t.dig.core (foldBytes r) } r }
  else t

/-! ### Registers (R178) -/

/-- Read a g register: g0 reads zero. -/
def getG (t : Tile) (r : Nat) : Word := if r = 0 then 0 else mget 0 t.core.g r

/-- Write a g register: a write to g0 is discarded and folds nothing. -/
def setG (t : Tile) (r : Nat) (v : Word) : Tile :=
  if r = 0 then t
  else foldCore { t with core := { t.core with g := mset 0 t.core.g r v } } 1 r 0 v

/-- Read a predicate: p0 reads true. -/
def getP (t : Tile) (p : Nat) : Bool := p == 0 || bit t.core.p p

/-- Write a predicate: a write to p0 is discarded and folds nothing. -/
def setP (t : Tile) (p : Nat) (b : Bool) : Tile :=
  if p = 0 then t
  else
    let m : BitVec 16 := (1 : BitVec 16) <<< p
    foldCore { t with core := { t.core with p := if b then t.core.p ||| m else t.core.p &&& ~~~m } }
      2 p 0 (if b then 1 else 0)

/-- Read a short-vector register. -/
def getSv (t : Tile) (v : Nat) : SvWord := mget 0 t.core.sv v

/-- Fold one record per chunk written, from chunk `k` on (R659 TYPE 4). -/
def foldSv (t : Tile) (v : Nat) (x : SvWord) : (n : Nat) → (k : Nat) → Tile
  | 0, _ => t
  | n + 1, k => foldSv (foldCore t 4 v k (BitVec.ofNat 64 (elem x 64 k))) v x n (k + 1)

/-- Write a short-vector register at a width: `.h` leaves bits [511:256] as they were (R245). -/
def setSv (t : Tile) (v : Nat) (full : Bool) (x : Nat) : Tile :=
  let old := getSv t v
  let new : SvWord := if full then BitVec.ofNat 512 x
    else ((old >>> 256) <<< 256) ||| (BitVec.ofNat 256 x).zeroExtend 512
  foldSv { t with core := { t.core with sv := mset 0 t.core.sv v new } } v new (if full then 8 else 4) 0

/-- Accrue flags into `fcsr` (R211, R242). -/
def accrueF (t : Tile) (flags : Nat) : Tile :=
  { t with core := { t.core with fcsr := t.core.fcsr ||| BitVec.ofNat 64 (flags * 8) } }

/-- The scalar rounding mode (R211). -/
def rmOf (t : Tile) : Nat := fld t.core.fcsr 2 0

/-! ### Pending writes (R186 to R192) -/

/-- Land the pending loads that are due at a slot, oldest first. -/
def landLoads : List PendLoad → Nat → Tile → Tile
  | [], _, t => t
  | l :: r, slot, t => landLoads r slot (if l.due ≤ slot then setG t l.dst l.val else t)

/-- Land the pending product if it is due. -/
def landProd (t : Tile) (slot : Nat) : Tile :=
  match t.core.prod with
  | none => t
  | some p =>
    if p.due ≤ slot then { t with core := { t.core with plo := p.plo, phi := p.phi, prod := none } } else t

/-- Every write due by the core's slot lands. -/
def landDue (t : Tile) : Tile :=
  let t1 := landLoads t.core.loads t.core.slot t
  let t2 : Tile := { t1 with core := { t1.core with loads := t1.core.loads.filter (fun l => decide (t.core.slot < l.due)) } }
  landProd t2 t.core.slot

/-- A load issued in slot `s` becomes pending: it lands in slot `s + 3` (R186). -/
def pendLoad (t : Tile) (dst : Nat) (v : Word) : Tile :=
  { t with core := { t.core with loads := t.core.loads ++ [⟨dst, v, t.core.slot + 3⟩] } }

/-- A multiply or divide started in this slot cancels the one in flight (R190) and lands `l` slots later (R189). -/
def pendProd (t : Tile) (plo phi : Word) (l : Nat) : Tile :=
  { t with core := { t.core with prod := some ⟨plo, phi, t.core.slot + l⟩ } }

/-! ### The delay state (R206, R212) -/

/-- One load of a frozen delay state as bits of `dly_ctl`. -/
def dlyLoadBits (base slot : Nat) (l : PendLoad) : Word :=
  setFld (setFld (setFld 0 base base 1) (base + 5) (base + 1) l.dst) (base + 7) (base + 6) (l.due - slot)

/-- The pending writes in the layout of c16 to c20: load 0 is the older. -/
def freezeDelay (t : Tile) : Delay :=
  let sl := t.core.slot
  let l0 := t.core.loads[0]?
  let l1 := t.core.loads[1]?
  let c0 : Word := match l0 with | some l => dlyLoadBits 0 sl l | none => 0
  let c1 : Word := match l1 with | some l => dlyLoadBits 8 sl l | none => 0
  let c2 : Word := match t.core.prod with
    | some p => setFld (setFld 0 16 16 1) 22 17 (p.due - sl)
    | none => 0
  { ctl := c0 ||| c1 ||| c2
    ld0 := (l0.map (·.val)).getD 0
    ld1 := (l1.map (·.val)).getD 0
    plo := (t.core.prod.map (·.plo)).getD 0
    phi := (t.core.prod.map (·.phi)).getD 0 }

/-- The pending loads a delay state spells, at a slot: a count above 2 acts as 2 (R212). -/
def thawLoads (d : Delay) (slot : Nat) : List PendLoad :=
  (if bit d.ctl 0 then [⟨fld d.ctl 5 1, d.ld0, slot + min 2 (fld d.ctl 7 6)⟩] else []) ++
  (if bit d.ctl 8 then [⟨fld d.ctl 13 9, d.ld1, slot + min 2 (fld d.ctl 15 14)⟩] else [])

/-- The pending product a delay state spells: a count above 33 acts as 33 (R212). -/
def thawProd (d : Delay) (slot : Nat) : Option PendProd :=
  if bit d.ctl 16 then some ⟨d.plo, d.phi, slot + min 33 (fld d.ctl 22 17)⟩ else none

/-- Every pending write lands at once (R205 step 1). -/
def landAll (t : Tile) : Tile :=
  let t1 := t.core.loads.foldl (fun x l => setG x l.dst l.val) t
  let t2 : Tile := { t1 with core := { t1.core with loads := [] } }
  match t2.core.prod with
  | none => t2
  | some p => { t2 with core := { t2.core with plo := p.plo, phi := p.phi, prod := none } }

/-! ### Instruction flow -/

/-- The instructions fetched are thrown away and fetching goes on at an address (R183). -/
def redirect (c : CoreSt) (pc : Word) : CoreSt :=
  { c with pc := pc, pq := [], fetchPc := pc.toNat / 8 * 8 }

/-- Slots pass: every one is a tile cycle (R179). -/
def passSlots (c : CoreSt) (n : Nat) : CoreSt := { c with slot := c.slot + n, cycle := countUp c.cycle n }

/-- The fetch words an advance leaves behind leave the queue (R182). -/
def dropFetched (c : CoreSt) : CoreSt := { c with pq := c.pq.filter (fun e => decide (c.pc.toNat < e.1 + 8)) }

/-- An instruction of `size` bytes and occupancy `occ` is done (R221). -/
def advance (t : Tile) (size occ : Nat) : Tile :=
  let c := passSlots t.core occ
  { t with core := dropFetched { c with pc := c.pc + BitVec.ofNat 64 size, instret := countUp c.instret 1, stalled := false } }

/-- A taken branch: three bubbles, the target issues in the fourth slot (R183). -/
def takeBranch (t : Tile) (target : Word) : Tile :=
  let c := passSlots t.core 4
  { t with core := redirect { c with instret := countUp c.instret 1, stalled := false } target }

/-- Does the cause write `badaddr` (R205 step 2)? -/
def hasBadaddr (code : Nat) : Bool := code == 5 || code == 6 || code == 7 || code == 8

/-- Taking an exception or interrupt (R205): `epc` is written, then `cause` and `badaddr`, the mode and the
interrupt enable are saved and set, the delay state is frozen into c16 to c20, and fetching goes on at the handler. The
entry takes 6 tile cycles and no slot. -/
def enterException (t : Tile) (code sub : Nat) (bad : Word) : Tile :=
  let c := t.core
  let st : Word := setBit (setBit (setBit (setBit c.status 2 (bit c.status 0)) 3 (bit c.status 1)) 0 true) 1 false
  let c1 : CoreSt := { c with
    epc := c.pc
    cause := BitVec.ofNat 64 (code % 256 + 256 * (sub % 256))
    badaddr := if hasBadaddr code then bad else c.badaddr
    status := st
    dly := freezeDelay t
    loads := []
    prod := none
    wait := .none
    stalled := false
    inHandler := true
    cycle := countUp c.cycle 6
    lastCode := code }
  { t with core := redirect c1 (c.evec + (if code = 0x10 then 0x40 else 0)) }

/-- Returning (R205): the handler's own pending writes complete, mode and enable are restored, the frozen delay state
is loaded, fetching goes on at `epc`. It takes 4 tile cycles and no slot. -/
def returnException (t : Tile) : Tile :=
  let t1 := landAll t
  let c := t1.core
  let c1 : CoreSt := { c with
    status := setBit (setBit c.status 0 (bit c.status 2)) 1 (bit c.status 3)
    loads := thawLoads c.dly c.slot
    prod := thawProd c.dly c.slot
    inHandler := false
    stalled := false
    cycle := countUp c.cycle 4 }
  { t1 with core := redirect c1 c.epc }

/-- Halting (R206): the delay state goes into the halt copy, TCB_CORE_PC names where to resume. -/
def haltCore (t : Tile) : Tile :=
  let t1 := landDue t
  let c := t1.core
  { t1 with core := { c with
      run := false
      halted := true
      halt := freezeDelay t1
      loads := []
      prod := none
      wait := .none
      stalled := false
      pq := []
      corePc := BitVec.ofNat 64 (fld c.pc 16 0) } }

/-- Resuming (R206, R215): the halt copy is reloaded and the core goes on at TCB_CORE_PC. -/
def resumeCore (t : Tile) : Tile :=
  let c := t.core
  { t with core := redirect { c with
      run := true
      halted := false
      loads := thawLoads c.halt c.slot
      prod := thawProd c.halt c.slot
      halt := .empty } c.corePc }

/-- A core whose RUN was cleared while it waited or stalled halts at the slot boundary that follows (R206, R215). -/
def settle (s : Dev) (t : Nat) : Dev :=
  let x := tileOf s t
  if !x.core.run && !x.core.halted && decide (x.core.wait = .none) && !x.core.stalled then setTile s t (haltCore x) else s

/-- Is the guard true (R184)? -/
def guardOf (t : Tile) (g : Guard) : Bool := getP t g.pred.val != g.neg

/-- Is a buffered store a write of the tile's own drawer ownership, which the next instruction waits for (R358)? -/
def isOwnWrite (e : SbEntry) : Bool :=
  match e.tgt with | .tcb _ o => decide (0x700 ≤ o) && decide (o < 0x730) | _ => false

/-- Is the core able to issue (R180, R215, R358)? An instruction that stalled issues although RUN has become 0 since: the
halt comes after it (R206). -/
def canIssue (t : Tile) : Bool :=
  (t.core.run || t.core.stalled) && !t.core.halted && decide (t.core.wait = .none) && !(t.core.sb.any isOwnWrite)

/-- Does the fetch word at `pc` hold an uncorrectable error (R213)? -/
def fetchBad (c : CoreSt) : Bool := c.pq.any (fun e => e.1 == c.pc.toNat / 8 * 8 && e.2.2 != 0)
/-- Was it injected (R759)? -/
def fetchInjected (c : CoreSt) : Bool := c.pq.any (fun e => e.1 == c.pc.toNat / 8 * 8 && e.2.2 == 2)

/-- How an instruction's own work ends. -/
inductive Res where
  /-- done: the other state, the tile, the occupancy -/
  | done (s : Dev) (t : Tile) (occ : Nat)
  /-- a taken branch -/
  | jump (s : Dev) (t : Tile) (target : Word)
  /-- a return: the tile is complete as it stands -/
  | raw (s : Dev) (t : Tile)
  /-- an exception: code, sub, bad address -/
  | exc (code sub : Nat) (bad : Word)
  /-- a stall: the instruction has not issued and the same command issues it later (R180) -/
  | stall (s : Dev) (t : Tile)

/-- The exceptions found in D before any work, in the order IFETCH, ISTORE_UE, IALIGN, ILLEGAL (R204, R213, R182). -/
def fetchFault (t : Tile) (size : Nat) (illegal : Bool) : Option Nat :=
  if 0x20000 ≤ t.core.pc.toNat then some 4
  else if fetchBad t.core then some 12
  else if size = 8 ∧ t.core.pc.toNat % 8 = 4 then some 3
  else if illegal then some 1
  else none

/-- Have all earlier scalar stores drained (R199, R382)? -/
def storesDrained (t : Tile) : Bool := t.core.sb.isEmpty && t.core.unacked.isEmpty

/-- The answer of a command that acts on the part alone: the next state; the managers and the queue stay. -/
def onDev (sys : State) (f : Dev → Dev) : Host.Outcome State Fault Refusal := .next { sys with dev := f sys.dev }

end Sys2Proof.Machine
end

