-- ==== Sys2Proof/Machine/Raise.lean ====
section
/-! DEFINITION. How the part records an error of any class (R736 to R751): the counters, the charging of work orders,
the record and its INDEX, the partition's ring and the management log. -/

namespace Sys2Proof.Machine
open Sys2Proof

/-- The offset of ERR_COUNT in the I/O-die control space (R766). -/
def regErrCount : Nat := 0x0E0000

/-- Read a register that is plainly stored (R763). -/
def ioGet (s : Dev) (off : Nat) : Word := mget 0 s.io off
/-- Write a register that is plainly stored. -/
def ioSet (s : Dev) (off : Nat) (v : Word) : Dev := { s with io := mset 0 s.io off v }
/-- A count of such a register goes up, saturating (R773). -/
def ioInc (s : Dev) (off hi lo k : Nat) : Dev := ioSet s off (incFld (ioGet s off) hi lo k)

/-- Send a message out of the part. (log entry 4, DESIGN CHOICE) -/
def send (s : Dev) (m : Msg) : Dev := { s with out := s.out ++ [m] }

/-- The context a work order runs in (R514). -/
def woCtx (w : WorkOrder) : Nat := fld (w.d.getD 1 0) 7 0

/-- The mark of an error charged to every context of a partition, as poison stored in a grant is (R739). -/
def anyCtx : Nat := 256

/-- Is a queue's dispatched work order charged by an error of this partition and context (R739)? -/
def chargedBy (q : WqSt) (part : Nat) (ctx : Option Nat) : Bool :=
  match q.disp, ctx with
  | some w, some c => q.owned && decide (q.part = part) && (decide (c = anyCtx) || decide (woCtx w = c))
  | _, _ => false

/-- Charge the dispatched work orders of a context: each keeps the INDEX of the first record (R740). -/
def chargeQueues (wqs : SMap WqSt) (part : Nat) (ctx : Option Nat) (index : Nat) : SMap WqSt :=
  wqs.map (fun e =>
    if chargedBy e.2 part ctx then
      (e.1, { e.2 with disp := e.2.disp.map (fun w => { w with charged := some (w.charged.getD index) }) })
    else e)

/-- The queues of a partition in ascending order (R511). -/
def queuesOf (s : Dev) (part : Nat) : List Nat :=
  (s.wqs.filter (fun e => e.2.owned && decide (e.2.part = part))).map (·.1)

/-- The index of a queue within its function (R511). -/
def queueIndex (s : Dev) (part q : Nat) : Nat := ((queuesOf s part).takeWhile (fun x => decide (x ≠ q))).length

/-- A ring takes a record created now: its INDEX is taken whether or not it is written (R747). -/
def ringPush (r : RingSt) (e : ErrRec) : RingSt :=
  let r1 := { r with index := r.index + 1 }
  if (!(bit r.w1 0) || r.held) && decide (16 ≤ r.queue.length) then { r1 with w1 := incFld r1.w1 47 32 1 }
  else { r1 with queue := r1.queue ++ [{ e with index := r.index }] }

/-- Of the records that wait, 16 are held; the later ones are dropped and counted (R749). -/
def ringHold (r : RingSt) : RingSt :=
  { r with queue := r.queue.take 16, w1 := incFld r.w1 47 32 (r.queue.length - 16) }
/-- EN of a ring is cleared. -/
def ringOff (r : RingSt) : RingSt := { ringHold r with held := false, w1 := setBit (ringHold r).w1 0 false }

/-- Change a partition's ring. -/
def modRing (s : Dev) (p : Nat) (f : RingSt → RingSt) : Dev := { s with rings := mmod RingSt.reset s.rings p f }

/-- The field of ERR_COUNT a class counts in (R759). -/
def countClass (s : Dev) (cls : Nat) : Dev :=
  match cls with
  | 0 => ioInc s regErrCount 15 0 1
  | 1 => ioInc s regErrCount 31 16 1
  | 2 => ioInc s regErrCount 47 32 1
  | 4 => ioInc s regErrCount 63 48 1
  | _ => s

/-- A time stamp (R162): cabinet time in ns when it is known, else management uptime in µs with bit 63 set. -/
def stamp (s : Dev) : Nat := if s.timeValid then s.time else 2 ^ 63 + s.uptime / 1000

/-- The time the background slots follow: cabinet time, or management uptime until it is valid (R729, R732). -/
def slotTime (s : Dev) : Nat := if s.timeValid then s.time else s.uptime

/-- The class the catalogue gives an identifier (R742); none for an identifier that is not in it (R743). -/
def catClass (id : Nat) : Option Nat :=
  if [0x1001, 0x1004, 0x1006, 0x1101, 0x1102, 0x2001, 0x3001, 0x3002, 0x3004, 0x5001, 0x5004, 0x6001, 0x6002, 0x6003, 0x8001].contains id then some 0
  else if [0x1002, 0x1003, 0x1005, 0x1007, 0x1008, 0x1009, 0x100A, 0x100B, 0x2002, 0x2003, 0x2004, 0x3003, 0x3006, 0x4001, 0x5002, 0x5003,
    0x6005, 0x9001, 0x9004].contains id then some 1
  else if [0x100C, 0x100D, 0x100E, 0x2005, 0xA002].contains id then some 2
  else if [0x1103, 0x3005, 0x5006, 0x7001, 0x7002, 0x7003, 0x8002].contains id then some 3
  else if [0x2006, 0x2007, 0x5005, 0x6004, 0x6006, 0x9002, 0x9003, 0xA001].contains id then some 4
  else none

/-- FLAGS.ESC (R738): the record's class is higher than the one its source has, since containment could not be carried out. -/
def escOf (id cls : Nat) : Bool := decide (cls ≤ 3) && (match catClass id with | some c => decide (c < cls) | none => false)

/-- Record an error or a notice (R736, R739, R747, R748, R750): partition if it concerns one, identifier, class,
unit, the context of the access if any, address and detail. (log entry 54, DEDUCED) -/
def raiseErr (s : Dev) (part : Option Nat) (id cls unit : Nat) (ctx : Option Nat) (addr detail : Nat) : Dev :=
  let s0 := countClass s cls
  let s1 := if cls = 3 then { s0 with fatal := s0.fatal ++ [(id, unit)] } else s0
  let key := 65536 * id + unit
  match part, cls with
  | some p, 0 => modRing { s1 with corrLog := mmod 0 s1.corrLog key (· + 1) } p (fun r => { r with corr := mmod 0 r.corr key (· + 1) })
  | none, 0 => { s1 with corrLog := mmod 0 s1.corrLog key (· + 1) }
  | some p, _ =>
    let idx := (mget RingSt.reset s.rings p).index
    let charged := s.wqs.find? (fun e => cls == 1 && chargedBy e.2 p ctx)
    let rec0 : ErrRec := { part := some p, index := idx, id := id, cls := cls, ctx := if ctx = some anyCtx then (charged.bind (fun e => e.2.disp)).map woCtx else ctx
                           queue := charged.map (fun e => queueIndex s p e.1), esc := escOf id cls, summary := false
                           unit := unit, time := stamp s
                           seq := ((charged.bind (fun e => e.2.disp)).map (·.seq)).getD 0
                           addr := addr, detail := detail, count := 1 }
    let s2 := modRing s1 p (fun r => ringPush r rec0)
    { s2 with
      wqs := if cls = 1 then chargeQueues s2.wqs p ctx idx else s2.wqs
      logPend := s2.logPend ++ [rec0] }
  | none, _ =>
    { s1 with logPend := s1.logPend ++ [⟨none, 0, id, cls, ctx, none, escOf id cls, false, unit, stamp s, 0, addr, detail, 1⟩] }

/-- A record of a partition that goes to the management log only (ch. 22, seams). -/
def logOnly (s : Dev) (p id cls unit detail : Nat) : Dev :=
  let s1 := countClass s cls
  { s1 with logPend := s1.logPend ++ [⟨some p, (mget RingSt.reset s.rings p).index, id, cls, none, none, escOf id cls, false, unit, stamp s, 0, 0, detail, 1⟩] }

/-- The partition a tile belongs to (R608). -/
def partOf (x : Tile) : Option Nat := if x.member = 0 then none else some (x.member - 1)

/-- Record an error of a tile, under the context its access runs in. -/
def tileErr (s : Dev) (t id cls : Nat) (ctx : Option Nat) (addr detail : Nat) : Dev :=
  raiseErr s (partOf (tileOf s t)) id cls t ctx addr detail

/-- The context a core's access or instruction runs under, for charging: its `ctx` tag, in either mode (R739; log entry 62, DEDUCED). -/
def coreCtx (x : Tile) : Option Nat := some (fld x.core.ctx 7 0)

/-- A host access that was refused is a notice (R742, ID 0x2006). -/
def hostRefused (s : Dev) (part : Option Nat) (port addr : Nat) : Dev := raiseErr s part 0x2006 4 port none addr 0

end Sys2Proof.Machine
end

