-- ==== Sys2Proof/Machine/Peer.lean ====
section
/-! DEFINITION. Sending to another part (R576 to R591): slots on the torus, routes, the streams of the end-to-end
layer, and peer bindings. -/

namespace Sys2Proof.Machine
open Sys2Proof

/-- The coordinates of a slot (R576): dimension 0 x, 1 y, 2 z. -/
def slotCoord (d s : Nat) : Nat := match d with | 0 => s / 64 % 4 | 1 => s / 8 % 8 | _ => s % 8
/-- The ring size of a dimension. -/
def ringSize (d : Nat) : Nat := if d = 0 then 4 else 8

/-- The first port of the direction from slot `a` to `b` in a dimension (R567, R579). -/
def dirPort (d a b : Nat) : Option Nat :=
  let n := ringSize d
  let ca := slotCoord d a
  let k := (slotCoord d b + n - ca) % n
  if k = 0 then none
  else
    let plus := decide (2 * k < n) || (decide (2 * k = n) && decide (ca % 2 = 0))
    some (4 * d + (if plus then 0 else 2))

/-- The default route of a slot (R579, R580, R606). -/
def routeDefault (a b : Nat) : Word :=
  match (List.range 3).findSome? (fun d => dirPort d a b) with
  | some p => setBit (setFld (setFld 0 3 0 p) 7 4 (p + 1)) 8 true
  | none => 0

/-- LNY_ROUTEd (R606). -/
def routeOf (s : Dev) (d : Nat) : Word := (mget none s.lny.route d).getD (routeDefault s.lny.slot d)

/-- A Lenys port. -/
def lportOf (s : Dev) (p : Nat) : LPort := mget LPort.reset s.lny.ports p
/-- Change a Lenys port. -/
def modLport (s : Dev) (p : Nat) (f : LPort → LPort) : Dev :=
  { s with lny := { s.lny with ports := mmod LPort.reset s.lny.ports p f } }
/-- Is a port in routing (R583)? -/
def inRouting (s : Dev) (p : Nat) : Bool := let q := lportOf s p; q.st == 2 && q.routeEn

/-- The ports a stream between two slots may leave this part by, in the order of R580; when both are out of routing, the
reversed direction of the same ring (R581). -/
def hopPorts (s : Dev) (src d : Nat) : List Nat :=
  let r := routeOf s d
  let p := fld r 3 0
  let q := fld r 7 4
  let own := (if (src + d) % 2 = 0 then [p, q] else [q, p]).filter (inRouting s)
  if own.isEmpty && decide (p < 12) then
    let b := (p / 2 * 2) ^^^ 2
    (if (src + d) % 2 = 0 then [b, b + 1] else [b + 1, b]).filter (inRouting s)
  else own

/-- Is a slot marked unreachable (R588)? -/
def isUnreach (s : Dev) (d : Nat) : Bool := mget false s.lny.unreach d
/-- May a message be sent to a slot (R588)? -/
def reachable (s : Dev) (d : Nat) : Bool := bit (routeOf s d) 8 && !(isUnreach s d)

/-- The stream to a slot. -/
def ltxOf (s : Dev) (d : Nat) : LTx := mget LTx.reset s.lny.tx d
/-- Write the stream to a slot. -/
def setLtx (s : Dev) (d : Nat) (t : LTx) : Dev := { s with lny := { s.lny with tx := mset LTx.reset s.lny.tx d t } }

/-- The virtual channel of a message (R578, R581): detoured traffic; the management channel; requests or responses, before and
after a wrap. -/
def vchanOf (m : StreamMsg) : VChan :=
  if m.det.isSome then .det
  else match m.m with
    | .mctp .. | .buildNotice .. | .resetNotice .. => .mgmt
    | .dowelAnswer .. | .readReply .. | .barrier 1 .. | .barrier 2 .. => if m.crossed then .rsp1 else .rsp0
    | _ => if m.crossed then .req1 else .req0

/-- The number of a virtual channel. -/
def vchanNum : VChan → Nat
  | .mgmt => 0
  | .req0 => 1
  | .req1 => 2
  | .rsp0 => 3
  | .rsp1 => 4
  | .det => 5

/-- May a port send on a channel: a credit of it is left and the replay buffer of 256 codewords has room? A message holds its
credit until the far end's ACK covers it (R571, R578; log entry 74, DESIGN CHOICE). -/
def hasCredit (q : LPort) (v : VChan) : Bool :=
  decide (q.replay.countP (fun e => vchanOf e.2 == v) < Config.vcCredits (vchanNum v) + 1) && decide (q.replay.length < 256)

/-- The ACK of a port's codewords: the SEQ of the last one received in order (R570). -/
def ackNow (q : LPort) : Nat := (q.rxSeq + 1023) % 1024

/-- A message leaves by a port, as one codeword, and is kept for replay (R571). -/
def transmit (s : Dev) (p : Nat) (m : StreamMsg) : Dev :=
  modLport (send s (.lenys p (vchanOf m) (lportOf s p).txSeq (ackNow (lportOf s p)) m)) p (fun q => { q with replay := q.replay ++ [(q.txSeq, m)], txSeq := (q.txSeq + 1) % 1024 })

/-- A message leaves by a port, or waits behind those of its own channel for a credit (R578). -/
def linkSend (s : Dev) (p : Nat) (m : StreamMsg) : Dev :=
  let q := lportOf s p
  if hasCredit q (vchanOf m) && !(q.outq.any (fun w => vchanOf w == vchanOf m)) then transmit s p m
  else modLport s p (fun q => { q with outq := q.outq ++ [m] })

/-- The channels in the order a port serves them: MGMT first, the others in turn from number `rr` (R578). -/
def vchanTurn (rr : Nat) : List VChan :=
  let l : List VChan := [.req0, .req1, .rsp0, .rsp1, .det]
  .mgmt :: (l.drop (rr % 5) ++ l.take (rr % 5))

/-- The message a port sends next of those that wait. -/
def nextOut (q : LPort) : Option StreamMsg :=
  (vchanTurn q.rr).findSome? (fun v => if hasCredit q v then q.outq.find? (fun m => vchanOf m == v) else none)

/-- Send what waits at a port and has a credit. -/
def drainLink : (n : Nat) → Dev → (p : Nat) → Dev
  | 0, s, _ => s
  | n + 1, s, p =>
    match nextOut (lportOf s p) with
    | some m =>
      let k := vchanNum (vchanOf m)
      drainLink n (transmit (modLport s p (fun q => { q with outq := q.outq.erase m, rr := if k = 0 then q.rr else k })) p m) p
    | none => s

/-- Does a port of this part lead over the wrap of a ring (R578)? -/
def wraps (slot p : Nat) : Bool :=
  decide (p < 12) && slotCoord (p / 4) slot == (if p % 4 < 2 then ringSize (p / 4) - 1 else 0)

/-- The ports of a direction in the order a stream uses them (R567, R580). -/
def dirPorts (src dst d : Nat) (plus : Bool) : List Nat :=
  let b := 4 * d + (if plus then 0 else 2)
  if (src + dst) % 2 = 0 then [b, b + 1] else [b + 1, b]

/-- The port a message takes next and how it then travels, if any port takes it (R579 to R582, R657): bookmatch traffic a twin
port in routing; any other by its route, or detoured round the ring where both ports of its direction are out of routing; a detoured message keeps its direction until it has
completed the dimension. -/
def hopPick (s : Dev) (m : StreamMsg) : Option (Nat × StreamMsg) :=
  let plain (m : StreamMsg) : Option (Nat × StreamMsg) :=
    let r := routeOf s m.dst
    match hopPorts s m.src m.dst with
    | p :: _ => some (p, if fld r 3 0 = p ∨ fld r 7 4 = p then m else { m with det := some (p / 4, decide (p % 4 < 2)) })
    | [] => none
  match m.m, m.det with
  | .bookmatch .., _ => ((if (m.src + m.dst) % 2 = 0 then [12, 13] else [13, 12]).filter (inRouting s)).head?.map (fun p => (p, m))
  | _, some (d, plus) =>
    if slotCoord d s.lny.slot = slotCoord d m.dst then plain { m with det := none }
    else ((dirPorts m.src m.dst d plus).filter (inRouting s)).head?.map (fun p => (p, m))
  | _, none => plain m

/-- A message goes on from this part (R578 to R581). One that no port takes is held here: a message of this part's own streams
by its stream, which sends it again when a path returns. -/
def onLink (s : Dev) (m : StreamMsg) : Dev :=
  match hopPick s m with
  | some (p, w) => linkSend s p { w with crossed := w.crossed || wraps s.lny.slot p }
  | none => if m.src = s.lny.slot then s else { s with lny := { s.lny with held := s.lny.held ++ [m] } }

/-- A message of this part's stream to a slot. -/
def streamMsg (s : Dev) (d : Nat) (k : BitVec 32 × PeerMsg) : StreamMsg :=
  ⟨s.lny.slot, d, k.1, s.lny.inc, (ltxOf s d).inc, k.2, false, none⟩

/-- A dowel operation to another part is dropped and counted (R588). -/
def countLost (s : Dev) : Dev := { s with lny := { s.lny with e2e := incFld s.lny.e2e 63 48 1 } }

/-- A wait or a read of a peer's dowel fails: it is lost as a dowel operation, and its tile is told (R379, R588; log entry
70). -/
def dowelLost (s : Dev) (tile id : Nat) : Dev :=
  let s1 := countLost s
  { s1 with wakes := s1.wakes ++ [(tile, id, false)] }

/-- Send a message to a slot (R584, R587): it takes the next number and is kept; with 4,096 messages outstanding it leaves
when an acknowledgement frees space. An unreachable slot drops it, and a dowel operation is counted and fails (R588). -/
def sendPeer (s : Dev) (d : Nat) (m : PeerMsg) : Dev :=
  if !(reachable s d) then
    (match m with
     | .dowelOp .. => countLost s
     | .dowelWait _ _ tile _ _ _ id _ => dowelLost s tile id
     | .dowelRead _ _ tile _ _ id _ => dowelLost s tile id
     | _ => s)
  else
    let t := ltxOf s d
    let path := if t.kept.isEmpty then (hopPorts s s.lny.slot d).head? else t.path
    let s1 := setLtx s d { t with next := t.next + 1, kept := t.kept ++ [(t.next, m)], path := path }
    if 4096 ≤ t.kept.length then s1 else onLink s1 (streamMsg s1 d (t.next, m))

/-- LNY_BIND0 to LNY_BIND2047 lie here in the control space (R606). -/
def bindBase : Nat := 0x0B2000
/-- A word of LNY_BINDi. -/
def bindW (s : Dev) (i k : Nat) : Word := ioGet s (bindBase + 0x10 * i + 8 * k)

/-- The valid binding of a local partition for a peer slot (R591). -/
def bindOf (s : Dev) (lpart slot : Nat) : Option Nat :=
  ((s.io.filter (fun e => decide (bindBase ≤ e.1) && decide (e.1 < bindBase + 0x8000) && (e.1 - bindBase) % 0x10 == 0 &&
    bit e.2 0 && fld e.2 8 2 == lpart && fld e.2 16 9 == slot)).head?).map (fun e => (e.1 - bindBase) / 0x10)

/-- The binding if it is not stale (R593): its peer partition, tile count and build number. -/
def liveBind (s : Dev) (lpart slot : Nat) : Option (Nat × Nat × BitVec 32) :=
  (bindOf s lpart slot).bind (fun i =>
    let w := bindW s i 0
    if bit w 1 then none else some (fld w 23 17, fld w 32 24, (bindW s i 1).truncate 32))

end Sys2Proof.Machine
end

