-- ==== Sys2Proof/Machine/Flash.lean ====
section
/-! DEFINITION. The log store of the flash (R706 to R712): appending a record, dropping, compaction, reading a stream. -/

namespace Sys2Proof.Machine
open Sys2Proof

/-- Change the management controller. -/
def modMgmt (s : Dev) (f : MgmtSt → MgmtSt) : Dev := { s with mgmt := f s.mgmt }

/-- The bytes a record takes: header and payload, aligned to 16 (R708). -/
def recSize (r : LogRec) : Nat := 16 + (8 * r.payload.length + 15) / 16 * 16
/-- The bytes used of a sector, its header among them (R708). -/
def sectorUsed (k : Sector) : Nat := k.recs.foldl (fun n r => n + recSize r) 32
/-- The bytes of a sector (R706). -/
def sectorBytes : Nat := 65536

/-- Sectors that are erased and not allocated (R710). -/
def erasedCount (m : MgmtSt) : Nat := m.sectors.countP (fun k => k.sseq == 0)
/-- The order number of the sector allocated last (R708). -/
def lastSseq (m : MgmtSt) : Nat := m.sectors.foldl (fun n k => max n k.sseq) 0
/-- The highest erase count (R711, R735). -/
def maxErases (m : MgmtSt) : Nat := m.sectors.foldl (fun n k => max n k.erases) 0

/-- Append to the sector allocated last. -/
def appendHead (m : MgmtSt) (r : LogRec) : MgmtSt :=
  let h := lastSseq m
  { m with sectors := m.sectors.map (fun k => if k.sseq = h then { k with recs := k.recs ++ [r] } else k) }

/-- Is there room for a record in the sector allocated last? -/
def headRoom (m : MgmtSt) (r : LogRec) : Bool :=
  m.sectors.any (fun k => k.sseq == lastSseq m && k.sseq != 0 && decide (sectorUsed k + recSize r ≤ sectorBytes))

/-- Allocate the erased sector with the fewest erases (R708). (log entry 56, DEDUCED) -/
def allocSector (m : MgmtSt) : MgmtSt :=
  let free := m.sectors.filter (fun k => k.sseq == 0)
  let low := free.foldl (fun n k => min n k.erases) (maxErases m)
  match m.sectors.findIdx? (fun k => k.sseq == 0 && k.erases == low) with
  | some i => { m with sectors := m.sectors.modify i (fun k => { k with sseq := lastSseq m + 1 }) }
  | none => m

/-- Store a record that has its sequence number (R710): stream 2 never takes the last erased sector, and is dropped and
counted instead. -/
def storeRec (m : MgmtSt) (r : LogRec) : MgmtSt :=
  if headRoom m r then appendHead m r
  else if r.stream = 2 ∧ erasedCount m ≤ 1 then { m with dropped := satAdd 16 m.dropped 1 }
  else if erasedCount m = 0 then m
  else appendHead (allocSector m) r

/-- Write a record to a stream (R708 to R710). -/
def logWrite (s : Dev) (stream : Nat) (payload : List Word) : Dev :=
  let n := mget 0 s.mgmt.seqs stream
  modMgmt s (fun m => { storeRec m ⟨stream, n, payload⟩ with seqs := mset 0 m.seqs stream ((n + 1) % 2 ^ 32) })

/-- How many records of a stream are live (R709). -/
def liveMax (stream : Nat) : Nat :=
  match stream with | 0 => 1024 | 1 => 512 | 2 => 16384 | _ => 1

/-- Is a record live (R709)? -/
def isLive (m : MgmtSt) (r : LogRec) : Bool := decide (mget 0 m.seqs r.stream ≤ r.seq + liveMax r.stream) || r.stream == 0

/-- The records of a stream in the order written, those still live: a ring's overwritten records are gone (R161, R709, R712). -/
def streamRecs (m : MgmtSt) (stream : Nat) : List LogRec :=
  ((List.range (lastSseq m)).flatMap (fun i => (m.sectors.filter (fun k => k.sseq == i + 1)).flatMap (·.recs))).filter
    (fun r => r.stream == stream && isLive m r)

/-- The sector that is compacted: the oldest, or one whose erase count lags by 4,096 (R711). -/
def compactIdx (m : MgmtSt) : Option Nat :=
  let hi := maxErases m
  match m.sectors.findIdx? (fun k => k.sseq != 0 && decide (k.erases + 4096 ≤ hi)) with
  | some i => some i
  | none =>
    let used := m.sectors.filter (fun k => k.sseq != 0)
    let low := used.foldl (fun n k => min n k.sseq) (lastSseq m)
    m.sectors.findIdx? (fun k => k.sseq != 0 && k.sseq == low)

/-- R711: a sector's live records are copied to the head, another one where it is the head itself, and the sector is erased. -/
def logCompact (s : Dev) : Dev :=
  if 2 < erasedCount s.mgmt then s
  else match compactIdx s.mgmt with
    | none => s
    | some i =>
      let k := s.mgmt.sectors.getD i Sector.blank
      modMgmt s (fun m =>
        let live := k.recs.filter (isLive m)
        let m0 := if k.sseq = lastSseq m then allocSector m else m
        let m1 := live.foldl (fun m r => if headRoom m r then appendHead m r else appendHead (allocSector m) r) m0
        let m2 : MgmtSt := { m1 with sectors := m1.sectors.modify i (fun k => ⟨k.erases + 1, 0, []⟩) }
        { m2 with wearWarn := m2.wearWarn || decide (90000 ≤ k.erases + 1) })

/-- The word a field entry is stored as: a repair-list entry as it is (R36, R709); the spec states no form of the others
(log entry 9, DESIGN CHOICE). -/
def entryWord (e : KnotEntry) : Word :=
  match e with
  | .repair w => w
  | .tileMove c f sp l => Config.entryWord 0 c f sp l
  | .tileDead c f l sp => Config.entryWord 1 c f l (sp.getD 9)
  | .spareDead c r => Config.entryWord 2 c r 0 0
  | .pcOut pc => Config.entryWord 3 pc 0 0 0
  | .lane p v => Config.entryWord 4 p v 0 0
  | .fold phys ch => Config.entryWord 5 phys ch 0 0

/-- R161, R162: a record of the always-on log is staged: code, index, attempt, voltage in mV, current in 0.1 A. PWR_FAULT
names it. The retention buffer is on VMGMT: without it nothing is kept (R141). -/
def pwrLogFor (s : Dev) (code idx attempt mv da : Nat) : Dev :=
  if !s.pwr.vmgmt then s else
  let p := s.pwr
  let w0 := BitVec.ofNat 64 (stamp s)
  let w1 := BitVec.ofNat 64 (code % 65536 + 2 ^ 16 * (idx % 256) + 2 ^ 24 * attempt + 2 ^ 32 * (mv % 65536) + 2 ^ 48 * (da % 65536))
  let w2 := BitVec.ofNat 64 (p.vin % 65536 + 2 ^ 32 * (p.logSeq % 2 ^ 32))
  let w3 := (crc32 (leBytes 8 w0.toNat ++ leBytes 8 w1.toNat ++ leBytes 8 w2.toNat)).zeroExtend 64
  { s with pwr := { p with
      logSeq := p.logSeq + 1
      staged := p.staged ++ [[w0, w1, w2, w3]]
      fault := BitVec.ofNat 64 (code % 65536 + 2 ^ 16 * (idx % 256) + 2 ^ 32 * (p.logSeq % 2 ^ 32)) } }

/-- A record of the part's own sequences. -/
def pwrLog (s : Dev) (code idx mv da : Nat) : Dev := pwrLogFor s code idx s.pwr.attempt mv da

/-- R161: the oldest staged record is committed to the ring of 512; the oldest is overwritten when the ring is full. -/
def pwrCommit (s : Dev) : Dev :=
  match s.pwr.staged with
  | [] => s
  | r :: rest =>
    let full := decide (512 ≤ (streamRecs s.mgmt 1).length)
    let s1 := logWrite { s with pwr := { s.pwr with staged := rest } } 1 r
    if full then { s1 with pwr := { s1.pwr with lost := satAdd 16 s1.pwr.lost 1 } } else s1

/-- R161. -/
def execAlwaysOnLogCommit (sys : State) : Host.Outcome State Fault Refusal := onDev sys fun s => pwrCommit s

/-- R711. -/
def execLogCompaction (sys : State) : Host.Outcome State Fault Refusal := onDev sys fun s => logCompact s

end Sys2Proof.Machine
end

