-- ==== Sys2Proof/Machine/Memory.lean ====
section
/-! DEFINITION. The memories and the ways to them: the scratchpad with its drawers, poison and check code (R350 to
R371), the stacked memory (R533 to R539, R545), the device-physical map (R760 to R762), partitions' shapes (R376,
R610). -/

namespace Sys2Proof.Machine
open Sys2Proof

/-! ### The scratchpad -/

/-- The drawer an offset lies in (R350). -/
def drawerOf (off : Nat) : Nat := off / 0x80000
/-- The bank an offset lies in (R350). -/
def bankOf (off : Nat) : Nat := 4 * (off / 0x80000) + off / 64 % 4
/-- The word of its bank an offset lies in (R350). -/
def wordOf (off : Nat) : Nat := off / 256 % 2048
/-- Is an offset populated (R350)? -/
def populated (off : Nat) : Bool := decide (off < 0x300000)

/-- TCB_DRAWER_OWNd (R372). -/
def drawerOwn (x : Tile) (d : Nat) : Word := mget 7 x.dr.own d

/-- Bytes of the scratchpad. -/
def spadGet (x : Tile) (off n : Nat) : List Byte := mbytes 0 x.spad off n

/-- The 64-byte words a range touches. -/
def wordsOf (off n : Nat) : List Nat := (List.range ((off + n + 63) / 64 - off / 64)).map (· + off / 64)

/-- Does a read of a range touch a poisoned word (R368)? -/
def spadPoisoned (x : Tile) (off n : Nat) : Bool :=
  n != 0 && (wordsOf off n).any (fun w => mget false x.dr.poison w)

/-- A mask of drawers that a range touches. -/
def drawersOf (off n : Nat) : BitVec 6 :=
  (List.range 6).foldl (fun m d =>
    if off < (d + 1) * 0x80000 ∧ d * 0x80000 < off + n then m ||| ((1 : BitVec 6) <<< d) else m) 0

/-- Write bytes to the scratchpad: the drawer is no longer clean (R360), a word written whole loses its poison mark
(R368), and a write-back of the word by the scrubber is superseded (R369). -/
def spadPut (x : Tile) (off : Nat) (bs : List Byte) : Tile :=
  let n := bs.length
  if n = 0 then x
  else
    let whole := (wordsOf off n).filter (fun w => decide (off ≤ 64 * w) && decide (64 * w + 64 ≤ off + n))
    { x with
      spad := mwrite 0 x.spad off bs
      dr := { x.dr with
        clean := x.dr.clean &&& ~~~(drawersOf off n)
        poison := whole.foldl (fun p w => mset false p w false) x.dr.poison
        wbPend := x.dr.wbPend.filter (fun w => !((wordsOf off n).contains w)) } }

/-- The marks of the bytes of a range whose words carry marks (R368). -/
def marksOf (off n : Nat) (ws : List Bool) : List Bool :=
  (List.range n).map (fun k => ws.getD ((off + k) / 64 - off / 64) false)
/-- The marks of the words of a range whose bytes carry marks (R368). -/
def wordMarks (off : Nat) (ps : List Bool) : List Bool :=
  (wordsOf off ps.length).map (fun w => ps.zipIdx.any (fun p => p.1 && (off + p.2) / 64 == w))

/-- Do the ranges of one write, offset and length, cover a whole word between them (R368)? -/
def coversWord (l : List (Nat × Nat)) (w : Nat) : Bool :=
  (List.range 64).all (fun k => l.any (fun p => decide (p.1 ≤ 64 * w + k) && decide (64 * w + k < p.1 + p.2)))
/-- A write of several ranges clears the marks of the words it covers whole (R368). -/
def clearMarks (x : Tile) (l : List (Nat × Nat)) : Tile :=
  { x with dr := { x.dr with poison :=
    ((l.map (fun p => p.1 / 64)).filter (coversWord l)).foldl (fun m w => mset false m w false) x.dr.poison } }

/-- Mark a word poisoned. -/
def spadPoison (x : Tile) (w : Nat) : Tile := { x with dr := { x.dr with poison := mset false x.dr.poison w true } }

/-- Write bytes that carry a poison mark (R421): every word touched is marked. -/
def spadPutPoison (x : Tile) (off : Nat) (bs : List Byte) : Tile :=
  (wordsOf off bs.length).foldl spadPoison (spadPut x off bs)

/-- Is a drawer waiting for zeroing or being zeroed (R363)? -/
def drawerBusy (x : Tile) (off : Nat) : Bool := x.dr.zeroing.getLsbD (drawerOf off)

/-- The permission of R354 for a port: bit 0 scalar, 1 vector, 2 matrix, and the context in user mode. -/
def portMay (x : Tile) (port : Nat) (user : Bool) (ctx off : Nat) : Bool :=
  let o := drawerOwn x (drawerOf off)
  bit o port && (!user || (bit o 5 && decide (fld o 13 6 = ctx)))

/-- May the transfer port use a drawer (R354)? -/
def transferMay (x : Tile) (off : Nat) : Bool := !(bit (drawerOwn x (drawerOf off)) 3)

/-- Record an ownership fault at a tile (R372): port 0 scalar, 1 vector, 2 spindle, 3 matrix read, 4 matrix write,
5 transfer. -/
def drawerFault (x : Tile) (port off : Nat) : Tile :=
  let f := incFld x.dr.fault 47 32 1
  let g := if bit f 28 then f
    else setBit (setFld (setFld (setFld f 2 0 port) 5 3 (drawerOf off)) 27 6 off) 28 true
  { x with dr := { x.dr with fault := g } }

/-- A repair-list entry of the field layer (R36): KIND, UNIT, SUB, INDEX. -/
def repairWord (kind unit sub index : Nat) : Word :=
  setFld (setFld (setFld (setFld (setBit 0 4 true) 3 0 kind) 13 5 unit) 19 14 sub) 37 20 index

/-- A repair-list entry of a scratchpad row for a word (R36, R371), for physical tile `phys`. -/
def rowRepair (phys word : Nat) : Word := repairWord 1 phys (bankOf (64 * word)) (wordOf (64 * word))

/-- The physical row that carries a logical row in a column of a map (R33). -/
def prowOf (c : Word) (lrow : Nat) : Option Nat := (List.range 9).find? (fun k => fld c (4 * k + 3) (4 * k) == lrow)

/-- The column entry of a knot map (R33). -/
def colOf (m : KnotMap) (i : Nat) : Word := mget colFactory m.cols i

/-- The physical tile of a logical tile (R25), 0x1FF where it is dead. -/
def physOf (s : Dev) (t : Nat) : Nat :=
  match prowOf (colOf s.knots.eff (t / 128 * 16 + t % 16)) (t / 16 % 8) with
  | some k => t / 128 * 144 + k * 16 + t % 16
  | none => 0x1FF

/-- A count of DET_METROp for the partition of a tile (R649, R673). -/
def metroInc (s : Dev) (t hi lo : Nat) : Dev :=
  match partOf (tileOf s t) with | some p => ioInc s (0x0D3000 + 8 * p) hi lo 1 | none => s

/-- Does the field layer hold 1,024 entries, those on their way to flash among them (R48)? -/
def fullLayer (s : Dev) : Bool := decide (1024 ≤ s.knots.field.length + s.knots.flashPend.length)

/-! ### The knot map and its entries (R27, R32 to R36) -/

/-- Column (leaf × 16 + column), physical row and number of a physical tile (R25). -/
def physCol (phys : Nat) : Nat := phys / 144 * 16 + phys % 16
def physRow (phys : Nat) : Nat := phys % 144 / 16
def physNum (col row : Nat) : Nat := col / 16 * 144 + row * 16 + col % 16

/-- A slot of a column entry, and the entry with a slot replaced (R33). -/
def colSlot (w : Word) (k : Nat) : Nat := fld w (4 * k + 3) (4 * k)
def setSlot (w : Word) (k v : Nat) : Word := setFld w (4 * k + 3) (4 * k) v
/-- SPARE of a column entry. -/
def colSpare (w : Word) : Nat := fld w 37 36
/-- The physical row of the unused spare. -/
def spareRow (w : Word) : Option Nat := (List.range 9).find? (fun k => colSlot w k == 15)

/-- A physical tile is marked failed (R35). -/
def funcFail (m : KnotMap) (phys : Nat) : KnotMap := { m with func := mmod 0 m.func phys (fun f => f ||| 16) }

/-- A map with an entry applied (R27): it adds a defect, uses a spare or retires a unit. -/
def applyEntry (m : KnotMap) (e : KnotEntry) : KnotMap :=
  let putCol (m : KnotMap) (c : Nat) (w : Word) : KnotMap := { m with cols := mset colFactory m.cols c w }
  match e with
  | .tileMove c failed spare lrow =>
    funcFail (putCol m c (setFld (setSlot (setSlot (colOf m c) failed 14) spare lrow) 37 36 2)) (physNum c failed)
  | .tileDead c failed lrow spare =>
    let w := setFld (setBit (setSlot (colOf m c) failed 14) (38 + lrow) true) 37 36 3
    match spare with
    | some k => funcFail (funcFail (putCol m c (setSlot w k 14)) (physNum c failed)) (physNum c k)
    | none => funcFail (putCol m c w) (physNum c failed)
  | .spareDead c row => funcFail (putCol m c (setFld (setSlot (colOf m c) row 14) 37 36 3)) (physNum c row)
  | .repair w => { m with repairs := m.repairs ++ [w] }
  | .pcOut pc => { m with pcOut := mset false m.pcOut pc true }
  | .lane p v => { m with lny := mset lnyFactory m.lny p v }
  | .fold phys ch => { m with func := mmod 0 m.func phys (fun f => f ||| 2 ^ ch) }

/-- Change the knot state. -/
def modKnots (s : Dev) (f : KnotSt → KnotSt) : Dev := { s with knots := f s.knots }

/-- The repair-list entry of a link that leaves service (R36, R37). -/
def linkOut (unit : Nat) (axis bridge : Bool) : Word :=
  setFld (setFld (setBit (setBit (setBit 0 4 true) 14 axis) 16 bridge) 3 0 7) 13 5 unit

/-- A volatile entry acts at once (R48). -/
def volApply (s : Dev) (e : KnotEntry) : Dev :=
  modKnots s (fun k => { k with vol := k.vol ++ [e], eff := applyEntry k.eff e, gen := k.gen + 1 })

/-- A physical tile is due to be handled as a failed tile. -/
def dueTile (s : Dev) (phys : Nat) : Dev :=
  if s.knots.due.contains phys then s else modKnots s (fun k => { k with due := k.due ++ [phys] })

/-- R48: with the field layer full an entry is handled as if no spare remained: a wire's link leaves service, an SRAM
defect's tile is due as a failed tile (R774), a lane's port leaves service; wire and SRAM defects are remembered for the
next reset. -/
def volEntry (s : Dev) (e : KnotEntry) : Dev :=
  match e with
  | .repair w =>
    let k := fld w 3 0
    if k = 1 ∨ k = 2 ∨ k = 3 then dueTile (modKnots s (fun q => { q with unrecorded := true })) (fld w 13 5)
    else if k = 4 ∨ k = 5 then
      let o := linkOut (fld w 13 5) (bit w 14) (k == 5)
      let s1 := modKnots s (fun q => { q with unrecorded := true })
      if s.knots.eff.repairs.contains o then s1 else volApply s1 (.repair o)
    else if k = 7 then volApply (modKnots s (fun q => { q with unrecorded := true })) e
    else volApply s e
  | .lane p v => volApply s (.lane p (v % 64 + 64))
  | e => volApply s e

/-- An entry is committed, or kept volatile where the field layer is full (R44, R48). -/
def commitEntry (s : Dev) (e : KnotEntry) : Dev :=
  if s.knots.field.length < 1024 then
    modKnots (logWrite s 0 [entryWord e]) (fun k => { k with field := k.field ++ [e], eff := applyEntry k.eff e, gen := k.gen + 1 })
  else volEntry s e

/-- An entry is queued for flash; with the layer full it acts at once (R44, R48). -/
def addEntry (s : Dev) (e : KnotEntry) : Dev :=
  if fullLayer s then volEntry s e else modKnots s (fun k => { k with flashPend := k.flashPend ++ [e] })

/-- R744: an uncorrectable error of a unit (a physical tile, or 288 plus a pseudo-channel) in a word or row: the errors of
the last second are kept, one for each word; three make the unit due. (log entry 52, DEDUCED) -/
def attribute3 (s : Dev) (unit word : Nat) : Dev × Bool :=
  let l := s.knots.unc.filter (fun e => decide (s.time < e.2.2 + 1000000000) && !(e.1 == unit && e.2.1 == word)) ++ [(unit, word, s.time)]
  (modKnots s (fun k => { k with unc := l }), decide (3 ≤ l.countP (fun e => e.1 == unit)))

/-- R744: an uncorrectable error of a tile in a word: a third distinct word makes the physical tile due for attribution. -/
def tileUncorr (s : Dev) (t word : Nat) : Dev :=
  let phys := physOf s t
  let r := attribute3 s phys word
  if r.2 && decide (phys < 288) then dueTile r.1 phys else r.1

/-- A corrected error of a scratchpad word (R367): counted, to be written back; the fourth commits a row repair
(R371). -/
def spadCorrected (s : Dev) (t word inj : Nat) : Dev :=
  let x := tileOf s t
  let c := mget 0 x.dr.corr word + 1
  let x1 : Tile := { x with dr := { x.dr with
    ecc := incFld x.dr.ecc 31 0 1
    corr := mset 0 x.dr.corr word c
    wbPend := if x.dr.wbPend.contains word then x.dr.wbPend else x.dr.wbPend ++ [word] } }
  let s1 := metroInc (tileErr (setTile s t x1) t 0x1001 0 none (64 * word) inj) t 31 16
  if c = 4 then addEntry s1 (.repair (rowRepair (physOf s t) word)) else s1

/-- An uncorrectable error of a scratchpad word (R367): the word is poisoned and a contained error recorded, charged
to the drawer's owning context (R739). -/
def spadUe (s : Dev) (t word inj : Nat) : Dev :=
  let x := tileOf s t
  let off := 64 * word
  let e := setFld (setFld (incFld x.dr.ecc 47 32 1) 52 48 (bankOf off)) 63 53 (wordOf off)
  let x1 := spadPoison { x with dr := { x.dr with ecc := e } } word
  let o := drawerOwn x (drawerOf off)
  tileUncorr (tileErr (setTile s t x1) t 0x1002 1 (if bit o 5 then some (fld o 13 6) else none) off inj) t word

/-- A read of the scratchpad meets what ERR_INJECT has armed (R759): the first word read takes the error. -/
def spadTouch (s : Dev) (t off : Nat) : Dev :=
  let x := tileOf s t
  let inj := 2 ^ 62
  if x.inject.contains 0x1002 then
    spadUe (setTile s t { x with inject := x.inject.erase 0x1002 }) t (off / 64) inj
  else if x.inject.contains 0x1001 then
    spadCorrected (setTile s t { x with inject := x.inject.erase 0x1001 }) t (off / 64) inj
  else s

/-! ### Partitions' shapes -/

def partSt (s : Dev) (p : Nat) : PartSt := mget PartSt.reset s.parts p
def modPart (s : Dev) (p : Nat) (f : PartSt → PartSt) : Dev := { s with parts := mmod PartSt.reset s.parts p f }

/-- A word of a partition's definition (R635). -/
def defW (q : PartSt) (i : Nat) : Word := mget 0 q.w i
def pRow0 (q : PartSt) : Nat := fld (defW q 0) 10 7
def pCol0 (q : PartSt) : Nat := fld (defW q 0) 14 11
def pH (q : PartSt) : Nat := fld (defW q 0) 18 15 + 1
def pW (q : PartSt) : Nat := fld (defW q 0) 22 19 + 1
def pPort (q : PartSt) : Nat := fld (defW q 0) 23 23
def pFunc (q : PartSt) : Nat := fld (defW q 0) 30 24
def pNative (q : PartSt) : Bool := bit (defW q 0) 31
def pMetro (q : PartSt) : Bool := bit (defW q 0) 32
def pLevel (q : PartSt) : Nat := fld (defW q 0) 63 48
def pTiles (q : PartSt) : Nat := pH q * pW q

/-- The grid row of a logical tile (R376). -/
def gridRow (t : Nat) : Nat := t / 128 * 8 + t / 16 % 8
/-- The logical tile at a grid row and column. -/
def tileAt (row col : Nat) : Nat := row / 8 * 128 + row % 8 * 16 + col

/-- The rank of a member tile (R376). -/
def rankOf (q : PartSt) (t : Nat) : Nat := (gridRow t - pRow0 q) * pW q + (t % 16 - pCol0 q)
/-- The logical tile of a rank (R376). -/
def tileOfRank (q : PartSt) (r : Nat) : Nat := tileAt (pRow0 q + r / pW q) (pCol0 q + r % pW q)
/-- The member tiles in rank order. -/
def membersOf (q : PartSt) : List Nat := (List.range (pTiles q)).map (tileOfRank q)

/-- Is a tile a member of the partition of another? -/
def samePart (s : Dev) (a b : Nat) : Bool :=
  (tileOf s a).member != 0 && (tileOf s a).member == (tileOf s b).member

/-! ### The stacked memory -/

/-- A word of HBM_SETk (R564). -/
def setW (s : Dev) (k i : Nat) : Word := ioGet s (0x0A1000 + 0x20 * k + 8 * i)
def setValid (s : Dev) (k : Nat) : Bool := bit (setW s k 0) 0
/-- The base of a set, from units of 2 MiB. -/
def setBase (s : Dev) (k : Nat) : Nat := fld (setW s k 0) 24 8 * 0x200000
/-- The pseudo-channels of a set in ascending order (R534): the set bits of MASK. -/
def setList (s : Dev) (k : Nat) : List Nat :=
  (List.range 192).filter (fun pc => bit (setW s k (1 + pc / 64)) (pc % 64))
/-- The capacity of a pseudo-channel (R22, R529): 9/8 GiB, 1/2 GiB, none. -/
def pcCap (s : Dev) : Nat :=
  match s.knots.grade with | 1 => 9 * 2 ^ 27 | 2 => 4 * 2 ^ 27 | _ => 0
/-- The size of a set (R534). -/
def setSize (s : Dev) (k : Nat) : Nat := (setList s k).length * pcCap s

/-- The valid set an address lies in (R534, R538). -/
def setOf (s : Dev) (a : Nat) : Option Nat :=
  (List.range 128).find? (fun k => setValid s k && decide (setBase s k ≤ a) && decide (a < setBase s k + setSize s k))

/-- The pseudo-channel and local offset of an address of a set (R535). -/
def setMap (s : Dev) (k a : Nat) : Nat × Nat :=
  let l := setList s k
  let n := l.length
  let d := a - setBase s k
  let g := d / 256
  let r := g / n
  let f := (r % 65536) ^^^ (r / 65536 % 65536)
  (l.getD ((g % n + f % n) % n) 0, r * 256 + d % 256)

/-- The key under which a byte of a pseudo-channel is held. -/
def stackKey (pc loc : Nat) : Nat := pc * 2 ^ 31 + loc

/-- Is a pseudo-channel mapped out (R545)? -/
def pcOut (s : Dev) (pc : Nat) : Bool := mget false s.knots.eff.pcOut pc

/-- The key of an address, where it is present. -/
def stackAt (s : Dev) (a : Nat) : Option Nat :=
  (setOf s a).map (fun k => let p := setMap s k a; stackKey p.1 p.2)

/-- Bytes of stacked memory; an absent byte reads zero, but no access reaches one. -/
def stackGet (s : Dev) (a n : Nat) : List Byte :=
  (List.range n).map (fun i => match stackAt s (a + i) with | some k => mget 0 s.stack k | none => 0)

/-- Does a read touch a poisoned unit or a mapped-out pseudo-channel (R533, R545)? -/
def stackPoisoned (s : Dev) (a n : Nat) : Bool :=
  (List.range n).any (fun i => match stackAt s (a + i) with
    | some k => pcOut s (k / 2 ^ 31) || mget false s.stackPoison (k / 64)
    | none => false)

/-- Write one byte: a mapped-out pseudo-channel accepts and discards it (R545). -/
def stackPutByte (s : Dev) (a : Nat) (b : Byte) : Dev :=
  match stackAt s a with
  | some k => if pcOut s (k / 2 ^ 31) then s else { s with stack := mset 0 s.stack k b }
  | none => s

/-- The aligned 64-byte units a range covers whole. -/
def wholeUnits (a n : Nat) : List Nat :=
  (wordsOf a n).filter (fun w => decide (a ≤ 64 * w) && decide (64 * w + 64 ≤ a + n))

/-- Mark or clear the poison of units given by their addresses over 64. -/
def stackMark (s : Dev) (units : List Nat) (v : Bool) : Dev :=
  { s with stackPoison := units.foldl (fun m u => match stackAt s (64 * u) with
      | some k => mset false m (k / 64) v
      | none => m) s.stackPoison }

/-- Write bytes (R533, R539): a write that covers all 64 bytes of a unit clears its poison. -/
def stackPut (s : Dev) (a : Nat) (bs : List Byte) : Dev :=
  let go := bs.foldl (fun (p : Dev × Nat) b => (stackPutByte p.1 p.2 b, p.2 + 1)) (s, a)
  stackMark go.1 (wholeUnits a bs.length) false

/-- The registers HBM_ECC, HBM_REMAP and HBM_LAT (R564). -/
def regHbmEcc : Nat := 0x0A0070
def regHbmRemap : Nat := 0x0A0078
def regHbmLat : Nat := 0x0A0088

/-- Change the memory controllers. -/
def modHbm (s : Dev) (f : HbmSt → HbmSt) : Dev := { s with hbm := f s.hbm }

/-- A row that fails waits for its remap, once (R551). (log entry 21, DESIGN CHOICE) -/
def failRow (s : Dev) (pc loc : Nat) : Dev :=
  let r := (pc, Config.hbmBank loc % 64, Config.hbmRow loc % 2 ^ 18)
  if s.hbm.rowsBad.contains r || s.hbm.copying.contains r then s else modHbm s (fun h => { h with rowsBad := h.rowsBad ++ [r] })

/-- R41, R545: a pseudo-channel is mapped out at once; its entry goes to flash (ID 0x5005). -/
def mapOut (s : Dev) (pc : Nat) : Dev :=
  if pcOut s pc then s
  else
    let s1 := addEntry (raiseErr s none 0x5005 4 pc none 0 0) (.pcOut pc)
    modHbm (modKnots s1 (fun k => { k with eff := applyEntry k.eff (.pcOut pc) })) (fun h => { h with
      rowsBad := h.rowsBad.filter (fun r => r.1 != pc), queue := mset [] h.queue pc [], wb := h.wb.filter (fun w => w.1 != pc) })

/-- An uncorrectable error of a unit: counted, poisoned, recorded and its row failing (R532, R551, ID 0x5002); the third in
distinct rows within 1 s maps the pseudo-channel out (R744). -/
def hbmUe (s : Dev) (part ctx : Option Nat) (pc loc addr detail : Nat) : Dev :=
  let s1 := { s with stackPoison := mset false s.stackPoison (stackKey pc loc / 64) true }
  let s2 := ioSet s1 regHbmEcc (setFld (incFld (ioGet s1 regHbmEcc) 47 32 1) 55 48 pc)
  let r := attribute3 (raiseErr (failRow s2 pc loc) part 0x5002 1 pc ctx addr detail) (288 + pc)
    (Config.hbmBank loc % 64 * 2 ^ 18 + Config.hbmRow loc % 2 ^ 18)
  if r.2 then mapOut r.1 pc else r.1

/-- The present 64-byte units a range touches: address, pseudo-channel, local offset. -/
def stackUnits (s : Dev) (a n : Nat) : List (Nat × Nat × Nat) :=
  (wordsOf a n).filterMap (fun w => (stackAt s (64 * w)).map (fun k => (64 * w, k / 2 ^ 31, k % 2 ^ 31)))

/-- An access to a range: one error for each mapped-out pseudo-channel it reaches (R545, ID 0x5003); a read meets what
ERR_INJECT has armed (R759). -/
def stackTouch (s : Dev) (rd : Bool) (part ctx : Option Nat) (a n : Nat) : Dev :=
  let us := if n = 0 then [] else stackUnits s a n
  let outs := ((us.filter (fun u => pcOut s u.2.1)).map (·.2.1)).dedup
  let s1 := outs.foldl (fun s pc => raiseErr s part 0x5003 1 pc ctx a 0) s
  match us.find? (fun u => rd && s.hbm.inject.contains u.2.1) with
  | some u => hbmUe (modHbm s1 (fun h => { h with inject := h.inject.erase u.2.1 })) part ctx u.2.1 u.2.2 u.1 (2 ^ 62)
  | none => s1

/-- Grant `g` of a partition as an address range (R610, R635). -/
def grantRange (s : Dev) (q : PartSt) (g : Nat) : Option (Nat × Nat) :=
  let w := defW q (6 + g)
  if bit w 0 then some (setBase s (fld w 7 1) + fld w 24 8 * 0x200000, fld w 41 25 * 0x200000) else none

/-- Does a range lie inside one of a partition's grants and the present memory (R442, R610)? -/
def inGrants (s : Dev) (q : PartSt) (a n : Nat) : Bool :=
  (List.range 4).any (fun g => match grantRange s q g with
    | some (b, len) => decide (b ≤ a) && decide (a + n ≤ b + len)
    | none => false) && (setOf s a).isSome && (setOf s (a + n - 1)).isSome

/-! ### The device-physical map -/

/-- What a device-physical address names (R760); a reserved or unpopulated address names nothing (R761). -/
def devDecode (a : Nat) : Option Target :=
  if a < 0x4000000000 then some (.stacked a)
  else if a < 0x4040000000 then
    let o := a - 0x4000000000
    if populated (o % 0x400000) then some (.scratch (o / 0x400000) (o % 0x400000)) else none
  else if 0x4100000000 ≤ a ∧ a < 0x4100100000 then
    let o := a - 0x4100000000
    some (.dowel (o / 0x1000) (o % 0x1000 / 8))
  else if 0x4200000000 ≤ a ∧ a < 0x4201000000 then
    let o := a - 0x4200000000
    some (.tcb (o / 0x10000) (o % 0x10000))
  else if 0x4300000000 ≤ a ∧ a < 0x4301000000 then some (.io (a - 0x4300000000))
  else none

/-- The registers of the I/O die a tile monitor may read or write (R762). -/
def monitorMayIo (s : Dev) (t off : Nat) (wr : Bool) : Bool :=
  let p := partOf (tileOf s t)
  let ownQ (q : Nat) : Bool := let w := mget WqSt.reset s.wqs q; w.owned && decide (some w.part = p)
  if !wr && (off == 0x00 || off == 0x08 || off == 0x10 || off == 0x100 || off == 0x108) then true
  else if !wr && off == 0x010000 then true
  else if 0x040000 ≤ off ∧ off < 0x060000 then !wr || off == 0x040008
  else if 0x080000 ≤ off ∧ off < 0x090000 then
    let r := (off - 0x080000) % 0x100
    let q := (off - 0x080000) / 0x100
    ownQ q && (if wr then r == 0x88 || r == 0x90 || r == 0x98 else r == 0x08 || r == 0x40)
  else if 0x090000 ≤ off ∧ off < 0x098000 then !wr && ownQ ((off - 0x090000) / 0x80)
  else if 0x098000 ≤ off ∧ off < 0x098020 then !wr
  else if 0x0C0400 ≤ off ∧ off < 0x0C0480 then !wr
  else if 0x0C1000 ≤ off ∧ off < 0x0C5000 then !wr && decide (some ((off - 0x0C1000) / 0x80) = p)
  else if 0x0D1000 ≤ off ∧ off < 0x0D3000 then !wr && decide (some ((off - 0x0D1000) / 0x40) = p)
  else false

/-- What a monitor-mode access reaches (R762): anything else fails with ACCESS. -/
def monitorTarget (s : Dev) (t a n : Nat) (wr : Bool) : Option Target :=
  match devDecode a with
  | some (.scratch tt o) => if samePart s t tt && populated (o + n - 1) then some (.scratch tt o) else none
  | some (.dowel tt i) => if samePart s t tt then some (.dowel tt i) else none
  | some (.stacked b) => if inGrants s (partSt s ((tileOf s t).member - 1)) b n && (tileOf s t).member != 0
      then some (.stacked b) else none
  | some (.tcb tt o) => if tt = t then some (.tcb tt o) else none
  | some (.io o) => if monitorMayIo s t (o / 8 * 8) wr then some (.io o) else none
  | _ => none

end Sys2Proof.Machine
end

