-- ==== Sys2Proof/Machine/Translate.lean ====
section
/-! DEFINITION. How one access is translated (R429 to R444): the context check, the caches, the segments, and the
want that a missing page leaves for a walker. -/

namespace Sys2Proof.Machine
open Sys2Proof

/-- The index of a unit's leaf tile (R443). -/
def xunitTile : XUnit → Nat
  | .core t => t
  | .lvu t => t
  | .spindle t _ => t
  | .me t => t
  | .te t _ => t

/-- How a translation ends. -/
inductive XRes where
  /-- the output: address, host memory or device-physical -/
  | ok (out : Nat) (host : Bool)
  /-- the access fails with ACCESS (R432, R436 to R442) -/
  | fail
  /-- the access waits for a walk (R443) -/
  | miss
  deriving DecidableEq, Repr

/-- A word of XLT_CTXn (R433). -/
def ctxW (s : Dev) (n i : Nat) : Word := mget 0 s.xlt.ctx (32 * n + i)
def ctxValid (s : Dev) (n : Nat) : Bool := bit (ctxW s n 0) 0
def ctxPart (s : Dev) (n : Nat) : Nat := fld (ctxW s n 0) 7 1
def ctxFmt (s : Dev) (n : Nat) : Nat := fld (ctxW s n 0) 9 8
def ctxPasid (s : Dev) (n : Nat) : Nat := fld (ctxW s n 0) 51 32
/-- Does a class use segments: 0 scalar-and-vector, 1 transfer, 2 matrix (R430)? -/
def ctxSeg (s : Dev) (n cls : Nat) : Bool := bit (ctxW s n 0) (10 + cls)

/-- A word of XLT_FMTf (R435). -/
def xfmtW (s : Dev) (f i : Nat) : Word := mget (if i = 2 then 51 else 0) s.xlt.fmt (4 * f + i)
/-- A position byte of a format: 0 P, 1 W, 2 X, 3 A, 4 D, 5 DEV, 6 LEAF (R436). -/
def fmtPos (s : Dev) (f k : Nat) : Nat := fld (xfmtW s f 1) (8 * k + 7) (8 * k)
def fmtPfnHi (s : Dev) (f : Nat) : Nat := fld (xfmtW s f 2) 5 0
def fmtAd (s : Dev) (f : Nat) : Nat := fld (xfmtW s f 0) 5 4

/-- Is a format invalid (R436)? -/
def fmtBad (s : Dev) (f : Nat) : Bool :=
  let pos := (List.range 7).filterMap (fun k => let b := fmtPos s f k; if 128 ≤ b then some (b % 64) else none)
  let hi := fmtPfnHi s f
  decide (fmtPos s f 0 < 128) || !(decide (pos.Nodup)) || pos.any (fun p => decide (12 ≤ p) && decide (p ≤ hi)) ||
    decide (hi < 20) || decide (51 < hi) || fmtAd s f == 3

/-- FMT_BAD as XLT_STATUS shows it: the Reset column's 0 until the format is first written after the reset, for all that
the reset format is invalid and no walk under it succeeds (R12, R436; log entry 65, DESIGN CHOICE). -/
def fmtShown (s : Dev) (f : Nat) : Bool := mget false s.xlt.fmtSet f && fmtBad s f

/-- The context check (R432): VALID, and PART is the partition of the issuing tile. -/
def xltCheck (s : Dev) (t tag : Nat) : Bool := ctxValid s tag && decide ((tileOf s t).member = ctxPart s tag + 1)

/-- An access of a context failed by translation (R433). -/
def xltFail (s : Dev) (tag : Nat) : Dev :=
  { s with xlt := { s.xlt with ctx := mmod 0 s.xlt.ctx (32 * tag + 2) (fun w => incFld w 63 32 1) } }

/-- Does a cached entry serve an access (R444): acc 0 reads, 1 writes, 2 reads to execute? -/
def tlbHits (tag : Nat) (seg : Bool) (va acc : Nat) (e : TlbEnt) : Bool :=
  e.tag == tag && e.seg == seg && decide (e.va ≤ va) && decide (va < e.va + 2 ^ e.lg) &&
    (match acc with | 0 => e.rd | 1 => e.wr && e.dirty | _ => e.rd && e.ex)

/-- Put an entry into a cache of `cap` entries; the oldest leaves (log entry 17, DESIGN CHOICE). -/
def tlbPut (cap : Nat) (l : List TlbEnt) (e : TlbEnt) : List TlbEnt :=
  let l1 := l.filter (fun x => !(x.tag == e.tag && x.seg == e.seg && x.va == e.va && x.lg == e.lg)) ++ [e]
  l1.drop (l1.length - cap)

/-- Fill a tile's micro-TLB (R443). -/
def fillMicro (s : Dev) (t : Nat) (e : TlbEnt) : Dev := modTile s t (fun x => { x with utlb := tlbPut 64 x.utlb e })
/-- A leaf TLB (R443). -/
def leafTlb (s : Dev) (leaf : Nat) : List TlbEnt := mget [] s.xlt.ltlb leaf
/-- Fill a leaf TLB. -/
def fillLeaf (s : Dev) (leaf : Nat) (e : TlbEnt) : Dev :=
  { s with xlt := { s.xlt with ltlb := mset [] s.xlt.ltlb leaf (tlbPut 8192 (leafTlb s leaf) e) } }

/-- A segment of a context: base, limit (R433). -/
def segBL (s : Dev) (tag k : Nat) : Nat × Nat := ((ctxW s tag (8 + 3 * k)).toNat, (ctxW s tag (9 + 3 * k)).toNat)

/-- The lowest segment an address lies in (R440). -/
def segFind (s : Dev) (tag va : Nat) : Option Nat :=
  (List.range 8).find? (fun k => let p := segBL s tag k; decide (p.2 ≠ 0) && decide (p.1 ≤ va) && decide (va < p.1 + p.2))

/-- The entry a segment gives an address (R440, R443): 2 MiB where this segment covers the aligned region and no lower
one touches it. -/
def segEnt (s : Dev) (tag va : Nat) : Option TlbEnt :=
  (segFind s tag va).map (fun k =>
    let p := segBL s tag k
    let w := ctxW s tag (10 + 3 * k)
    let r0 := va / 0x200000 * 0x200000
    let whole := decide (p.1 ≤ r0) && decide (r0 + 0x200000 ≤ p.1 + p.2) &&
      (List.range k).all (fun j => let q := segBL s tag j
        !(decide (q.2 ≠ 0) && decide (q.1 < r0 + 0x200000) && decide (r0 < q.1 + q.2)))
    let lg := if whole then 21 else 12
    let b := va / 2 ^ lg * 2 ^ lg
    { tag := tag, seg := true, va := b, lg := lg, out := fld w 51 12 * 4096 + (b - p.1), host := bit w 3
      rd := bit w 0, wr := bit w 1, ex := bit w 2, dirty := true })

/-- Leave a want for a walker; the unit's former want on the same page keeps its count of responses (R454). -/
def putWant (s : Dev) (u : XUnit) (tag cls acc va : Nat) : Dev :=
  let old := s.xlt.want.find? (fun w => decide (w.unit = u) && w.tag == tag && w.va / 4096 == va / 4096)
  match old with
  | some _ => s
  | none =>
    { s with xlt := { s.xlt with want := s.xlt.want.filter (fun w => decide (w.unit ≠ u)) ++
        [⟨u, tag, va, acc == 1, acc == 2, cls, 0, 0, .walk⟩] } }

/-- Does a unit's access wait for a translation? -/
def unitWaits (s : Dev) (u : XUnit) : Bool := s.xlt.want.any (fun w => decide (w.unit = u))
/-- A waiting access is abandoned (R200, R456): a request sent stays outstanding. -/
def abandonWant (s : Dev) (u : XUnit) : Dev :=
  { s with xlt := { s.xlt with want := s.xlt.want.filter (fun w => decide (w.unit ≠ u)) } }

/-- A count of a leaf's LTLB_MISS (R460). -/
def countMiss (s : Dev) (leaf : Nat) : Dev :=
  if leaf = 0 then { s with xlt := { s.xlt with statsA := incFld s.xlt.statsA 31 0 1 } }
  else { s with xlt := { s.xlt with statsB := incFld s.xlt.statsB 31 0 1 } }

/-- Translate the page of one access (R430 to R444). -/
def xlatePage (s0 : Dev) (u : XUnit) (tag cls acc va : Nat) : Dev × XRes :=
  let t := xunitTile u
  let seg := ctxSeg s0 tag cls
  let s := if (tileOf s0 t).utlb.any (tlbHits tag seg va acc) then s0 else metroInc s0 t 47 32
  if !xltCheck s t tag then (xltFail s tag, .fail)
  else
    match (tileOf s t).utlb.find? (tlbHits tag seg va acc) with
    | some e => (s, .ok (e.out + (va - e.va)) e.host)
    | none =>
      match (leafTlb s (t / 128)).find? (tlbHits tag seg va acc) with
      | some e => (fillMicro s t e, .ok (e.out + (va - e.va)) e.host)
      | none =>
        let s1 := countMiss s (t / 128)
        if seg then
          match segEnt s1 tag va with
          | some e =>
            if tlbHits tag seg va acc e then
              (fillMicro (fillLeaf s1 (t / 128) e) t e, .ok (e.out + (va - e.va)) e.host)
            else (xltFail s1 tag, .fail)
          | none => (xltFail s1 tag, .fail)
        else (putWant s1 u tag cls acc va, .miss)

/-- What a translated address may lead to (R442), for `n` bytes. -/
def outTarget (s : Dev) (tag cls out n : Nat) (host : Bool) : Option Target :=
  let p := ctxPart s tag
  if host then (if cls ≠ 2 ∧ out + n ≤ 2 ^ 52 then some (.host out) else none)
  else match devDecode out with
    | some (.stacked a) => if inGrants s (partSt s p) a n then some (.stacked a) else none
    | some (.scratch tt o) =>
      if (tileOf s tt).member = p + 1 ∧ populated (o + n - 1) then some (.scratch tt o) else none
    | _ => none

/-- How a checked translation ends. -/
inductive TRes where
  | ok (tgt : Target)
  | fail
  | miss
  deriving DecidableEq, Repr

/-- Translate and check an access of `n` bytes inside one page. -/
def xlate (s : Dev) (u : XUnit) (tag cls acc va n : Nat) : Dev × TRes :=
  match xlatePage s u tag cls acc va with
  | (s1, .ok out host) =>
    match outTarget s1 tag cls out n host with
    | some g => (s1, .ok g)
    | none => (xltFail s1 tag, .fail)
  | (s1, .fail) => (s1, .fail)
  | (s1, .miss) => (s1, .miss)

/-- The pieces of a range that stay within 4 KiB pages: address, length (R441). -/
def pagePieces (a n : Nat) : List (Nat × Nat) :=
  if n = 0 then []
  else (List.range ((a + n - 1) / 4096 + 1 - a / 4096)).map (fun i =>
    let b := max a ((a / 4096 + i) * 4096)
    (b, min (a + n) ((a / 4096 + i + 1) * 4096) - b))

end Sys2Proof.Machine
end

