-- ==== Sys2Proof/Machine/HostLines.lean ====
section
/-! DEFINITION. Host memory as the part reaches it (R482, R496 to R504): the ports and their functions, the lines of the host
line cache and the accesses that wait for them, uncached requests, and the MSI-X messages behind the writes they report. -/

namespace Sys2Proof.Machine
open Sys2Proof

/-! ### Host functions -/

/-- A host port. -/
def hportOf (s : Dev) (p : Nat) : HPort := mget HPort.reset s.hports p
/-- Change a host port. -/
def modHport (s : Dev) (p : Nat) (f : HPort → HPort) : Dev := { s with hports := mmod HPort.reset s.hports p f }
/-- A host function. -/
def fnOf (s : Dev) (p f : Nat) : FnSt := mget FnSt.reset (hportOf s p).fns f
/-- Change a host function. -/
def modFn (s : Dev) (p f : Nat) (g : FnSt → FnSt) : Dev := modHport s p (fun h => { h with fns := mmod FnSt.reset h.fns f g })

/-- The port and function of a context's partition (R442, R450). -/
def ctxFn (s : Dev) (n : Nat) : Nat × Nat := let q := partSt s (ctxPart s n); (pPort q, pFunc q)

/-- The host port of a tile's partition. -/
def tilePort (s : Dev) (t : Nat) : Nat := pPort (partSt s ((tileOf s t).member - 1))

/-- Send an MSI-X message, or leave its pending bit while it is masked or disabled (R524, R751, R769). -/
def sendMsix (s : Dev) (port fn vec : Nat) : Dev :=
  let f := fnOf s port fn
  if f.msixEn && !f.msixMask && !(bit (mget (msixReset (2 * vec + 1)) f.msix (2 * vec + 1)) 32) then send s (.msix port fn vec)
  else if f.msixEn then modFn s port fn (fun f => { f with pba := mset false f.pba vec true })
  else s

/-! ### Addresses (R498) -/

/-- The 13-bit hash of a line address. -/
def hlcHash (line : Nat) : Nat :=
  let l := line % 2 ^ 42
  (l % 8192) ^^^ (l / 2 ^ 13 % 8192) ^^^ (l / 2 ^ 26 % 8192) ^^^ (l / 2 ^ 39 % 8)
/-- The set of a line. -/
def hlcSet (line : Nat) : Nat := hlcHash line / 4
/-- The slice of a line. -/
def hlcSlice (line : Nat) : Nat :=
  let h := hlcHash line
  (h % 4) ^^^ (h / 4 % 4) ^^^ (h / 16 % 4) ^^^ (h / 64 % 4) ^^^ (h / 256 % 4) ^^^ (h / 1024 % 4) ^^^ (h / 4096)

/-- HLC_ registers (R527). -/
def hlcReg (k : Nat) : Nat := 0x060000 + 8 * k

/-- Change the cache. -/
def modHlc (s : Dev) (f : HlcSt → HlcSt) : Dev := { s with hlc := f s.hlc }

/-- Is an entry the line of a port? -/
def isLine (port line : Nat) (l : HLine) : Bool := l.port == port && l.line == line
/-- The line of a port, held or locked. -/
def hlcFind (s : Dev) (port line : Nat) : Option HLine := s.hlc.lines.find? (isLine port line)
/-- The line in the eviction buffer (R504). -/
def hlcEvict (s : Dev) (port line : Nat) : Option HLine := s.hlc.evict.find? (isLine port line)
/-- Are two lines of one set? -/
def sameSet (a b : Nat) : Bool := hlcSlice a == hlcSlice b && hlcSet a == hlcSet b

/-- A line becomes the most recently used, with new contents. (log entry 57, DESIGN CHOICE) -/
def hlcPut (h : HlcSt) (l : HLine) : HlcSt := { h with lines := h.lines.filter (fun x => !(isLine l.port l.line x)) ++ [l] }

/-- Does a held line serve an access: reads in any state, writes with ownership (R499)? -/
def hlcServes (kind : Nat) (l : HLine) : Bool := if kind = 2 ∨ kind = 3 then decide (2 ≤ l.st) else decide (1 ≤ l.st)

/-- Does an access need ownership? -/
def hlcOwns (kind : Nat) : Bool := kind == 2 || kind == 3

/-- The request of an access (R499): 0 RdShared, 1 RdOwn, 2 RdOwnNoData. -/
def hlcOp (kind : Nat) : Nat := match kind with | 2 => 2 | 3 => 1 | _ => 0

/-- Locked ways of a line's set. -/
def lockedWays (s : Dev) (line : Nat) : Nat := s.hlc.lines.countP (fun l => l.locked && sameSet l.line line)

/-! ### Accesses at their lines (R499 to R504) -/

/-- Does an access belong to something that still waits for one (R482)? -/
def hostPending (s : Dev) (a : HostSrc) : Bool :=
  s.hlc.inq.any (fun w => decide (w.src = a)) || s.hlc.wait.any (fun w => decide (w.src = a)) ||
    [0, 1].any (fun p => (hportOf s p).uncov.contains a || (hportOf s p).cov.any (·.contains a))

/-- A source of writes in R482: its writes become visible in the order of issue. -/
def writeSource : HostSrc → HostSrc
  | .record q _ _ => .record q none 0
  | .block t ch _ => .block t ch 0
  | .cas leaf _ _ => .cas leaf 0 0
  | a => a

/-- R502: tiles in ascending logical order, the walkers of leaf A and of leaf B, the work-queue engine; a preload comes last
(log entry 71, DESIGN CHOICE). -/
def hostRank : HostSrc → Nat
  | .load t => t
  | .store t => t
  | .read t _ _ => t
  | .block t _ _ => t
  | .walk leaf _ _ => 256 + leaf
  | .cas leaf _ _ => 256 + leaf
  | .watch leaf => 256 + leaf
  | .fetch _ => 258
  | .record .. => 258
  | .ring _ => 259
  | .preload => 260

/-- A write of a source has become globally visible: a record's MSI-X message follows the last of its writes (R483, R500,
R524). -/
def hostVisible (s : Dev) (a : HostSrc) : Dev :=
  match a with
  | .record _ (some (port, fn, vec)) _ => if hostPending s a then s else sendMsix s port fn vec
  | _ => s

/-- Is an access the second read of a watched line (R457)? -/
def isWatch : HostSrc → Bool
  | .watch _ => true
  | _ => false

/-- Keep what a read has returned for its reader. -/
def hlcGive (s : Dev) (w : HWait) (l : HLine) : Dev :=
  modHlc s (fun h => { h with got := h.got ++ [⟨w.src, w.port, w.line, l.data, l.poison⟩] })

/-- Does a compare-and-swap find what it compares with? -/
def casHits (l : HLine) (w : HWait) : Bool :=
  match w.cmp with | some c => (l.data.drop w.off).take c.length == c | none => true

/-- An access is performed on its line: a read returns it; a write merges its bytes and makes the line Modified (R499, R500);
a compare-and-swap writes only where it finds what it compares with, and returns the line it found (R439); a preload may lock
it (R506). An armed injection poisons the line that becomes Modified (R759, ID 0x3003). -/
def hlcApply (s : Dev) (l : HLine) (w : HWait) : Dev :=
  if hlcOwns w.kind then
    let s0 := if w.cmp.isSome then hlcGive s w l else s
    if !(casHits l w) then modHlc s0 (fun h => hlcPut h l)
    else
      let d := l.data.take w.off ++ w.data ++ l.data.drop (w.off + w.data.length)
      let inj := s.hlc.inject && l.st != 3
      let whole := w.off == 0 && w.data.length == 64
      let s1 := modHlc s0 (fun h => { hlcPut h { l with st := 3, data := d, poison := inj || w.poison || (l.poison && !whole) } with
        inject := h.inject && !inj })
      if inj then
        raiseErr (ioInc s1 (hlcReg 5) 47 32 1) none 0x3003 1 (hlcSlice w.line) none (64 * w.line) (2 ^ 62)
      else s1
  else if w.kind = 5 ∧ !l.locked then
    (if lockedWays s w.line < fld (ioGet s (hlcReg 0)) 3 0 then modHlc s (fun h => hlcPut h { l with locked := true })
     else ioInc s (hlcReg 3) 31 16 1)
  else if w.kind ≤ 1 ∧ !(isWatch w.src) then hlcGive (modHlc s (fun h => hlcPut h l)) w l
  else modHlc s (fun h => hlcPut h l)

/-- Two accesses to one line. -/
def sameLine (a b : HWait) : Bool := a.port == b.port && a.line == b.line

/-- Is an access the first of those that wait on its line (R501)? -/
def firstOnLine (s : Dev) (w : HWait) : Bool := s.hlc.wait.find? (sameLine w) == some w

/-- Does a write wait for an earlier write of its source (R482, R500)? -/
def behindWrite (s : Dev) (w : HWait) : Bool :=
  hlcOwns w.kind && (s.hlc.inq ++ s.hlc.wait).any (fun v =>
    hlcOwns v.kind && decide (v.ord < w.ord) && decide (writeSource v.src = writeSource w.src))

/-- The line an access can be performed on now, if it can (R499, R501). -/
def hlcReady (s : Dev) (w : HWait) : Option HLine :=
  if !(firstOnLine s w) || s.hlc.reqs.contains (w.port, w.line) || behindWrite s w then none
  else (hlcFind s w.port w.line).bind (fun l => if hlcServes w.kind l then some l else none)

/-- Does an access need a request of its own now: its line is not held as it needs it, no request or writeback of the line is
outstanding, and one of the slice's 64 entries is free (R501, R504)? -/
def hlcNeeds (s : Dev) (w : HWait) : Bool :=
  firstOnLine s w && !(s.hlc.reqs.contains (w.port, w.line)) && (hlcEvict s w.port w.line).isNone &&
    !((hlcFind s w.port w.line).any (hlcServes w.kind)) &&
    decide (s.hlc.reqs.countP (fun r => hlcSlice r.2 == hlcSlice w.line) < 64)

/-- Send the request of an access for its line (R499). -/
def hlcAsk (s : Dev) (w : HWait) : Dev :=
  send (modHlc s (fun h => { h with reqs := h.reqs ++ [(w.port, w.line)] })) (.cxl w.port (hlcOp w.kind) (64 * w.line) [])

/-- Perform every access that can be performed, in arrival order, and send every request that is needed (R501). -/
def hlcPump : (n : Nat) → Dev → Dev
  | 0, s => s
  | n + 1, s =>
    match s.hlc.wait.findSome? (fun w => (hlcReady s w).map (fun l => (w, l))) with
    | some (w, l) => hlcPump n (hostVisible (hlcApply (modHlc s (fun h => { h with wait := h.wait.erase w })) l w) w.src)
    | none =>
      match s.hlc.wait.find? (hlcNeeds s) with
      | some w => hlcPump n (hlcAsk s w)
      | none => s

/-- Enough steps for every access that waits to ask for its line and to be performed. -/
def hlcSettle (s : Dev) : Dev := hlcPump (2 * s.hlc.wait.length) s

/-- An access reaches its slice: a hit, a miss, or behind an outstanding request or writeback (R499 to R504). -/
def hlcReach (s : Dev) (w : HWait) : Dev :=
  let s1 := if (hlcFind s w.port w.line).any (hlcServes w.kind) then ioInc s (hlcReg 4) 31 0 1
    else if s.hlc.reqs.contains (w.port, w.line) || (hlcEvict s w.port w.line).isSome then s
    else ioInc s (hlcReg 4) 63 32 1
  hlcSettle (modHlc s1 (fun h => { h with wait := h.wait ++ [w] }))

/-! ### Reads and writes of host memory (R482, R496) -/

/-- The pieces of a range that stay within lines. -/
def linePieces (a n : Nat) : List (Nat × Nat) :=
  if n = 0 then []
  else (List.range ((a + n - 1) / 64 + 1 - a / 64)).map (fun i =>
    let b := max a ((a / 64 + i) * 64)
    (b, min (a + n) ((a / 64 + i + 1) * 64) - b))

/-- Issue an access towards its slice. -/
def hlcIssue (s : Dev) (port line kind off : Nat) (data : List Byte) (src : HostSrc) (cmp : Option (List Byte)) (poison : Bool) : Dev :=
  modHlc s (fun h => { h with inq := h.inq ++ [⟨port, line, kind, off, data, src, h.ctr, cmp, poison⟩], ctr := h.ctr + 1 })

/-- What a source has read or still waits to read is dropped. -/
def hostForget (s : Dev) (a : HostSrc) : Dev :=
  modHlc s (fun h => { h with
    inq := h.inq.filter (fun w => decide (w.src ≠ a)), wait := h.wait.filter (fun w => decide (w.src ≠ a))
    got := h.got.filter (fun g => decide (g.src ≠ a)) })

/-- A read of host memory (R496): of lines through the cache, or a request on the link where that is up. -/
def hostRead (s : Dev) (src : HostSrc) (kind port a n : Nat) : Dev :=
  if (hportOf s port).cache then
    (linePieces a n).foldl (fun s p => hlcIssue s port (p.1 / 64) kind (p.1 % 64) [] src none false) s
  else if (hportOf s port).dlUp then send s (.hostRead port a n)
  else s

/-- What a read through the cache has returned, once it is whole: the bytes and whether one is poisoned. -/
def hostGot (s : Dev) (src : HostSrc) (port a n : Nat) : Option (List Byte × Bool) :=
  let l := (linePieces a n).map (fun p =>
    (s.hlc.got.find? (fun g => decide (g.src = src) && g.port == port && g.line == p.1 / 64)).map (fun g =>
      ((g.data.drop (p.1 % 64)).take p.2, g.poison)))
  if l.all (·.isSome) then some (l.flatMap (fun o => (o.map (·.1)).getD []), l.any (fun o => (o.map (·.2)).getD false)) else none

/-- A write of host memory (R482, R496): into lines through the cache, or `m` sent on the link, which a flush read must then
cover. A write towards a link that is down is discarded (R491). -/
def hostPut (s : Dev) (src : HostSrc) (port a : Nat) (bs : List Byte) (poison : Bool) (m : Msg) : Dev :=
  if (hportOf s port).cache then
    (linePieces a bs.length).foldl (fun s p =>
      hlcIssue s port (p.1 / 64) (if p.2 = 64 then 2 else 3) (p.1 % 64) ((bs.drop (p.1 - a)).take p.2) src none poison) s
  else if (hportOf s port).dlUp then modHport (send s m) port (fun h => { h with uncov := h.uncov ++ [src] })
  else s

/-- The writes that await their commit become covered by a flush read (R482). -/
def coverWrites (s : Dev) (port : Nat) : Dev := modHport s port (fun h => { h with uncov := [], cov := h.cov ++ [h.uncov] })

/-- The oldest flush read of a port has completed: the writes it covers are globally visible (R482). -/
def flushDone (s : Dev) (port : Nat) : Dev :=
  match (hportOf s port).cov with
  | l :: _ => l.dedup.foldl hostVisible (modHport s port (fun h => { h with cov := h.cov.drop 1 }))
  | [] => s

/-- A flush read that failed covers nothing: its writes await another (log entry 72, DESIGN CHOICE). -/
def flushFailed (s : Dev) (port : Nat) : Dev :=
  modHport s port (fun h => { h with uncov := (h.cov.headD []) ++ h.uncov, cov := h.cov.drop 1 })

end Sys2Proof.Machine
end

