-- ==== Sys2Proof/Machine/Issue.lean ====
section
/-! DEFINITION. Issuing one instruction: what is found in D, the guard, the work and its end (R179 to R185, R204). -/

namespace Sys2Proof.Machine
open Sys2Proof

/-- An uncorrectable fetch word is recorded and raised (R213, R215, ID 0x1005). -/
def raiseIstoreUe (s : Dev) (ti : TileId) (t : Tile) : Dev :=
  let c := t.core
  let s1 := tileErr (setTile s ti t) ti 0x1005 1 (coreCtx t) (c.pc.toNat / 8 * 8)
    (if fetchInjected c then 2 ^ 62 else 0)
  modTile s1 ti (fun _ => enterException { t with core := { c with
    istoreEcc := setFld (setBit c.istoreEcc 16 true) 33 17 (c.pc.toNat / 8 * 8) } } 12 0 0)

/-- Take what an instruction's work ends in. -/
def finish (s : Dev) (ti : Nat) (t : Tile) (size : Nat) : Res → Dev
  | .done s' t' occ => setTile s' ti (advance t' size occ)
  | .jump s' t' target => setTile s' ti (takeBranch t' target)
  | .raw s' t' => setTile s' ti t'
  | .exc code sub bad => setTile s ti (enterException t code sub bad)
  | .stall s' t' => setTile s' ti t'

/-- Issue one instruction: pending writes due land, then the faults of D, then the guard, then the work (R179 to
R185); a core whose RUN was cleared while the instruction stalled halts after it (R206). A core that cannot issue, or a part whose issue is held, leaves everything as it is. (log entry 2, DESIGN CHOICE) -/
def issue (s : Dev) (ti : TileId) (gu : Guard) (size : Nat) (illegal : Tile → Bool) (body : Tile → Res) : Dev :=
  let t0 := tileOf s ti
  if s.hold || !canIssue t0 then s
  else
    let t := landDue t0
    let s1 := match fetchFault t size (illegal t) with
      | some 12 => raiseIstoreUe s ti t
      | some c => setTile s ti (enterException t c 0 0)
      | none =>
        if !guardOf t gu then setTile s ti (advance t size 1)
        else finish s ti t size (body t)
    if t0.core.run then s1 else settle s1 ti

/-- Issue an instruction that only changes its own tile, with a fixed occupancy. -/
def issueT (s : Dev) (ti : TileId) (gu : Guard) (size occ : Nat) (illegal : Bool) (f : Tile → Tile) : Dev :=
  issue s ti gu size (fun _ => illegal) (fun t => .done s (f t) occ)

/-- The cycles a stall lasts are not fixed by the spec: a free value (log entry 6, DESIGN CHOICE). -/
def stallFor (s : Dev) (t : Tile) (count : CoreSt → Nat → CoreSt) : Res :=
  let k := Config.freeCycles s.freeCtr
  .stall (drawFree s) { t with core := count { t.core with cycle := countUp t.core.cycle k, stalled := true } k }

/-- A stall that no TCB_STALL_ counter counts. -/
def stallPlain (s : Dev) (t : Tile) : Res := stallFor s t (fun c _ => c)
/-- A wait that an interrupt or a halt may abandon (R200, R386). -/
def stallWait (s : Dev) (t : Tile) : Res := stallFor s t (fun c _ => { c with stalled := false })
/-- A stall under R197. -/
def stallPartial (s : Dev) (t : Tile) : Res := stallFor s t (fun c k => { c with stallPartial := incFld c.stallPartial 63 0 k })
/-- A stall with the store buffer full (R195). -/
def stallSbFull (s : Dev) (t : Tile) : Res := stallFor s t (fun c k => { c with stallOther := incFld c.stallOther 31 0 k })
/-- A stall that waits for load data or translation (R188, R200). -/
def stallLoad (s : Dev) (t : Tile) : Res :=
  stallFor s t (fun c k => { c with stallOther := incFld c.stallOther 63 32 k, stalled := false })

end Sys2Proof.Machine
end

