-- ==== Sys2Proof/Machine/Operands.lean ====
section
/-! DEFINITION. What the integer functions compute on their operands (R230 to R236): ALU functions, shifts,
products and quotients, compares, predicate logic, and the extension of loaded values. -/

namespace Sys2Proof.Machine
open Sys2Proof

/-- A 32-bit result, sign-extended (R230). -/
def sx32 (v : BitVec 32) : Word := v.signExtend 64
/-- The low 32 bits of a register. -/
def lo32 (w : Word) : BitVec 32 := w.truncate 32

/-- Shift by a count: kind 0 left, 1 right with zero fill, 2 right with sign fill; `.w` works on 32 bits (R230, R231). -/
def shiftOp (kind : Nat) (w : Bool) (a : Word) (n : Nat) : Word :=
  if w then
    let x := lo32 a
    sx32 (match kind with | 0 => x <<< n | 1 => x >>> n | _ => x.sshiftRight n)
  else match kind with | 0 => a <<< n | 1 => a >>> n | _ => a.sshiftRight n

/-- The bytes of a word in the other order (R230). -/
def bswap64 (a : Word) : Word :=
  (List.range 8).foldl (fun acc i => (acc <<< 8) ||| ((a >>> (8 * i)) &&& 0xFF)) 0

/-- The ALU functions 0x00 to 0x1A (R230). -/
def aluOp (fn : Nat) (a b : Word) : Word :=
  match fn with
  | 0x00 => a + b
  | 0x01 => a - b
  | 0x02 => a &&& b
  | 0x03 => a ||| b
  | 0x04 => a ^^^ b
  | 0x05 => a &&& ~~~b
  | 0x06 => shiftOp 0 false a (fld b 5 0)
  | 0x07 => shiftOp 1 false a (fld b 5 0)
  | 0x08 => shiftOp 2 false a (fld b 5 0)
  | 0x09 => if b.slt a then b else a
  | 0x0A => if a.slt b then b else a
  | 0x0B => if b.ult a then b else a
  | 0x0C => if a.ult b then b else a
  | 0x0D => sx32 (lo32 a + lo32 b)
  | 0x0E => sx32 (lo32 a - lo32 b)
  | 0x0F => shiftOp 0 true a (fld b 4 0)
  | 0x10 => shiftOp 1 true a (fld b 4 0)
  | 0x11 => shiftOp 2 true a (fld b 4 0)
  | 0x12 => BitVec.ofNat 64 (clz64 a)
  | 0x13 => BitVec.ofNat 64 (ctz64 a)
  | 0x14 => BitVec.ofNat 64 (popc 64 a.toNat)
  | 0x15 => bswap64 a
  | 0x16 => sext64 8 a.toNat
  | 0x17 => sext64 16 a.toNat
  | 0x18 => sext64 32 a.toNat
  | 0x19 => BitVec.ofNat 64 (fld a 15 0)
  | _ => BitVec.ofNat 64 (fld a 31 0)

/-- Reserved ALU encodings (R223, R230): a reserved function, or a unary form with RB not zero. -/
def aluIllegal (fn rb : Nat) : Bool := decide (0x1A < fn) || (decide (0x12 ≤ fn) && decide (rb ≠ 0))

/-- The products (R189, R232): PLO and PHI. -/
def mulOp (sgn : Bool) (a b : Word) : Word × Word :=
  let p : Int := if sgn then a.toInt * b.toInt else (a.toNat : Int) * b.toNat
  (BitVec.ofInt 64 p, BitVec.ofInt 64 (p / 2 ^ 64))

/-- The quotients (R191, R232): PLO and PHI, of `n`-bit operands, signed or not; results extended to 64 bits. -/
def divOp (sgn : Bool) (n : Nat) (a b : Word) : Word × Word :=
  let ext (v : Nat) : Word := if sgn then sext64 n v else BitVec.ofNat 64 (v % 2 ^ n)
  let x := a.toNat % 2 ^ n
  let y := b.toNat % 2 ^ n
  if y = 0 then (ext (2 ^ n - 1), ext x)
  else if sgn then
    let q := Int.tdiv (toSigned n x) (toSigned n y)
    let r := Int.tmod (toSigned n x) (toSigned n y)
    (ext (ofSigned n q), ext (ofSigned n r))
  else (ext (x / y), ext (x % y))

/-- The compare conditions (R234). -/
def condOp (cc : Nat) (a b : Word) : Bool :=
  match cc with
  | 0 => a == b
  | 1 => a != b
  | 2 => a.slt b
  | 3 => !(a.slt b)
  | 4 => a.ult b
  | 5 => !(a.ult b)
  | 6 => (a &&& b) != 0
  | _ => (a &&& b) == 0

/-- The predicate functions (R235): pand, por, pxor, pandn, pnand, pnor. -/
def plogicOp (fn : Nat) (a b : Bool) : Bool :=
  match fn with
  | 0 => a && b
  | 1 => a || b
  | 2 => a != b
  | 3 => a && !b
  | 4 => !(a && b)
  | _ => !(a || b)

/-- The bytes a load reads, by its place among majors 0x10 to 0x16 (R236). -/
def loadSize (op : Nat) : Nat :=
  match op with | 0 => 1 | 1 => 1 | 2 => 2 | 3 => 2 | 4 => 4 | 5 => 4 | _ => 8

/-- A loaded value extended (R236): even places below 6 sign-extend. -/
def loadExt (op : Nat) (v : Nat) : Word :=
  if op % 2 = 0 ∧ op < 6 then sext64 (8 * loadSize op) v else BitVec.ofNat 64 (v % 2 ^ (8 * loadSize op))

/-- The bytes a store writes, by its place among majors 0x18 to 0x1B (R236). -/
def storeSize (op : Nat) : Nat := 2 ^ op

end Sys2Proof.Machine
end

