-- ==== Sys2Proof/Machine/Access.lean ====
section
/-! DEFINITION. Scalar and short-vector accesses (R193 to R200, R247, R248): the checks made at issue, the store
buffer and its forwarding, loads that wait for another target, and the memory instructions. -/

namespace Sys2Proof.Machine
open Sys2Proof

/-- Does a register of the I/O-die control space hold a WO field (R765)? -/
def ioHasWo (o : Nat) : Bool :=
  o == 0x020028 || o == 0x030018 || o == 0x030020 || o == 0x040008 || o == 0x000408 || o == 0x000448 ||
  o == 0x060000 || o == 0x060010 || o == 0x0C0000 || o == 0x0D0000 || o == 0x0E0010 ||
  (decide (0x080000 ≤ o) && decide (o < 0x090000) && (o % 0x100 == 0 || o % 0x100 == 0x88 || o % 0x100 == 0x90 || o % 0x100 == 0x98)) ||
  (decide (0x0B0100 ≤ o) && decide (o < 0x0B0400) && o % 0x20 == 8)

/-- Does a tile control block register hold a WO field (R765)? -/
def tcbHasWo (o : Nat) : Bool :=
  o == 0 || o == 0x18 || o == 0x408 || (decide (0x900 ≤ o) && decide (o < 0xA00) && o % 0x40 == 0x10)

/-- Is a control-block offset inside a window, a byte array and no register (R765)? -/
def tcbWindow (o : Nat) : Bool :=
  (decide (0x4000 ≤ o) && decide (o < 0x4800)) || (decide (0x5000 ≤ o) && decide (o < 0x6000)) ||
    (decide (0x8000 ≤ o) && decide (o < 0x9000))

/-- The width rule of a target outside the scratchpad (R378, R765): an exception code, or none. `v` is what a store
carries. -/
def widthFault (g : Target) (wr : Bool) (a n v : Nat) : Option Nat :=
  match g with
  | .dowel _ _ =>
    if wr then (if n = 8 ∧ a % 8 = 0 ∧ v / 2 ^ 32 % 4 ≠ 3 ∧ v / 2 ^ 34 = 0 then none else some 7)
    else if (n = 8 ∧ a % 8 = 0) ∨ (n = 4 ∧ a % 4 = 0) then none else some 7
  | .tcb _ o =>
    if tcbWindow o then none
    else if ¬ ((n = 8 ∨ n = 4) ∧ a % n = 0) then some 5
    else if wr ∧ n = 4 ∧ tcbHasWo (o / 8 * 8) then some 7 else none
  | .io o =>
    if ¬ ((n = 8 ∨ n = 4) ∧ a % n = 0) then some 5
    else if wr ∧ n = 4 ∧ ioHasWo (o / 8 * 8) then some 7 else none
  | _ => none

/-- Is a target the tile's own scratchpad? -/
def isOwn (t : Nat) : Target → Bool
  | .scratch tt _ => tt == t
  | _ => false
/-- Is a target host memory? -/
def isHost : Target → Bool
  | .host _ => true
  | _ => false
/-- Is a target scratchpad? -/
def isScratch : Target → Bool
  | .scratch .. => true
  | _ => false

/-- Where one piece of a scalar access leads (R203, R430, R762). -/
def coreTarget (s : Dev) (t : Nat) (wr : Bool) (va n : Nat) : Dev × TRes :=
  let x := tileOf s t
  if isUser x then xlate s (.core t) (fld x.core.ctx 7 0) 0 (b2n wr) va n
  else match monitorTarget s t va n wr with
    | some g => (s, .ok g)
    | none => (s, .fail)

/-- What a drawer says of a piece (R354, R355, R363): 0 go on, 1 ownership fault, 2 stall. -/
def drawerSays (s : Dev) (t : Nat) (wr : Bool) : Target → Nat
  | .scratch tt off =>
    let y := tileOf s tt
    if tt = t then
      (if drawerBusy y off then 2
       else if portMay y 0 (isUser y) (fld y.core.ctx 7 0) off then 0 else 1)
    else if !wr then 0
    else if drawerBusy y off then 2
    else if transferMay y off then 0 else 1
  | _ => 0

/-- How the checks of an access end. -/
inductive ChkRes where
  | ok (s : Dev) (parts : List (Target × Nat × Nat))
  | fin (r : Res)

/-- Raise an exception on a state that already holds the tile. -/
def excAt (s : Dev) (t : Nat) (code sub : Nat) (bad : Nat) : Res :=
  .raw s (enterException (tileOf s t) code sub (BitVec.ofNat 64 bad))

/-- Translate the pieces of an access in order, up to the first that waits: address, bytes. -/
def targetsOf (s : Dev) (t : Nat) (wr : Bool) : List (Nat × Nat) → Dev × List (Nat × Nat × TRes)
  | [] => (s, [])
  | (a, n) :: r =>
    let p := coreTarget s t wr a n
    if p.2 = .miss then (p.1, [(a, n, .miss)])
    else
      let q := targetsOf p.1 t wr r
      (q.1, (a, n, p.2) :: q.2)

/-- The index of the first piece that satisfies a test. -/
def firstPiece (l : List (Nat × Nat × TRes)) (f : Nat × Nat × TRes → Bool) : Option (Nat × Nat) :=
  (l.zipIdx.find? (fun p => f p.1)).map (fun p => (p.2, p.1.1))

/-- Does an address lead somewhere other than scratchpad, whatever the permissions say (R356)? A segment or a cached
translation tells; a page not yet walked does not. -/
def leadsElsewhere (s : Dev) (t va : Nat) : Bool :=
  let x := tileOf s t
  let tag := fld x.core.ctx 7 0
  let other (out : Nat) : Bool := match devDecode out with | some g => !(isScratch g) | none => false
  if isUser x then
    let seg := ctxSeg s tag 0
    let holds (e : TlbEnt) : Bool := e.tag == tag && e.seg == seg && decide (e.va ≤ va) && decide (va < e.va + 2 ^ e.lg)
    xltCheck s t tag &&
      (match (if seg then segEnt s tag va else (x.utlb ++ leafTlb s (t / 128)).find? holds) with
       | some e => e.host || other (e.out + (va - e.va))
       | none => false)
  else other va

/-- Does a piece lead to something other than scratchpad? -/
def notScratch (s : Dev) (t : Nat) (p : Nat × Nat × TRes) : Bool :=
  match p.2.2 with | .ok g => !(isScratch g) | .fail => leadsElsewhere s t p.1 | .miss => false

/-- The checks of an access made of pieces, in the order DALIGN, ACCESS, DRAWER (R194, R356). A walk or a page fault
makes the access wait (R200), zeroing stalls it (R363). -/
def checkParts (s : Dev) (t : Nat) (wr : Bool) (v : Nat) (pieces : List (Nat × Nat)) : ChkRes :=
  let r := targetsOf s t wr pieces
  let s1 := r.1
  let l := r.2
  match pieces with
  | [] => .ok s1 []
  | p0 :: _ =>
    if decide (1 < pieces.length) && l.any (notScratch s1 t) then .fin (excAt s1 t 5 0 p0.1)
    else
      match firstPiece l (fun p => match p.2.2 with
          | .ok g => widthFault g wr p.1 p.2.1 v == some 5 | _ => false) with
      | some q => .fin (excAt s1 t 5 q.1 q.2)
      | none =>
        match firstPiece l (fun p => match p.2.2 with
            | .ok g => widthFault g wr p.1 p.2.1 v == some 7 | .fail => true | .miss => false) with
        | some q => .fin (excAt s1 t 7 q.1 q.2)
        | none =>
          match firstPiece l (fun p => match p.2.2 with | .miss => true | _ => false) with
          | some q =>
            let x := tileOf s1 t
            .fin (stallLoad s1 { x with core := { x.core with wait := .xlate q.2 q.1 false } })
          | none =>
            match firstPiece l (fun p => match p.2.2 with | .ok g => drawerSays s1 t wr g == 2 | _ => false) with
            | some _ => let s2 := metroInc s1 t 47 32; .fin (stallPlain s2 (tileOf s2 t))
            | none =>
              match l.zipIdx.find? (fun p => match p.1.2.2 with | .ok g => drawerSays s1 t wr g == 1 | _ => false) with
              | some p =>
                let s2 := match p.1.2.2 with
                  | .ok (.scratch tt off) => modTile s1 tt (fun y => drawerFault y (if tt = t then 0 else 5) off)
                  | _ => s1
                .fin (excAt s2 t 6 p.2 p.1.1)
              | none => .ok s1 (l.filterMap (fun p => match p.2.2 with | .ok g => some (g, p.1, p.2.1) | _ => none))

/-- The pieces of a scalar access: it is split where it crosses an 8-byte boundary (R193). -/
def splitAccess (va n : Nat) : List (Nat × Nat) :=
  if va % 8 + n ≤ 8 then [(va, n)]
  else [(va, 8 - va % 8), ((va + (8 - va % 8)) % 2 ^ 64, n - (8 - va % 8))]

/-! ### The store buffer -/

/-- Does a buffered store overlap a range of the tile's own scratchpad? -/
def sbOverlaps (t off n : Nat) (e : SbEntry) : Bool :=
  match e.tgt with
  | .scratch tt o => tt == t && decide (o < off + n) && decide (off < o + e.n)
  | _ => false

/-- The youngest buffered store that overlaps a range (R196). -/
def youngest (x : Tile) (t off n : Nat) : Option SbEntry := x.core.sb.reverse.find? (sbOverlaps t off n)

/-- What a piece of an own-scratchpad load finds: forwarded bytes, a stall, poison, or bytes read (R196, R197,
R368). -/
inductive PieceRes where
  | bytes (v : List Byte)
  | stall
  | poison
  | read

/-- Judge a piece against the store buffer (R196, R197). -/
def forwardPiece (x : Tile) (t off n : Nat) : PieceRes :=
  match youngest x t off n with
  | none => .read
  | some e =>
    match e.tgt with
    | .scratch _ o =>
      if o ≤ off ∧ off + n ≤ o + e.n then .bytes ((leBytes e.n e.val.toNat).drop (off - o) |>.take n)
      else .stall
    | _ => .stall

/-- A load met a poisoned word (R368, ID 0x1003). -/
def poisonExc (s : Dev) (t sub bad : Nat) : Res :=
  excAt (tileErr s t 0x1003 1 (coreCtx (tileOf s t)) bad 0) t 8 sub bad

/-- Read the pieces of an own-scratchpad load, `k` the index of the first. -/
def readOwn (s : Dev) (t : Nat) : (k : Nat) → List (Target × Nat × Nat) → Dev × Except Res (List Byte)
  | _, [] => (s, .ok [])
  | k, (g, a, n) :: r =>
    match g with
    | .scratch _ off =>
      match forwardPiece (tileOf s t) t off n with
      | .bytes v =>
        match readOwn s t (k + 1) r with
        | (s2, .ok w) => (s2, .ok (v ++ w))
        | e => e
      | .stall => (s, .error (stallPartial s (tileOf s t)))
      | .poison => (s, .error (poisonExc s t k a))
      | .read =>
        let s1 := spadTouch s t off
        if spadPoisoned (tileOf s1 t) off n then (s1, .error (poisonExc s1 t k a))
        else
          match readOwn s1 t (k + 1) r with
          | (s2, .ok w) => (s2, .ok (spadGet (tileOf s1 t) off n ++ w))
          | e => e
    | _ => (s, .ok [])

/-- The reads of host memory that a load makes (R484, R496). -/
def loadHost (s : Dev) (t : Nat) (parts : List (Target × Nat × Nat)) : Dev :=
  if parts.any (fun p => isHost p.1) then
    parts.foldl (fun s p => match p.1 with | .host a => hostRead s (.load t) 0 (tilePort s t) a p.2.2 | _ => s) (hostForget s (.load t))
  else s

/-- The body of a scalar load of place `op` at an address (R236, R186 to R200). -/
def loadBody (s : Dev) (ti : TileId) (op rd : Nat) (va : Word) (size : Nat) (x : Tile) : Res :=
  match checkParts (setTile s ti x) ti false 0 (splitAccess va.toNat (loadSize op)) with
  | .fin r => r
  | .ok s1 parts =>
    if parts.all (fun p => isOwn ti p.1) then
      match readOwn s1 ti 0 parts with
      | (_, .error r) => r
      | (s2, .ok bs) => .done s2 (pendLoad (tileOf s2 ti) rd (loadExt op (leNat bs))) 1
    else
      let x1 := tileOf s1 ti
      if !(x1.core.sb.isEmpty) then stallPlain s1 x1
      else .raw (loadHost s1 ti parts) { x1 with core := { x1.core with wait := .load ⟨op, rd, parts, size, 0⟩ } }

/-- Enter a store's pieces into the buffer, each with its bytes of the value (R195). -/
def sbPieces (v : Nat) : List (Target × Nat × Nat) → List SbEntry
  | [] => []
  | (g, _, n) :: r => ⟨g, n, BitVec.ofNat 64 (v % 2 ^ (8 * n))⟩ :: sbPieces (v / 2 ^ (8 * n)) r

/-- Fold a store's aligned units, ascending (R659 TYPE 5). -/
def foldPieces (v : Nat) (x : Tile) : List (Target × Nat × Nat) → Tile
  | [] => x
  | (_, a, n) :: r =>
    foldPieces (v / 2 ^ (8 * n)) (foldStore x ((2 ^ n - 1) * 2 ^ (a % 8)) (a / 8 * 8)
      (BitVec.ofNat 64 (v % 2 ^ (8 * n) * 2 ^ (8 * (a % 8))))) r

/-- Put a store into the buffer, whole or not at all (R195, R248). -/
def enterStore (s : Dev) (ti : TileId) (v : Nat) (parts : List (Target × Nat × Nat)) (occ : Nat) : Res :=
  let x := tileOf s ti
  if 8 < x.core.sb.length + parts.length then stallSbFull s x
  else
    let x1 : Tile := { x with core := { x.core with sb := x.core.sb ++ sbPieces v parts } }
    .done s (foldPieces v x1 parts) occ

/-- The body of a scalar store of place `op` (R236). -/
def storeBody (s : Dev) (ti : TileId) (op rs : Nat) (va : Word) (x : Tile) : Res :=
  let v := (getG x rs).toNat % 2 ^ (8 * storeSize op)
  match checkParts (setTile s ti x) ti true v (splitAccess va.toNat (storeSize op)) with
  | .fin r => r
  | .ok s1 parts => enterStore s1 ti v parts 1

/-- R236: a load from ga + sext(IMM11). -/
def execLoad (t : TileId) (gu : Guard) (op : Fin 7) (rd ra : RegNo) (imm : BitVec 11) (sys : State) :
    Host.Outcome State Fault Refusal := onDev sys fun s =>
  issue s t gu 4 (fun _ => false) (fun x => loadBody s t op rd (getG x ra + imm.signExtend 64) 4 x)

/-- R236: a store to ga + sext(IMM11). -/
def execStore (t : TileId) (gu : Guard) (op : Fin 4) (rs ra : RegNo) (imm : BitVec 11) (sys : State) :
    Host.Outcome State Fault Refusal := onDev sys fun s =>
  issue s t gu 4 (fun _ => false) (fun x => storeBody s t op rs (getG x ra + imm.signExtend 64) x)

/-- R233: a load from ga + sext(IMM32). -/
def execLongLoad (t : TileId) (gu : Guard) (op : Fin 7) (rd ra : RegNo) (imm : BitVec 32) (sys : State) :
    Host.Outcome State Fault Refusal := onDev sys fun s =>
  issue s t gu 8 (fun _ => false) (fun x => loadBody s t op rd (getG x ra + imm.signExtend 64) 8 x)

/-- R233: a store to ga + sext(IMM32). -/
def execLongStore (t : TileId) (gu : Guard) (op : Fin 4) (rs ra : RegNo) (imm : BitVec 32) (sys : State) :
    Host.Outcome State Fault Refusal := onDev sys fun s =>
  issue s t gu 8 (fun _ => false) (fun x => storeBody s t op rs (getG x ra + imm.signExtend 64) x)

/-! ### Short-vector memory (R247, R248) -/

/-- May a short-vector access reach a target (R247)? -/
def svTarget : Target → Bool
  | .scratch .. => true
  | .stacked _ => true
  | .host _ => true
  | _ => false

/-- The 8-byte units of a short-vector access on its one target. -/
def svParts (g : Target) (va : Nat) (k : Nat) : List (Target × Nat × Nat) :=
  (List.range k).map (fun i => (match g with
    | .scratch t o => .scratch t (o + 8 * i)
    | .stacked a => .stacked (a + 8 * i)
    | .host a => .host (a + 8 * i)
    | other => other, va + 8 * i, 8))

/-- The check of a short-vector access: alignment, then one translation and check of the whole; a target that is neither
scratchpad nor memory raises ACCESS whatever widths it takes (R247). -/
def svCheck (s : Dev) (ti : TileId) (wr : Bool) (va n : Nat) : ChkRes :=
  if va % n ≠ 0 then .fin (excAt s ti 5 0 va)
  else
    match coreTarget s ti wr va n with
    | (s1, .ok g) => if svTarget g then checkParts s ti wr 0 [(va, n)] else .fin (excAt s1 ti 7 0 va)
    | _ => checkParts s ti wr 0 [(va, n)]

/-- Does a buffered store overlap `n` bytes of a target (R248)? -/
def sbMeets (g : Target) (n : Nat) (e : SbEntry) : Bool :=
  let meets (o a : Nat) : Bool := decide (o < a + n) && decide (a < o + e.n)
  match g, e.tgt with
  | .scratch t a, .scratch u o => t == u && meets o a
  | .stacked a, .stacked o => meets o a
  | .host a, .host o => meets o a
  | _, _ => false

/-- A short-vector load of another target waits for the store buffer, as a stall of R197 where a buffered store overlaps it,
and then for its data (R198, R248). -/
def svWait (s : Dev) (t : Nat) (x : Tile) (full : Bool) (v : PredNo) (parts : List (Target × Nat × Nat)) : Res :=
  if parts.any (fun p => x.core.sb.any (sbMeets p.1 p.2.2)) then stallPartial s x
  else if !(x.core.sb.isEmpty) then stallPlain s x
  else .raw (loadHost s t parts) { x with core := { x.core with wait := .load ⟨if full then 10 else 7, v, parts, 4, 0⟩ } }

/-- R247, R248: loads 32 or 64 bytes. -/
def execSvld (t : TileId) (gu : Guard) (full : Bool) (v : PredNo) (ra : RegNo) (imm : BitVec 10) (sys : State) :
    Host.Outcome State Fault Refusal := onDev sys fun s =>
  issue s t gu 4 (fun _ => false) (fun x =>
    let n := if full then 64 else 32
    let va := (getG x ra + imm.signExtend 64 * BitVec.ofNat 64 n).toNat
    match svCheck (setTile s t x) t false va n with
    | .fin r => r
    | .ok s1 [(.scratch tt off, a, m)] =>
      let x1 := tileOf s1 t
      if tt = t.val then
        if x1.core.sb.any (sbOverlaps t off n) then stallPartial s1 x1
        else
          let s2 := spadTouch s1 t off
          let x2 := tileOf s2 t
          if spadPoisoned x2 off n then poisonExc s2 t 0 va
          else .done s2 (setSv x2 v full (leNat (spadGet x2 off n))) (n / 8)
      else svWait s1 t x1 full v [(.scratch tt off, a, m)]
    | .ok s1 parts => svWait s1 t (tileOf s1 t) full v parts)

/-- R247, R248: stores 32 or 64 bytes as 4 or 8 entries. -/
def execSvst (t : TileId) (gu : Guard) (full : Bool) (v : PredNo) (ra : RegNo) (imm : BitVec 10) (sys : State) :
    Host.Outcome State Fault Refusal := onDev sys fun s =>
  issue s t gu 4 (fun _ => false) (fun x =>
    let n := if full then 64 else 32
    let va := (getG x ra + imm.signExtend 64 * BitVec.ofNat 64 n).toNat
    match svCheck (setTile s t x) t true va n with
    | .fin r => r
    | .ok s1 [(g, a, _)] => enterStore s1 t ((getSv x v).toNat % 2 ^ (8 * n)) (svParts g a (n / 8)) (n / 8)
    | .ok s1 _ => .done s1 (tileOf s1 t) 1)

/-! ### Fences, interrupts and halts -/

/-- Are all earlier long-vector instructions complete (R272)? -/
def lvIdle (x : Tile) : Bool := x.lvu.queue.isEmpty

/-- R240, R199, R272, R314: waits for the stores and the long-vector unit, then raises ENGINE if an error is
recorded. -/
def execFence (t : TileId) (gu : Guard) (sys : State) : Host.Outcome State Fault Refusal := onDev sys fun s =>
  issue s t gu 4 (fun _ => false) (fun x =>
    if !(storesDrained x && lvIdle x) then stallPlain s x
    else if bit x.core.engErr 0 || bit x.core.engErr 1 then .exc 11 0 0
    else .done s x 1)

/-- A tile's registrations and the wakes on their way to it are withdrawn (R386). -/
def dropWaits (s : Dev) (t : Nat) : Dev :=
  { s with waiters := s.waiters.filter (fun w => !(w.peer == none && w.src == t))
           wakes := s.wakes.filter (fun w => decide (w.1 ≠ t)) }

/-- Waits that an interrupt or a halt abandons are withdrawn (R200, R386). -/
def abandonWaits (s : Dev) (t : Nat) : Dev :=
  let s1 := dropWaits (abandonWant s (.core t)) t
  let x := tileOf s t
  match x.core.wait, partOf x with
  | .dwait d, some p =>
    match d.peer with
    | some (slot, pp) => if d.registered then sendPeer s1 slot (.dowelCancel p pp t d.tile d.idx d.id) else s1
    | none => s1
  | _, _ => s1

/-- Is a wait one that an interrupt or a halt may abandon (R200, R207, R386)? -/
def waitAbandonable : CoreWait → Bool
  | .none => true
  | .xlate _ _ fault => fault
  | .dwait .. => true
  | .load .. => false

/-- The lowest eligible interrupt source (R207). -/
def eligibleSub (c : CoreSt) : Option Nat :=
  let m := c.ien &&& c.ipend
  [0, 1, 2].find? (fun i => bit m i)

/-- R207, R205: the lowest eligible interrupt is taken at a slot boundary; a stall in progress holds it off. -/
def execInterruptEntry (t : TileId) (sys : State) : Host.Outcome State Fault Refusal := onDev sys fun s =>
  let x := tileOf s t
  if x.core.run && !x.core.halted && bit x.core.status 1 && waitAbandonable x.core.wait && !x.core.stalled then
      match eligibleSub x.core with
      | some k => setTile (metroInc (abandonWaits s t) t 63 48) t (enterException (landDue x) 0x10 k 0)
      | none => s
    else s

/-- R206, R215: RUN := 0; the core halts at the next slot boundary, or after the wait or stall that holds it. -/
def haltTile (s : Dev) (t : Nat) : Dev :=
  let x := tileOf s t
  if x.core.halted then s
  else if waitAbandonable x.core.wait && !x.core.stalled then
    setTile (abandonWaits s t) t (haltCore { x with core := { x.core with wait := .none } })
  else setTile s t { x with core := { x.core with run := false } }

/-- R206, R215: writing RUN = 0. -/
def execCoreHalt (t : TileId) (sys : State) : Host.Outcome State Fault Refusal := onDev sys fun s => haltTile s t

/-! ### Fetch and the instruction store (R182, R213, R214) -/

/-- Is a unit of the instruction store uncorrectable (R421)? -/
def istBad (x : Tile) (a : Nat) : Bool := mget false x.istPoison (a / 8)

/-- R182, R213: one aligned fetch word enters the queue; `ecc` is 0 for a good word, 1 corrected, 2 uncorrectable. -/
def execPrefetchFetch (t : TileId) (ecc : Fin 3) (sys : State) : Host.Outcome State Fault Refusal := onDev sys fun s =>
  let x := tileOf s t
  let c := x.core
  if x.core.run && !c.halted && decide (c.pq.length < 4) && decide (c.fetchPc < 0x20000) then
      let inj := x.inject.contains 0x1005
      let bad := ecc == 2 || istBad x c.fetchPc || inj
      let w : Word := BitVec.ofNat 64 (leNat (mbytes 0 x.istore c.fetchPc 8))
      let x1 : Tile := { x with
        inject := if inj then x.inject.erase 0x1005 else x.inject
        core := { c with
          pq := c.pq ++ [(c.fetchPc, w, if inj then 2 else b2n bad)]
          fetchPc := c.fetchPc + 8
          istoreEcc := if ecc == 1 && !bad then incFld c.istoreEcc 15 0 1 else c.istoreEcc } }
      let s1 := setTile s t x1
      if ecc == 1 && !bad then metroInc (tileErr s1 t 0x1004 0 none c.fetchPc 0) t 31 16 else s1
    else s

/-- Write an aligned unit, or half of one, of the instruction store (R214). -/
def istWrite (x : Tile) (a n v : Nat) : Tile :=
  { x with istore := mwrite 0 x.istore a (leBytes n v)
           istPoison := if n = 8 then mset false x.istPoison (a / 8) false else x.istPoison }

/-- R214: a write through TCB_ISTORE_WIN of an aligned 8-byte or 4-byte unit in the selected page; other widths are
discarded. -/
def istWindow (s : Dev) (t off n v : Nat) : Dev :=
  if (n = 8 ∨ n = 4) ∧ off % n = 0 then
    modTile s t (fun x => istWrite x (x.core.istorePage * 0x1000 + off) n v)
  else s

/-- R214: the window write. -/
def execIstoreWinWrite (t : TileId) (off : Fin 4096) (size : Fin 9) (v : Word) (sys : State) :
    Host.Outcome State Fault Refusal := onDev sys fun s => istWindow s t off size v.toNat

/-- R217, R218, R290, R319, R428: a core reset of a tile. (log entry 59, DEDUCED) -/
def coreReset (x : Tile) : Tile :=
  { x with core := .reset, lvu := { LvuSt.reset with nlvl := x.lvu.nlvl }, me := .reset, te := [], teStats := 0
           teDiscarded := 0, teFilter := [], inject := [] }

/-- Free values for bytes. -/
def freeBytes (s : Dev) : (n : Nat) → Dev × List Byte
  | 0 => (s, [])
  | n + 1 => let r := freeBytes (drawFree s) n; (r.1, Config.freeByte s.freeCtr :: r.2)

/-- The units little-endian bytes spell, over the instruction store (R214). -/
def istFill (x : Tile) (o : Nat) (bs : List Byte) : Tile :=
  (List.range (bs.length / 8)).foldl (fun y k => istWrite y (o + 8 * k) 8 (leNat ((bs.drop (8 * k)).take 8))) x

/-- A piece of a destination is left with undefined values (R411); what the target would have refused is not touched. -/
def spoilPiece (s : Dev) (g : Target) (n : Nat) : Dev :=
  let r := freeBytes s n
  match g with
  | .scratch tt o =>
    if transferMay (tileOf s tt) o && !(drawerBusy (tileOf s tt) o) then modTile r.1 tt (fun x => spadPut x o r.2) else s
  | .stacked a => stackPut r.1 a r.2
  | .istore tt o => modTile r.1 tt (fun x => istFill x o r.2)
  | _ => s

/-- The blocks in flight of a descriptor that does not commit them leave their destination bytes undefined (R411). -/
def spoilBlocks (s : Dev) (l : List TeBlk) : Dev :=
  (l.filter (·.asked)).foldl (fun s k => k.dst.foldl (fun s q => spoilPiece s q.1 q.2.2) s) s

/-- Is a unit of a tile? -/
def ofTile (t : Nat) (u : XUnit) : Bool := xunitTile u == t

/-- A core reset with the outstanding accesses discarded (R219): waits are withdrawn, and what still comes for one finds no
wait of its number; blocks in flight leave their destination undefined (R411). Messages that have left the tile are delivered (R83). (log entry 59, DEDUCED) -/
def resetTile (s : Dev) (t : Nat) : Dev :=
  let s0 := (tileOf s t).te.foldl (fun s e => spoilBlocks s e.2.blks) (abandonWaits s t)
  let s1 := modTile s0 t coreReset
  { s1 with xlt := { s1.xlt with want := s1.xlt.want.filter (fun w => !(ofTile t w.unit)) } }

/-- R218: SRESET. -/
def execCoreSreset (t : TileId) (sys : State) : Host.Outcome State Fault Refusal := onDev sys fun s => resetTile s t

/-- Has a drained store been performed at its target? -/
def performed (s : Dev) (t : Nat) (e : SbEntry) : Bool :=
  match e.tgt with
  | .scratch tt o => !(s.mesh.any (fun m => m.src == t && m.dst == tt && m.off == o))
  | .dowel tt i => !(s.dops.any (fun m => decide (m.src = .core t) && m.tile == tt && m.idx == i))
  | .stacked a => !(s.hbm.inq.any (fun q => q.tile == t && q.addr == a))
  | .host _ => !(hostPending s (.store t))
  | _ => true

/-- R382: the acknowledgement of the oldest drained store to another target returns, once it is performed. -/
def execRemoteStoreAck (t : TileId) (sys : State) : Host.Outcome State Fault Refusal := onDev sys fun s =>
  if !((tileOf s t).core.unacked.head?.all (performed s t)) then s
    else modTile s t (fun x => { x with core := { x.core with unacked := x.core.unacked.drop 1 } })

end Sys2Proof.Machine
end

