-- ==== Sys2Proof/Machine/CtlRegs.lean ====
section
/-! DEFINITION. The control registers of the core, the long-vector unit and the matrix engine (R209 to R212, R288,
R316), read by MFC and written by MTC, and the halted window onto them (R216). -/

namespace Sys2Proof.Machine
open Sys2Proof

/-- Is a control-register index reserved (R209)? -/
def cregReserved (i : Nat) : Bool :=
  (decide (21 ≤ i) && decide (i ≤ 23)) || (decide (26 ≤ i) && decide (i ≤ 31)) ||
    (decide (36 ≤ i) && decide (i ≤ 39)) || decide (47 ≤ i)

/-- May user mode read a control register (R209, R288, R316)? -/
def cregUserReads (i : Nat) : Bool :=
  i == 0 || (decide (7 ≤ i) && decide (i ≤ 11)) || i == 24 || i == 25 || decide (32 ≤ i)

/-- May user mode write a control register? -/
def cregUserWrites (i : Nat) : Bool :=
  i == 8 || i == 24 || i == 25 || (decide (32 ≤ i) && decide (i ≤ 34)) || i == 40 || i == 41 || i == 43

/-- The elements of a long-vector register at a SEW code (R256). -/
def vlmaxOf (sew : Nat) : Nat := 2048 / 2 ^ sew

/-- A spindle's state or record (R284, R289). -/
def laneOf (x : Tile) (l : Nat) : SpinSt := mget SpinSt.reset x.lvu.lanes l

/-- A bit per lane that satisfies a test of its state. -/
def laneMask (x : Tile) (f : Nat → Bool) : Word := BitVec.ofNat 64 (packElems 1 32 (fun l => b2n (f (laneOf x l).st)))

/-- The value of a control register (R209 to R212, R288, R316). -/
def readCreg (s : Dev) (t : Nat) (x : Tile) (i : Nat) : Word :=
  let c := x.core
  match i with
  | 0 => c.status
  | 1 => c.epc
  | 2 => c.cause
  | 3 => c.badaddr
  | 4 => c.evec
  | 5 => c.mscratch0
  | 6 => c.mscratch1
  | 7 => c.ctx
  | 8 => c.fcsr
  | 9 => c.cycle
  | 10 => c.instret
  | 11 => BitVec.ofNat 64 (ctimeOf s t)
  | 12 => c.tcmp
  | 13 => c.ien
  | 14 => c.ipend
  | 15 => c.mbox
  | 16 => c.dly.ctl
  | 17 => c.dly.ld0
  | 18 => c.dly.ld1
  | 19 => c.dly.plo
  | 20 => c.dly.phi
  | 24 => c.plo
  | 25 => c.phi
  | 32 => BitVec.ofNat 64 x.lvu.vl
  | 33 => BitVec.ofNat 64 x.lvu.vtype
  | 34 => x.lvu.vcsr
  | 35 => BitVec.ofNat 64 x.lvu.nlvl
  | 40 => x.me.mdwl
  | 41 => x.me.mstride
  | 42 => BitVec.ofNat 64 (x.me.queue.length + 16 * b2n x.me.run.isSome + 2 ^ 32 * x.me.issued.toNat)
  | 43 => x.me.mcoarse
  | 44 => BitVec.ofNat 64 (b2n x.lvu.spin + 2 * b2n x.lvu.stopped)
  | 45 => laneMask x (fun k => k == 1 || k == 2)
  | 46 => laneMask x (fun k => k == 2)
  | _ => 0

/-- Does MTC refuse a value with ILLEGAL (R211, R288)? -/
def cregRefuses (i : Nat) (v : Word) : Bool :=
  match i with
  | 8 => decide (4 < fld v 2 0)
  | 34 => decide (4 < fld v 2 0)
  | 33 => bit v 2 && decide (fld v 1 0 ≠ 1)
  | _ => false

/-- The low bits of a word. -/
def lowBits (v : Word) (n : Nat) : Word := BitVec.ofNat 64 (v.toNat % 2 ^ n)

/-- What a monitor-mode MTC does (R209 to R212, R288, R316); registers MTC ignores keep their value. -/
def writeCreg (s : Dev) (t : Nat) (x : Tile) (i : Nat) (v : Word) : Tile :=
  let c := x.core
  match i with
  | 0 => { x with core := { c with status := lowBits v 4 } }
  | 1 => { x with core := { c with epc := v } }
  | 3 => { x with core := { c with badaddr := v } }
  | 4 => { x with core := { c with evec := setFld v 5 0 0 } }
  | 5 => { x with core := { c with mscratch0 := v } }
  | 6 => { x with core := { c with mscratch1 := v } }
  | 7 => { x with core := { c with ctx := lowBits v 8 } }
  | 8 => { x with core := { c with fcsr := lowBits v 8 } }
  | 12 => { x with core := { c with
      tcmp := v, ipend := if (readCreg s t x 11).ult v then setBit c.ipend 0 false else c.ipend } }
  | 13 => { x with core := { c with ien := lowBits v 3 } }
  | 16 => { x with core := { c with dly := { c.dly with ctl := lowBits v 23 } } }
  | 17 => { x with core := { c with dly := { c.dly with ld0 := v } } }
  | 18 => { x with core := { c with dly := { c.dly with ld1 := v } } }
  | 19 => { x with core := { c with dly := { c.dly with plo := v } } }
  | 20 => { x with core := { c with dly := { c.dly with phi := v } } }
  | 24 => { x with core := { c with plo := v } }
  | 25 => { x with core := { c with phi := v } }
  | 32 => { x with lvu := { x.lvu with vl := min v.toNat (vlmaxOf (x.lvu.vtype % 4)) } }
  | 33 => { x with lvu := { x.lvu with vtype := fld v 2 0, vl := min x.lvu.vl (vlmaxOf (fld v 1 0)) } }
  | 34 => { x with lvu := { x.lvu with vcsr := lowBits v 9 } }
  | 40 => { x with me := { x.me with mdwl := lowBits v 9 } }
  | 41 => { x with me := { x.me with mstride := lowBits v 48 } }
  | 43 => { x with me := { x.me with mcoarse := v } }
  | _ => x

/-- R241, R209, R203, R272: gd := a control register; `vcsr` waits for the long-vector unit, `mbox` clears its
pending bit. -/
def execMfc (t : TileId) (gu : Guard) (rd : RegNo) (idx : Fin 64) (sys : State) : Host.Outcome State Fault Refusal := onDev sys fun s =>
  issue s t gu 4 (fun _ => cregReserved idx) (fun x =>
    if isUser x && !(cregUserReads idx) then .exc 2 0 0
    else if idx == 34 && !(lvIdle x) then stallPlain s x
    else
      let v := readCreg s t x idx
      let x1 : Tile := if idx = 15 then { x with core := { x.core with ipend := setBit x.core.ipend 1 false } } else x
      .done s (setG x1 rd v) 1)

/-- R241, R209, R203: a control register := ga. -/
def execMtc (t : TileId) (gu : Guard) (idx : Fin 64) (ra : RegNo) (sys : State) : Host.Outcome State Fault Refusal := onDev sys fun s =>
  issue s t gu 4 (fun x => cregReserved idx || cregRefuses idx (getG x ra)) (fun x =>
    if isUser x && !(cregUserWrites idx) then .exc 2 0 0
    else .done s (foldCore (writeCreg s t x idx (getG x ra)) 3 idx 0 (getG x ra)) 1)

/-- A refused window access sets TCB_CORE_STATUS.ACCESS_ERR (R216). -/
def accessErr (x : Tile) : Tile := { x with core := { x.core with accessErr := true } }

/-- A write of the halt copy (R206, R216): index 64 to 68. -/
def writeHalt (d : Delay) (i : Nat) (v : Word) : Delay :=
  match i with
  | 64 => { d with ctl := lowBits v 23 }
  | 65 => { d with ld0 := v }
  | 66 => { d with ld1 := v }
  | 67 => { d with plo := v }
  | _ => { d with phi := v }

/-- The write of TCB_CREG_DATA (R216). -/
def cregDataWrite (s : Dev) (t : Nat) (x : Tile) (v : Word) : Tile :=
  let i := fld x.core.cregSel 6 0
  if !x.core.halted then accessErr x
  else if 64 ≤ i then
    (if i ≤ 68 then { x with core := { x.core with halt := writeHalt x.core.halt i v } } else accessErr x)
  else if cregReserved i || cregRefuses i v then accessErr x
  else writeCreg s t x i v

/-- What a read of TCB_CREG_DATA gives (R216). -/
def cregDataRead (s : Dev) (t : Nat) (x : Tile) : Word × Tile :=
  let i := fld x.core.cregSel 6 0
  if !x.core.halted then (0, accessErr x)
  else match i with
    | 64 => (x.core.halt.ctl, x)
    | 65 => (x.core.halt.ld0, x)
    | 66 => (x.core.halt.ld1, x)
    | 67 => (x.core.halt.plo, x)
    | 68 => (x.core.halt.phi, x)
    | i => if cregReserved i then (0, accessErr x) else (readCreg s t x i, x)

/-- R216: a halted-core write through TCB_CREG_DATA. -/
def execCregDataWrite (t : TileId) (v : Word) (sys : State) : Host.Outcome State Fault Refusal := onDev sys fun s =>
  modTile s t (fun x => cregDataWrite s t x v)

end Sys2Proof.Machine
end

