-- ==== Sys2Proof/Machine/Float.lean ====
section
/-! DEFINITION. Floating-point arithmetic (R242, R264, R321 to R323, R243, R244, R250): values are exact dyadic
numbers; one function rounds and packs. Flags are numbers in the order of `fcsr`.FLAGS (R211): 16 invalid,
8 divide-by-zero, 4 overflow, 2 underflow, 1 inexact. -/

namespace Sys2Proof.Machine
open Sys2Proof

/-- An IEEE format: exponent bits, fraction bits (R321). -/
structure Fmt where
  eb : Nat
  fb : Nat
  deriving DecidableEq, Repr

def fmt64 : Fmt := ⟨11, 52⟩
def fmt32 : Fmt := ⟨8, 23⟩
def fmt16 : Fmt := ⟨5, 10⟩
def fmtBf : Fmt := ⟨8, 7⟩

/-- The width of a format in bits. -/
def fmtW (f : Fmt) : Nat := 1 + f.eb + f.fb
/-- The exponent bias (R321). -/
def fmtBias (f : Fmt) : Int := 2 ^ (f.eb - 1) - 1
/-- The exponent of the smallest normal number. -/
def fmtEmin (f : Fmt) : Int := 1 - fmtBias f
/-- The default NaN (R321). -/
def fmtNan (f : Fmt) : Nat := (2 ^ f.eb - 1) * 2 ^ f.fb + 2 ^ (f.fb - 1)
/-- An infinity. -/
def fmtInf (f : Fmt) (neg : Bool) : Nat := b2n neg * 2 ^ (f.eb + f.fb) + (2 ^ f.eb - 1) * 2 ^ f.fb
/-- The largest finite number. -/
def fmtMax (f : Fmt) (neg : Bool) : Nat := fmtInf f neg - 1
/-- A zero. -/
def fmtZero (f : Fmt) (neg : Bool) : Nat := b2n neg * 2 ^ (f.eb + f.fb)

/-- What a floating-point code stands for: a finite value is (−1)^neg · m · 2^e. -/
inductive FVal where
  | nan (signalling : Bool)
  | inf (neg : Bool)
  | fin (neg : Bool) (m : Nat) (e : Int)
  deriving DecidableEq, Repr

/-- Read a code of a format (R321). -/
def funpack (f : Fmt) (x : Nat) : FVal :=
  let frac := x % 2 ^ f.fb
  let ex := (x >>> f.fb) % 2 ^ f.eb
  let neg := x.testBit (f.eb + f.fb)
  if ex = 2 ^ f.eb - 1 then
    if frac = 0 then .inf neg else .nan (!(frac.testBit (f.fb - 1)))
  else if ex = 0 then .fin neg frac (fmtEmin f - f.fb)
  else .fin neg (frac + 2 ^ f.fb) ((ex : Int) - fmtBias f - f.fb)

def fnv : Nat := 16
def fdz : Nat := 8
def fof : Nat := 4
def fuf : Nat := 2
def fnx : Nat := 1

/-- Union of two flag sets. -/
def fl (a b : Nat) : Nat := a ||| b

/-- Round `hi` with the discarded part `lo` of `d` bits under a rounding mode (R211): 0 nearest even, 1 toward zero,
2 toward −∞, 3 toward +∞, 4 nearest away. -/
def roundInc (rm : Nat) (neg : Bool) (hi lo d : Nat) : Nat :=
  let half := 2 ^ d / 2
  let up : Bool := match rm with
    | 0 => lo > half || (lo == half && d != 0 && hi % 2 == 1)
    | 1 => false
    | 2 => neg && lo != 0
    | 3 => !neg && lo != 0
    | _ => d != 0 && lo ≥ half
  hi + b2n up

/-- The value m · 2^e rounded to an integer multiple of 2^q: the multiple and whether it is inexact. -/
def roundAt (rm : Nat) (neg : Bool) (m : Nat) (e q : Int) : Nat × Bool :=
  if q ≤ e then (m * 2 ^ (e - q).toNat, false)
  else
    let d := (q - e).toNat
    (roundInc rm neg (m >>> d) (m % 2 ^ d) d, m % 2 ^ d != 0)

/-- Round a nonzero exact value once into a format and encode it, with the flags of R323. -/
def roundFinite (f : Fmt) (rm : Nat) (neg : Bool) (m : Nat) (e : Int) : Nat × Nat :=
  let ex : Int := e + Nat.log2 m
  let q : Int := max (ex - f.fb) (fmtEmin f - f.fb)
  let r := roundAt rm neg m e q
  let carry : Bool := r.1 == 2 ^ (f.fb + 1)
  let mant := if carry then r.1 / 2 else r.1
  let q' := if carry then q + 1 else q
  let ef : Int := if mant < 2 ^ f.fb then 0 else q' + f.fb + fmtBias f
  if ef ≥ 2 ^ f.eb - 1 then
    let toInf : Bool := match rm with
      | 1 => false
      | 2 => neg
      | 3 => !neg
      | _ => true
    ((if toInf then fmtInf f neg else fmtMax f neg), fl fof fnx)
  else
    let unb := roundAt rm neg m e (ex - f.fb)
    let tiny : Bool := ex < fmtEmin f && !(ex + 1 == fmtEmin f && unb.1 == 2 ^ (f.fb + 1))
    let code := b2n neg * 2 ^ (f.eb + f.fb) + ef.toNat * 2 ^ f.fb + mant % 2 ^ f.fb
    (code, if r.2 then (if tiny then fl fuf fnx else fnx) else 0)

/-- Round an exact value once: a zero keeps the given sign. -/
def fround (f : Fmt) (rm : Nat) (neg : Bool) (m : Nat) (e : Int) : Nat × Nat :=
  if m = 0 then (fmtZero f neg, 0) else roundFinite f rm neg m e

/-- Round a value known to lie strictly between m · 2^e and (m + 1) · 2^e, where m has spare low bits. -/
def froundSticky (f : Fmt) (rm : Nat) (neg : Bool) (m : Nat) (e : Int) (sticky : Bool) : Nat × Nat :=
  fround f rm neg (2 * m + b2n sticky) (e - 1)

/-- The default NaN, with invalid when an operand is signalling (R322). -/
def fnanRes (f : Fmt) (sig : Bool) : Nat × Nat := (fmtNan f, if sig then fnv else 0)

/-- Is the value a signalling NaN? -/
def fsig : FVal → Bool
  | .nan s => s
  | _ => false
/-- Is the value a NaN? -/
def fisNan : FVal → Bool
  | .nan _ => true
  | _ => false

/-- The exact sum of two finite values as a signed mantissa and an exponent. -/
def dyAdd (n1 : Bool) (m1 : Nat) (e1 : Int) (n2 : Bool) (m2 : Nat) (e2 : Int) : Int × Int :=
  let e := min e1 e2
  let a : Int := m1 * 2 ^ (e1 - e).toNat
  let b : Int := m2 * 2 ^ (e2 - e).toNat
  ((if n1 then -a else a) + (if n2 then -b else b), e)

/-- The exact sum of two finite values, rounded once; an exact zero sum takes the IEEE sign. -/
def faddFin (f : Fmt) (rm : Nat) (n1 : Bool) (m1 : Nat) (e1 : Int) (n2 : Bool) (m2 : Nat) (e2 : Int) : Nat × Nat :=
  let s := dyAdd n1 m1 e1 n2 m2 e2
  if s.1 = 0 then
    (fmtZero f (if m1 = 0 ∧ m2 = 0 ∧ n1 = n2 then n1 else rm == 2), 0)
  else fround f rm (s.1 < 0) s.1.natAbs s.2

/-- Addition of values already read (R242). -/
def faddV (f : Fmt) (rm : Nat) (x y : FVal) : Nat × Nat :=
  match x, y with
  | .nan a, v => fnanRes f (a || fsig v)
  | v, .nan b => fnanRes f (fsig v || b)
  | .inf a, .inf b => if a = b then (fmtInf f a, 0) else (fmtNan f, fnv)
  | .inf a, .fin .. => (fmtInf f a, 0)
  | .fin .., .inf b => (fmtInf f b, 0)
  | .fin n1 m1 e1, .fin n2 m2 e2 => faddFin f rm n1 m1 e1 n2 m2 e2

/-- The negation of a value. -/
def fnegV : FVal → FVal
  | .nan s => .nan s
  | .inf n => .inf (!n)
  | .fin n m e => .fin (!n) m e

def faddOp (f : Fmt) (rm x y : Nat) : Nat × Nat := faddV f rm (funpack f x) (funpack f y)
def fsubOp (f : Fmt) (rm x y : Nat) : Nat × Nat := faddV f rm (funpack f x) (fnegV (funpack f y))

/-- Multiplication of values already read (R242). -/
def fmulV (f : Fmt) (rm : Nat) (x y : FVal) : Nat × Nat :=
  match x, y with
  | .nan a, v => fnanRes f (a || fsig v)
  | v, .nan b => fnanRes f (fsig v || b)
  | .inf a, .inf b => (fmtInf f (a != b), 0)
  | .inf a, .fin n m _ => if m = 0 then (fmtNan f, fnv) else (fmtInf f (a != n), 0)
  | .fin n m _, .inf b => if m = 0 then (fmtNan f, fnv) else (fmtInf f (n != b), 0)
  | .fin n1 m1 e1, .fin n2 m2 e2 => fround f rm (n1 != n2) (m1 * m2) (e1 + e2)

def fmulOp (f : Fmt) (rm x y : Nat) : Nat × Nat := fmulV f rm (funpack f x) (funpack f y)

/-- Division of finite nonzero values, rounded once. -/
def fdivFin (f : Fmt) (rm : Nat) (neg : Bool) (m1 : Nat) (e1 : Int) (m2 : Nat) (e2 : Int) : Nat × Nat :=
  let k := f.fb + 4 + (Nat.log2 m2 + 1)
  let num := m1 * 2 ^ k
  froundSticky f rm neg (num / m2) (e1 - e2 - k) (num % m2 != 0)

/-- Division (R243). -/
def fdivOp (f : Fmt) (rm x y : Nat) : Nat × Nat :=
  match funpack f x, funpack f y with
  | .nan a, v => fnanRes f (a || fsig v)
  | v, .nan b => fnanRes f (fsig v || b)
  | .inf _, .inf _ => (fmtNan f, fnv)
  | .inf a, .fin n _ _ => (fmtInf f (a != n), 0)
  | .fin n _ _, .inf b => (fmtZero f (n != b), 0)
  | .fin n1 m1 e1, .fin n2 m2 e2 =>
    if m2 = 0 then (if m1 = 0 then (fmtNan f, fnv) else (fmtInf f (n1 != n2), fdz))
    else if m1 = 0 then (fmtZero f (n1 != n2), 0)
    else fdivFin f rm (n1 != n2) m1 e1 m2 e2

/-- The integer square root, bit by bit: `k` result bits still to decide. -/
def isqrtGo (n : Nat) : (k : Nat) → Nat → Nat
  | 0, r => r
  | k + 1, r =>
    let c := r + 2 ^ k
    isqrtGo n k (if c * c ≤ n then c else r)

/-- The integer square root. -/
def isqrt (n : Nat) : Nat := isqrtGo n (Nat.log2 n / 2 + 1) 0

/-- Square root of a positive finite value, rounded once. -/
def fsqrtFin (f : Fmt) (rm : Nat) (m : Nat) (e : Int) : Nat × Nat :=
  let s0 := 2 * (f.fb + 3)
  let s := if (e - s0) % 2 = 0 then s0 else s0 + 1
  let n := m * 2 ^ s
  let r := isqrt n
  froundSticky f rm false r ((e - s) / 2) (r * r != n)

/-- Square root (R243). -/
def fsqrtOp (f : Fmt) (rm x : Nat) : Nat × Nat :=
  match funpack f x with
  | .nan a => fnanRes f a
  | .inf n => if n then (fmtNan f, fnv) else (fmtInf f false, 0)
  | .fin n m e =>
    if m = 0 then (fmtZero f n, 0) else if n then (fmtNan f, fnv) else fsqrtFin f rm m e

/-- Fused multiply-add with one rounding (R244); infinity times zero is invalid even beside a quiet NaN (R322). -/
def fmaOp (f : Fmt) (rm x y z : Nat) : Nat × Nat :=
  let a := funpack f x
  let b := funpack f y
  let c := funpack f z
  let infZero : Bool := match a, b with
    | .inf _, .fin _ m _ => m == 0
    | .fin _ m _, .inf _ => m == 0
    | _, _ => false
  let sig := fsig a || fsig b || fsig c
  if infZero then (fmtNan f, fnv)
  else match a, b, c with
    | .nan _, _, _ => fnanRes f sig
    | _, .nan _, _ => fnanRes f sig
    | _, _, .nan _ => fnanRes f sig
    | .fin n1 m1 e1, .fin n2 m2 e2, .fin n3 m3 e3 =>
      faddFin f rm (n1 != n2) (m1 * m2) (e1 + e2) n3 m3 e3
    | .fin .., .fin .., .inf n3 => (fmtInf f n3, 0)
    | .inf n1, .inf n2, v => faddV f rm (.inf (n1 != n2)) v
    | .inf n1, .fin n2 _ _, v => faddV f rm (.inf (n1 != n2)) v
    | .fin n1 _ _, .inf n2, v => faddV f rm (.inf (n1 != n2)) v

/-- The order of two values that are no NaN: the sign of x − y. -/
def fcmpV (x y : FVal) : Int :=
  match x, y with
  | .inf a, .inf b => (if a then -1 else 1) - (if b then -1 else 1)
  | .inf a, _ => if a then -1 else 1
  | _, .inf b => if b then 1 else -1
  | .fin n1 m1 e1, .fin n2 m2 e2 => (dyAdd n1 m1 e1 (!n2) m2 e2).1
  | _, _ => 0

/-- minimumNumber (`wantMax` false) or maximumNumber (R243, R322): −0 is less than +0. -/
def fminmaxOp (f : Fmt) (wantMax : Bool) (x y : Nat) : Nat × Nat :=
  let a := funpack f x
  let b := funpack f y
  let flags := if fsig a || fsig b then fnv else 0
  match fisNan a, fisNan b with
  | true, true => (fmtNan f, flags)
  | true, false => (y, flags)
  | false, true => (x, flags)
  | false, false =>
    let c := fcmpV a b
    let xNeg := x.testBit (f.eb + f.fb)
    let xLess : Bool := c < 0 || (c == 0 && xNeg)
    ((if xLess != wantMax then x else y), flags)

/-- The compares of R244: 0 equal, 1 less, 2 less or equal, 3 unordered; the result and the flags. -/
def fcompare (f : Fmt) (cc : Nat) (x y : Nat) : Bool × Nat :=
  let a := funpack f x
  let b := funpack f y
  let un := fisNan a || fisNan b
  let sig := fsig a || fsig b
  match cc with
  | 0 => (!un && decide (fcmpV a b = 0), if sig then fnv else 0)
  | 1 => (!un && decide (fcmpV a b < 0), if un then fnv else 0)
  | 2 => (!un && decide (fcmpV a b ≤ 0), if un then fnv else 0)
  | _ => (un, if sig then fnv else 0)

/-- Conversion between formats (R243). -/
def fcvtOp (src dst : Fmt) (rm x : Nat) : Nat × Nat :=
  match funpack src x with
  | .nan a => fnanRes dst a
  | .inf n => (fmtInf dst n, 0)
  | .fin n m e => fround dst rm n m e

/-- Conversion of an integer (R243). -/
def fofInt (f : Fmt) (rm : Nat) (i : Int) : Nat × Nat := fround f rm (i < 0) i.natAbs 0

/-- Conversion to an integer between `lo` and `hi` (R243): out of range saturates, a NaN gives 0, both invalid. -/
def ftoInt (f : Fmt) (rm x : Nat) (lo hi : Int) : Int × Nat :=
  match funpack f x with
  | .nan _ => (0, fnv)
  | .inf n => (if n then lo else hi, fnv)
  | .fin n m e =>
    let r := roundAt rm n m e 0
    let v : Int := if n then -(r.1 : Int) else r.1
    if v < lo then (lo, fnv) else if hi < v then (hi, fnv) else (v, if r.2 then fnx else 0)

/-- The one-hot class of R243. -/
def fclassOp (f : Fmt) (x : Nat) : Nat :=
  let neg := x.testBit (f.eb + f.fb)
  match funpack f x with
  | .nan s => if s then 2 ^ 8 else 2 ^ 9
  | .inf n => if n then 1 else 2 ^ 7
  | .fin _ m _ =>
    if m = 0 then (if neg then 2 ^ 3 else 2 ^ 4)
    else if m < 2 ^ f.fb then (if neg then 2 ^ 2 else 2 ^ 5)
    else (if neg then 2 else 2 ^ 6)

end Sys2Proof.Machine
end

