-- ==== Sys2Proof/Machine/Flags.lean ====
section
/-! DEFINITION. The sticky floating-point flags and the operands of scalar floating functions (R211, R242, R243):
FP32 inputs ignore bits [63:32] and FP32 results clear them. -/

namespace Sys2Proof.Machine
open Sys2Proof

/-- The scalar format by P (R226). -/
def fmtOf (single : Bool) : Fmt := if single then fmt32 else fmt64

/-- A floating operand from a register. -/
def fpArg (single : Bool) (w : Word) : Nat := if single then fld w 31 0 else w.toNat

/-- A floating result with its flags goes into a register and `fcsr`. -/
def setFp (t : Tile) (rd : Nat) (r : Nat × Nat) : Tile := accrueF (setG t rd (BitVec.ofNat 64 r.1)) r.2

/-- A two-operand floating function. -/
def fpBin (f : Fmt → Nat → Nat → Nat → Nat × Nat) (single : Bool) (rd ra rb : Nat) (t : Tile) : Tile :=
  setFp t rd (f (fmtOf single) (rmOf t) (fpArg single (getG t ra)) (fpArg single (getG t rb)))

/-- A conversion to a 64-bit integer (R243). -/
def fpToInt (sgn single : Bool) (rd ra : Nat) (t : Tile) : Tile :=
  let r := ftoInt (fmtOf single) (rmOf t) (fpArg single (getG t ra))
    (if sgn then -(2 ^ 63) else 0) (if sgn then 2 ^ 63 - 1 else 2 ^ 64 - 1)
  accrueF (setG t rd (BitVec.ofInt 64 r.1)) r.2

/-- The occupancy of fdiv and fsqrt (R243). -/
def fdivOcc (single : Bool) : Nat := if single then 12 else 22
def fsqrtOcc (single : Bool) : Nat := if single then 14 else 26

end Sys2Proof.Machine
end

