-- ==== Sys2Proof/Machine/ShortVec.lean ====
section
/-! DEFINITION. The short-vector instructions on registers (R245 to R253). -/

namespace Sys2Proof.Machine
open Sys2Proof

/-- The element width of a type code (R246). -/
def etWidth (et : Nat) : Nat := match et with | 0 => 8 | 1 => 16 | 2 => 32 | 3 => 64 | 4 => 16 | 5 => 16 | 6 => 32 | _ => 64
/-- The floating format of a type code 4 to 7 (R246). -/
def etFmt (et : Nat) : Fmt := match et with | 4 => fmt16 | 5 => fmtBf | 6 => fmt32 | _ => fmt64
/-- The bits of a width (R245). -/
def svBits (full : Bool) : Nat := if full then 512 else 256
/-- The elements of a width (R246). -/
def svCount (full : Bool) (w : Nat) : Nat := svBits full / w

/-- A value clamped into a range. -/
def clampInt (lo hi v : Int) : Int := if v < lo then lo else if hi < v then hi else v

/-- The element functions shared with the long-vector unit: integer results at width `w` (R249, R266). -/
def minmaxElem (w : Nat) (sgn wantMax : Bool) (a b : Nat) : Nat :=
  let le := if sgn then decide (toSigned w a ≤ toSigned w b) else decide (a ≤ b)
  if le == wantMax then b else a

/-- Shifts of one element by the low log2(w) bits of b: kind 0 left, 1 right, 2 arithmetic (R249, R266). -/
def shiftElem (w kind a b : Nat) : Nat :=
  let n := b % w
  match kind with
  | 0 => a * 2 ^ n % 2 ^ w
  | 1 => a / 2 ^ n
  | _ => ofSigned w (toSigned w a / 2 ^ n)

/-- All ones or zero. -/
def maskElem (w : Nat) (b : Bool) : Nat := if b then 2 ^ w - 1 else 0

/-- An SV-INT element result (R249); `d` is the destination's former element. -/
def svIntElem (fn w a b d : Nat) : Nat :=
  let m := 2 ^ w
  let sa := toSigned w a
  let sb := toSigned w b
  let lo : Int := -(2 ^ (w - 1))
  let hi : Int := 2 ^ (w - 1) - 1
  match fn with
  | 0x00 => (a + b) % m
  | 0x01 => (a + m - b) % m
  | 0x02 => ofSigned w (clampInt lo hi (sa + sb))
  | 0x03 => min (a + b) (m - 1)
  | 0x04 => ofSigned w (clampInt lo hi (sa - sb))
  | 0x05 => a - b
  | 0x06 => a * b % m
  | 0x07 => minmaxElem w true false a b
  | 0x08 => minmaxElem w true true a b
  | 0x09 => minmaxElem w false false a b
  | 0x0A => minmaxElem w false true a b
  | 0x0B => a &&& b
  | 0x0C => a ||| b
  | 0x0D => a ^^^ b
  | 0x0E => a &&& (m - 1 - b)
  | 0x0F => (d &&& a) ||| ((m - 1 - d) &&& b)
  | 0x10 => shiftElem w 0 a b
  | 0x11 => shiftElem w 1 a b
  | 0x12 => shiftElem w 2 a b
  | 0x13 => maskElem w (a == b)
  | 0x14 => maskElem w (decide (sa < sb))
  | 0x15 => maskElem w (decide (a < b))
  | _ => if a < b then b - a else a - b

/-- Encodings of SV-INT that raise ILLEGAL (R249): reserved functions, floating types, types the function lacks. (log entry 41, DEDUCED) -/
def svIntIllegal (fn et : Nat) : Bool :=
  if 0x16 < fn then true
  else if 0x0B ≤ fn ∧ fn ≤ 0x0F then false
  else if 3 < et then true
  else if 2 ≤ fn ∧ fn ≤ 5 then decide (1 < et)
  else fn == 6 && et == 0

/-- R249: SV-INT, occupancy 1, `vmul` 2. -/
def execSvInt (t : TileId) (gu : Guard) (full : Bool) (et : Fin 8) (fn : Fin 32) (vd va vb : PredNo) (sys : State) :
    Host.Outcome State Fault Refusal := onDev sys fun s =>
  let w := if 0x0B ≤ fn.val ∧ fn.val ≤ 0x0F then 64 else etWidth et
  issueT s t gu 4 (if fn.val = 6 then 2 else 1) (svIntIllegal fn et) (fun x =>
    setSv x vd full (packElems w (svCount full w) (fun i =>
      svIntElem fn w (elem (getSv x va) w i) (elem (getSv x vb) w i) (elem (getSv x vd) w i))))

/-- A floating element result with its flags (R250). -/
def svFpElem (fn rm : Nat) (f : Fmt) (a b d : Nat) : Nat × Nat :=
  let w := fmtW f
  match fn with
  | 0 => faddOp f rm a b
  | 1 => fsubOp f rm a b
  | 2 => fmulOp f rm a b
  | 3 => fmaOp f rm a b d
  | 4 => fminmaxOp f false a b
  | 5 => fminmaxOp f true a b
  | 6 => let r := fcompare f 0 a b; (maskElem w r.1, r.2)
  | 7 => let r := fcompare f 1 a b; (maskElem w r.1, r.2)
  | 9 => (a % 2 ^ (w - 1), 0)
  | _ => (a ^^^ 2 ^ (w - 1), 0)

/-- A conversion of one element between type codes (R250, R776): integers are signed; an integer that does not fit
saturates and raises invalid. -/
def cvtElem (rm src dst a : Nat) : Nat × Nat :=
  let lo (w : Nat) : Int := -(2 ^ (w - 1))
  let hi (w : Nat) : Int := 2 ^ (w - 1) - 1
  if 4 ≤ src then
    if 4 ≤ dst then fcvtOp (etFmt src) (etFmt dst) rm a
    else
      let w := etWidth dst
      let r := ftoInt (etFmt src) rm a (lo w) (hi w)
      (ofSigned w r.1, r.2)
  else
    let v := toSigned (etWidth src) a
    if 4 ≤ dst then fofInt (etFmt dst) rm v
    else
      let w := etWidth dst
      let c := clampInt (lo w) (hi w) v
      (ofSigned w c, if c = v then 0 else fnv)

/-- A list of element results as a value, and the flags of all. -/
def gather (w k : Nat) (f : Nat → Nat × Nat) : Nat × Nat :=
  (packElems w k (fun i => (f i).1), (List.range k).foldl (fun acc i => acc ||| (f i).2) 0)

/-- Encodings of SV-FP that raise ILLEGAL (R250). -/
def svFpIllegal (fn et vb : Nat) : Bool :=
  if 10 < fn then true
  else if fn = 8 then decide (8 ≤ vb) || (decide (vb % 8 < 4) && decide (et < 4))
  else decide (et < 4)

/-- The occupancies of R250. -/
def svFpOcc (fn : Nat) : Nat := if fn < 4 then 4 else if fn = 8 then 2 else 1

/-- R250: SV-FP. `vfcvt` clears the bits beyond its last element within the width. -/
def execSvFp (t : TileId) (gu : Guard) (full : Bool) (et : Fin 8) (fn : Fin 32) (vd va vb : PredNo) (sys : State) :
    Host.Outcome State Fault Refusal := onDev sys fun s =>
  issueT s t gu 4 (svFpOcc fn) (svFpIllegal fn et vb) (fun x =>
    let rm := rmOf x
    let r :=
      if fn.val = 8 then
        let src := vb.val % 8
        let m := min (svCount full (etWidth src)) (svCount full (etWidth et))
        gather (etWidth et) m (fun i => cvtElem rm src et (elem (getSv x va) (etWidth src) i))
      else
        let w := etWidth et
        gather w (svCount full w) (fun i => svFpElem fn rm (etFmt et) (elem (getSv x va) w i)
          (elem (getSv x vb) w i) (elem (getSv x vd) w i))
    accrueF (setSv x vd full r.1) r.2)

/-- R251: byte permute, occupancy 1 or 2. -/
def execVperm (t : TileId) (gu : Guard) (full : Bool) (_et : Fin 8) (vd va vb : PredNo) (sys : State) :
    Host.Outcome State Fault Refusal := onDev sys fun s =>
  let n := svCount full 8
  issueT s t gu 4 (if full then 2 else 1) false (fun x =>
    setSv x vd full (packElems 8 n (fun i => elem (getSv x va) 8 (elem (getSv x vb) 8 i % n))))

/-- Interleave halves of two registers (R251). -/
def zipSv (x : Tile) (full high : Bool) (w va vb : Nat) : Nat :=
  let k := svCount full w
  packElems w k (fun i =>
    let j := i / 2 + (if high then k / 2 else 0)
    elem (getSv x (if i % 2 = 0 then va else vb)) w j)

/-- R251: the first halves interleaved; ET 0 to 3. -/
def execVzipl (t : TileId) (gu : Guard) (full : Bool) (et : Fin 8) (vd va vb : PredNo) (sys : State) :
    Host.Outcome State Fault Refusal := onDev sys fun s =>
  issueT s t gu 4 1 (decide (4 ≤ et.val)) (fun x => setSv x vd full (zipSv x full false (etWidth et) va vb))

/-- R251: the second halves interleaved. -/
def execVziph (t : TileId) (gu : Guard) (full : Bool) (et : Fin 8) (vd va vb : PredNo) (sys : State) :
    Host.Outcome State Fault Refusal := onDev sys fun s =>
  issueT s t gu 4 1 (decide (4 ≤ et.val)) (fun x => setSv x vd full (zipSv x full true (etWidth et) va vb))

/-- R252: the low w bits of ga in every element; IDX must be zero. -/
def execSvVbcast (t : TileId) (gu : Guard) (full : Bool) (et : Fin 8) (vd : PredNo) (ra : RegNo) (idx : Fin 64) (sys : State) :
    Host.Outcome State Fault Refusal := onDev sys fun s =>
  let w := etWidth et
  issueT s t gu 4 1 (idx.val != 0) (fun x => setSv x vd full (packElems w (svCount full w) (fun _ => (getG x ra).toNat)))

/-- R252: ga into one element. -/
def execVins (t : TileId) (gu : Guard) (full : Bool) (et : Fin 8) (vd : PredNo) (ra : RegNo) (idx : Fin 64) (sys : State) :
    Host.Outcome State Fault Refusal := onDev sys fun s =>
  let w := etWidth et
  issueT s t gu 4 1 (decide (svCount full w ≤ idx.val)) (fun x =>
    setSv x vd full (packElems w (svCount full w) (fun i =>
      if i = idx.val then (getG x ra).toNat else elem (getSv x vd) w i)))

/-- R252: one element, zero-extended, into gd. -/
def execVext (t : TileId) (gu : Guard) (full : Bool) (et : Fin 8) (rd : RegNo) (va : PredNo) (idx : Fin 64) (sys : State) :
    Host.Outcome State Fault Refusal := onDev sys fun s =>
  let w := etWidth et
  issueT s t gu 4 1 (decide (svCount full w ≤ idx.val)) (fun x =>
    setG x rd (BitVec.ofNat 64 (elem (getSv x va) w idx)))

/-- R252: the sum of all elements modulo 2^64; ET 0 to 3, occupancy 2 or 3. -/
def execVrsum (t : TileId) (gu : Guard) (full : Bool) (et : Fin 8) (rd : RegNo) (va : PredNo) (idx : Fin 64) (sys : State) :
    Host.Outcome State Fault Refusal := onDev sys fun s =>
  let w := etWidth et
  issueT s t gu 4 (if full then 3 else 2) (idx.val != 0 || decide (4 ≤ et.val)) (fun x =>
    setG x rd (BitVec.ofNat 64 ((List.range (svCount full w)).foldl (fun acc i => acc + elem (getSv x va) w i) 0)))

/-- The lanes of a sum of absolute differences (R253): type 0 u8, 1 s8, 2 u16. -/
def sadLanes (x : Tile) (full lw acc : Bool) (ty vd va vb : Nat) : Nat :=
  let w := if lw then 64 else 32
  let e := if ty = 2 then 16 else 8
  let val (r i : Nat) : Int := if ty = 1 then toSigned e (elem (getSv x r) e i) else (elem (getSv x r) e i : Int)
  packElems w (svBits full / w) (fun j =>
    let s := (List.range (w / e)).foldl (fun a k =>
      a + (val va (j * (w / e) + k) - val vb (j * (w / e) + k)).natAbs) 0
    if !acc then s
    else
      let d := elem (getSv x vd) w j
      if lw then (d + s) % 2 ^ 64 else min (d + s) (2 ^ 32 - 1))

/-- R253: VSAD; T = 3 is reserved; occupancy 1 or 2. -/
def execVsad (t : TileId) (gu : Guard) (full : Bool) (lw : Bool) (ty : Fin 4) (vd va vb : PredNo) (sys : State) :
    Host.Outcome State Fault Refusal := onDev sys fun s =>
  issueT s t gu 4 (if full then 2 else 1) (ty.val == 3) (fun x => setSv x vd full (sadLanes x full lw false ty vd va vb))

/-- R253: VSADA accumulates into vd. -/
def execVsada (t : TileId) (gu : Guard) (full : Bool) (lw : Bool) (ty : Fin 4) (vd va vb : PredNo) (sys : State) :
    Host.Outcome State Fault Refusal := onDev sys fun s =>
  issueT s t gu 4 (if full then 2 else 1) (ty.val == 3) (fun x => setSv x vd full (sadLanes x full lw true ty vd va vb))

end Sys2Proof.Machine
end

