-- ==== Sys2Proof/Machine/Transcendental.lean ====
section
/-! DEFINITION. The transcendentals of numerics level 1 (R347): the exact result, rounded once to nearest even. Each
function is enclosed between two integers at a scale that doubles until both ends round alike (every result but those
of the special inputs and of vrcp and vrsqrt is irrational, so a scale that separates them exists; log entry 34, DEDUCED). -/

namespace Sys2Proof.Machine
open Sys2Proof

/-- The Taylor sum of exp at y / 2^q with `n` terms left, from term `t` of index `i`, rounded down. -/
def expTaylor (q y : Nat) : (n : Nat) → (i t acc : Nat) → Nat
  | 0, _, _, acc => acc
  | n + 1, i, t, acc =>
    let t' := ((t * y) >>> q) / (i + 1)
    expTaylor q y n (i + 1) t' (acc + t')

/-- Repeated squaring of an enclosure at scale 2^q, rounded outward. -/
def sqEncl (q : Nat) : (n : Nat) → Nat × Nat → Nat × Nat
  | 0, p => p
  | n + 1, (lo, hi) => sqEncl q n ((lo * lo) >>> q, ((hi * hi) >>> q) + 1)

/-- An enclosure of exp(x) · 2^q for 0 ≤ x = m · 2^e < 2^11. -/
def expEncl (q : Nat) (m : Nat) (e : Int) : Nat × Nat :=
  let j : Nat := 20
  let sh : Int := e - j + q
  let y := if 0 ≤ sh then m * 2 ^ sh.toNat else m >>> (-sh).toNat
  let terms := q / 8 + 8
  let lo := expTaylor q y terms 0 (2 ^ q) (2 ^ q)
  let hi := expTaylor q (y + 1) terms 0 (2 ^ q) (2 ^ q) + 2 * terms + 4
  sqEncl q j (lo, hi)

/-- An enclosure of exp(±x) · 2^q. -/
def expEnclSigned (q : Nat) (neg : Bool) (m : Nat) (e : Int) : Nat × Nat :=
  let p := expEncl q m e
  if neg then (2 ^ (2 * q) / p.2, 2 ^ (2 * q) / p.1 + 1) else p

/-- The series of atanh at t / 2^q, t below a half: `n` terms left, rounded down. -/
def atanhSeries (q t2 : Nat) : (n : Nat) → (i pw acc : Nat) → Nat
  | 0, _, _, acc => acc
  | n + 1, i, pw, acc => atanhSeries q t2 n (i + 2) ((pw * t2) >>> q) (acc + pw / i)

/-- An enclosure of 2 · atanh(a / b) · 2^q for 0 ≤ a / b < 1 / 2. -/
def atanhEncl (q a b : Nat) : Nat × Nat :=
  let t := a * 2 ^ q / b
  let terms := q / 2 + 4
  let lo := 2 * atanhSeries q ((t * t) >>> q) terms 1 t 0
  let hi := 2 * atanhSeries q ((((t + 1) * (t + 1)) >>> q) + 1) terms 1 (t + 1) 0 + 4 * terms + 8
  (lo, hi)

/-- An enclosure of ln(m · 2^e) · 2^q for m > 0, m · 2^e ≠ 1. -/
def lnEncl (q : Nat) (m : Nat) (e : Int) : Int × Int :=
  let len := Nat.log2 m
  let p := 2 ^ len
  let big : Bool := 2 * m ≥ 3 * p
  let k : Int := e + len + (if big then 1 else 0)
  let den := if big then 2 * p else p
  -- z = m / den in [3/4, 3/2); t = (m - den) / (m + den)
  let neg : Bool := m < den
  let a := if neg then den - m else m - den
  let z := if a = 0 then (0, 0) else atanhEncl q a (m + den)
  let zlo : Int := if neg then -(z.2 : Int) else z.1
  let zhi : Int := if neg then -(z.1 : Int) else z.2
  let l2 := atanhEncl q 1 3
  let klo : Int := if k < 0 then k * (l2.2 : Int) else k * (l2.1 : Int)
  let khi : Int := if k < 0 then k * (l2.1 : Int) else k * (l2.2 : Int)
  (klo + zlo, khi + zhi)

/-- An enclosure of tanh(x) · 2^q for 2^-40 ≤ x = m · 2^e < 64. -/
def tanhEncl (q : Nat) (m : Nat) (e : Int) : Nat × Nat :=
  let p := expEncl q m (e + 1)
  let one := 2 ^ q
  (((p.1 - one) * one) / (p.1 + one), ((p.2 - one) * one) / (p.2 + one) + 1)

/-- Round a value that lies strictly between lo · 2^-q and hi · 2^-q when both ends round alike. -/
def roundEncl (f : Fmt) (rm : Nat) (neg : Bool) (q : Nat) (lo hi : Nat) : Option (Nat × Nat) :=
  let a := froundSticky f rm neg lo (-(q : Int)) true
  let b := froundSticky f rm neg (hi - 1) (-(q : Int)) true
  if a = b then some a else none

/-- Try an enclosure at each scale of a list; the last scale's lower end decides where none separates. -/
def zivRound (f : Fmt) (rm : Nat) (encl : Nat → Bool × Nat × Nat) : List Nat → Nat × Nat
  | [] => (fmtNan f, 0)
  | q :: rest =>
    match encl q with
    | (neg, lo, hi) =>
      match roundEncl f rm neg q lo hi with
      | some r => r
      | none => match rest with
        | [] => froundSticky f rm neg lo (-(q : Int)) true
        | _ => zivRound f rm encl rest

/-- The scales tried. -/
def zivScales : List Nat := [192, 384, 1536]

/-- The exponential (R347). -/
def fexpOp (f : Fmt) (rm x : Nat) : Nat × Nat :=
  match funpack f x with
  | .nan s => fnanRes f s
  | .inf n => (if n then fmtZero f false else fmtInf f false, 0)
  | .fin n m e =>
    if m = 0 then fround f rm false 1 0
    else if e + Nat.log2 m ≥ 11 then
      (if n then froundSticky f rm false 1 (-8192) true else froundSticky f rm false 1 8192 true)
    else zivRound f rm (fun q => let p := expEnclSigned q n m e; (false, p.1, p.2)) (zivScales.map (· + 1200))

/-- The natural logarithm (R347). -/
def flogOp (f : Fmt) (rm x : Nat) : Nat × Nat :=
  match funpack f x with
  | .nan s => fnanRes f s
  | .inf n => if n then (fmtNan f, fnv) else (fmtInf f false, 0)
  | .fin n m e =>
    if m = 0 then (fmtInf f true, fdz)
    else if n then (fmtNan f, fnv)
    else if m = 2 ^ Nat.log2 m ∧ e + Nat.log2 m = 0 then (fmtZero f false, 0)
    else zivRound f rm (fun q =>
      let p := lnEncl q m e
      if p.2 ≤ 0 then (true, (-p.2).toNat, (-p.1).toNat) else (false, p.1.toNat, p.2.toNat)) zivScales

/-- The reciprocal (R347). -/
def frcpOp (f : Fmt) (rm x : Nat) : Nat × Nat :=
  match funpack f x with
  | .nan s => fnanRes f s
  | .inf n => (fmtZero f n, 0)
  | .fin n m e => if m = 0 then (fmtInf f n, fdz) else fdivFin f rm n 1 0 m e

/-- The reciprocal square root (R347): the root of 2^k / m, exact when r² · m = 2^k. -/
def frsqrtOp (f : Fmt) (rm x : Nat) : Nat × Nat :=
  match funpack f x with
  | .nan s => fnanRes f s
  | .inf n => if n then (fmtNan f, fnv) else (fmtZero f false, 0)
  | .fin n m e =>
    if m = 0 then (fmtInf f n, fdz)
    else if n then (fmtNan f, fnv)
    else
      let k0 : Nat := 2 * (f.fb + 4) + 2 * (Nat.log2 m + 1)
      let k := if ((k0 : Int) + e) % 2 = 0 then k0 else k0 + 1
      let r := isqrt (2 ^ k / m)
      froundSticky f rm false r (-((k : Int) + e) / 2) (r * r * m != 2 ^ k)

/-- The hyperbolic tangent (R347). -/
def ftanhOp (f : Fmt) (rm x : Nat) : Nat × Nat :=
  match funpack f x with
  | .nan s => fnanRes f s
  | .inf n => fround f rm n 1 0
  | .fin n m e =>
    if m = 0 then (fmtZero f n, 0)
    else if e + Nat.log2 m ≥ 6 then froundSticky f rm n (2 ^ 100 - 1) (-100) true
    else if e + Nat.log2 m < -40 then froundSticky f rm n (m * 2 ^ 80 - 1) (e - 80) true
    else zivRound f rm (fun q => let p := tanhEncl q m e; (n, p.1, p.2)) (zivScales.map (· + 128))

/-- A transcendental of major 0x2E by its function code (R266, R274): 0 vexp, 1 vlog, 2 vrcp, 3 vrsqrt, 4 vtanh. -/
def transOp (f : Fmt) (fn rm x : Nat) : Nat × Nat :=
  match fn with
  | 0 => fexpOp f rm x
  | 1 => flogOp f rm x
  | 2 => frcpOp f rm x
  | 3 => frsqrtOp f rm x
  | _ => ftanhOp f rm x

/-- A code moved by one unit in the last place, staying a finite nonzero number. -/
def ulpStep (f : Fmt) (up : Bool) (x : Nat) : Nat :=
  match funpack f x with
  | .fin _ m _ => if m = 0 ∨ m = 1 then x else if up then (if x + 1 = fmtInf f false ∨ x + 1 = fmtInf f true then x else x + 1)
      else x - 1
  | _ => x

/-- Is a code an infinity? -/
def isInf (f : Fmt) (x : Nat) : Bool := match funpack f x with | .inf _ => true | _ => false

/-- A native routine's step, free between the numbers below and above the exact value by `k`; a result that overflows to
nearest is the infinity, and no other is (R274). `op` gives the result in a rounding mode. -/
def looseOp (f : Fmt) (k : Nat) (op : Nat → Nat × Nat) : Nat × Nat :=
  let near := op 0
  let r := op (2 + k % 2)
  if isInf f near.1 || isInf f r.1 then near else r

/-- The routine of a firmware build in native mode under a `vtype` (R345): free within the error bound of R274. The two
numbers next to the exact value are within 1 ulp, and their neighbours within 2. -/
def transNative (build vtype : Nat) (f : Fmt) (fn x : Nat) : Nat × Nat :=
  let k := Config.looseTranscendental build vtype fn x
  let r := looseOp f k (fun rm => transOp f fn rm x)
  if fn = 2 ∨ fn = 3 ∨ r.2 = 0 ∨ (k / 2) % 2 = 0 then r else (ulpStep f (k % 2 == 1) r.1, r.2)

/-- The transcendental in force: `native` is the firmware build whose routines a native-mode partition uses (R274,
R345). -/
def transIn (native : Option Nat) (vtype : Nat) (f : Fmt) (fn x : Nat) : Nat × Nat :=
  match native with
  | some build => transNative build vtype f fn x
  | none => transOp f fn 0 x

end Sys2Proof.Machine
end

