-- ==== Sys2Proof/Machine/LongVec.lean ====
section
/-! DEFINITION. The long-vector unit (R255 to R276, R346 to R349): what an instruction captures and queues at issue,
and what the unit does when it starts it. -/

namespace Sys2Proof.Machine
open Sys2Proof

/-! ### Registers of the unit -/

/-- A vector register. -/
def getV (x : Tile) (r : Nat) : LvWord := mget 0 x.lvu.v r
/-- Write a vector register. -/
def setV (x : Tile) (r : Nat) (v : Nat) : Tile :=
  { x with lvu := { x.lvu with v := mset 0 x.lvu.v r (BitVec.ofNat 16384 v) } }
/-- A mask register. -/
def getVm (x : Tile) (r : Nat) : LvMask := mget 0 x.lvu.vm r
/-- Write a mask register. -/
def setVm (x : Tile) (r : Nat) (v : Nat) : Tile :=
  { x with lvu := { x.lvu with vm := mset 0 x.lvu.vm r (BitVec.ofNat 2048 v) } }
/-- Flags accrue into `vcsr` (R264). -/
def accrueV (x : Tile) (flags : Nat) : Tile :=
  { x with lvu := { x.lvu with vcsr := x.lvu.vcsr ||| BitVec.ofNat 64 (flags * 8) } }

/-- SEW and ALT of a captured vtype, the element width, the floating format (R259, R264). -/
def ltSew (vtype : Nat) : Nat := vtype % 4
def ltWidth (vtype : Nat) : Nat := 8 * 2 ^ ltSew vtype
def ltEt (vtype : Nat) : Nat := match ltSew vtype with | 1 => (if 4 ≤ vtype then 5 else 4) | 2 => 6 | _ => 7
def ltFmt (vtype : Nat) : Fmt := etFmt (ltEt vtype)

/-! ### Issue (R260, R261, R268) -/

/-- What every instruction captures at issue. -/
def lvCapture (x : Tile) (major fn vd va vb vm : Nat) (a b : Word) : LvEntry :=
  { major := major, fn := fn, vd := vd, va := va, vb := vb, vm := vm, vl := x.lvu.vl, vtype := x.lvu.vtype
    rm := fld x.lvu.vcsr 2 0, a := a, b := b, user := isUser x, ctx := fld x.core.ctx 7 0 }

/-- Does TCB_ENGINE_ERR.LVU drop the unit's instructions (R276)? -/
def lvDropping (x : Tile) : Bool := bit x.core.engErr 0

/-- Queue an instruction: it is dropped after an error, a memory instruction waits for the stores (R199), a full queue
stalls the core (R261). -/
def lvIssue (s : Dev) (ti : TileId) (gu : Guard) (illegal : Tile → Bool) (mem : Bool) (mk : Tile → LvEntry) : Dev :=
  issue s ti gu 4 (fun x => x.lvu.spin || illegal x) (fun x =>
    if lvDropping x then .done s x 1
    else if mem && !(storesDrained x) then stallPlain s x
    else if 16 ≤ x.lvu.queue.length then stallPlain s x
    else .done s { x with lvu := { x.lvu with queue := x.lvu.queue ++ [mk x] } } 1)

/-- Is a floating function issued at SEW 0 (R268)? -/
def fpAtSew0 (x : Tile) : Bool := ltSew x.lvu.vtype == 0

/-- R266: majors 0x28, integer arithmetic. -/
def execLvInteger (t : TileId) (gu : Guard) (fn : Fin 8) (vd va vb : RegNo) (vm : Fin 8) (sys : State) :
    Host.Outcome State Fault Refusal := onDev sys fun s =>
  lvIssue s t gu (fun _ => false) false (fun x => lvCapture x 0x28 fn vd va vb vm 0 0)

/-- R266: major 0x29, logic, shifts and absolute difference. -/
def execLvLogicShift (t : TileId) (gu : Guard) (fn : Fin 7) (vd va vb : RegNo) (vm : Fin 8) (sys : State) :
    Host.Outcome State Fault Refusal := onDev sys fun s =>
  lvIssue s t gu (fun _ => false) false (fun x => lvCapture x 0x29 fn vd va vb vm 0 0)

/-- R776, R268: conversion to the floating type of SEW. -/
def execVcvt (t : TileId) (gu : Guard) (vd va : RegNo) (ty : Fin 8) (vm : Fin 8) (sys : State) :
    Host.Outcome State Fault Refusal := onDev sys fun s =>
  lvIssue s t gu (fun x => fpAtSew0 x || decide (16384 / etWidth ty < x.lvu.vl)) false
    (fun x => lvCapture x 0x29 7 vd va ty vm 0 0)

/-- R776: conversion to the signed integer type of SEW. -/
def execVcvtI (t : TileId) (gu : Guard) (vd va : RegNo) (ty : Fin 8) (vm : Fin 8) (sys : State) :
    Host.Outcome State Fault Refusal := onDev sys fun s =>
  lvIssue s t gu (fun x => decide (16384 / etWidth ty < x.lvu.vl)) false
    (fun x => lvCapture x 0x29 7 vd va (ty + 8) vm 0 0)

/-- R264, R266: major 0x2A; VB of `vfsqrt` must be zero. -/
def execLvFloat (t : TileId) (gu : Guard) (fn : Fin 8) (vd va vb : RegNo) (vm : Fin 8) (sys : State) :
    Host.Outcome State Fault Refusal := onDev sys fun s =>
  lvIssue s t gu (fun x => fpAtSew0 x || (fn == 4 && vb != 0)) false
    (fun x => lvCapture x 0x2A fn vd va vb vm 0 0)

/-- R266: major 0x2B, compares into a mask. -/
def execLvCompare (t : TileId) (gu : Guard) (fn : Fin 8) (vd va vb : RegNo) (vm : Fin 8) (sys : State) :
    Host.Outcome State Fault Refusal := onDev sys fun s =>
  lvIssue s t gu (fun x => decide (8 ≤ vd.val) || (decide (4 ≤ fn.val) && fpAtSew0 x)) false
    (fun x => lvCapture x 0x2B fn vd va vb vm 0 0)

/-- R269: unit-stride load. -/
def execVld (t : TileId) (gu : Guard) (vd ra : RegNo) (vm : Fin 8) (sys : State) : Host.Outcome State Fault Refusal := onDev sys fun s =>
  lvIssue s t gu (fun _ => false) true (fun x => lvCapture x 0x2C 0 vd 0 0 vm (getG x ra) 0)
/-- R269: strided load. -/
def execVlds (t : TileId) (gu : Guard) (vd ra rb : RegNo) (vm : Fin 8) (sys : State) : Host.Outcome State Fault Refusal := onDev sys fun s =>
  lvIssue s t gu (fun _ => false) true (fun x => lvCapture x 0x2C 1 vd 0 0 vm (getG x ra) (getG x rb))
/-- R269: indexed load. -/
def execVldx (t : TileId) (gu : Guard) (vd ra rb : RegNo) (vm : Fin 8) (sys : State) : Host.Outcome State Fault Refusal := onDev sys fun s =>
  lvIssue s t gu (fun _ => false) true (fun x => lvCapture x 0x2C 2 vd 0 rb vm (getG x ra) 0)
/-- R269: unit-stride store. -/
def execVst (t : TileId) (gu : Guard) (vd ra : RegNo) (vm : Fin 8) (sys : State) : Host.Outcome State Fault Refusal := onDev sys fun s =>
  lvIssue s t gu (fun _ => false) true (fun x => lvCapture x 0x2C 3 vd 0 0 vm (getG x ra) 0)
/-- R269: strided store. -/
def execVsts (t : TileId) (gu : Guard) (vd ra rb : RegNo) (vm : Fin 8) (sys : State) : Host.Outcome State Fault Refusal := onDev sys fun s =>
  lvIssue s t gu (fun _ => false) true (fun x => lvCapture x 0x2C 4 vd 0 0 vm (getG x ra) (getG x rb))
/-- R269: indexed store. -/
def execVstx (t : TileId) (gu : Guard) (vd ra rb : RegNo) (vm : Fin 8) (sys : State) : Host.Outcome State Fault Refusal := onDev sys fun s =>
  lvIssue s t gu (fun _ => false) true (fun x => lvCapture x 0x2C 5 vd 0 rb vm (getG x ra) 0)
/-- R266: load of a mask register, 256 bytes. -/
def execVlm (t : TileId) (gu : Guard) (vd ra : RegNo) (sys : State) : Host.Outcome State Fault Refusal := onDev sys fun s =>
  lvIssue s t gu (fun _ => decide (8 ≤ vd.val)) true (fun x => lvCapture x 0x2C 6 vd 0 0 0 (getG x ra) 0)
/-- R266: store of a mask register, 256 bytes. -/
def execVsm (t : TileId) (gu : Guard) (vd ra : RegNo) (sys : State) : Host.Outcome State Fault Refusal := onDev sys fun s =>
  lvIssue s t gu (fun _ => decide (8 ≤ vd.val)) true (fun x => lvCapture x 0x2C 7 vd 0 0 0 (getG x ra) 0)

/-- R266: the low w bits of ga in every active element. -/
def execLvVbcast (t : TileId) (gu : Guard) (vd ra : RegNo) (vm : Fin 8) (sys : State) : Host.Outcome State Fault Refusal := onDev sys fun s =>
  lvIssue s t gu (fun _ => false) false (fun x => lvCapture x 0x2D 0 vd 0 0 vm (getG x ra) 0)
/-- R266: vector move. -/
def execVmv (t : TileId) (gu : Guard) (vd va : RegNo) (vm : Fin 8) (sys : State) : Host.Outcome State Fault Refusal := onDev sys fun s =>
  lvIssue s t gu (fun _ => false) false (fun x => lvCapture x 0x2D 1 vd va 0 vm 0 0)
/-- R266: element 0 := ga. -/
def execVmsf (t : TileId) (gu : Guard) (vd ra : RegNo) (sys : State) : Host.Outcome State Fault Refusal := onDev sys fun s =>
  lvIssue s t gu (fun _ => false) false (fun x => lvCapture x 0x2D 3 vd 0 0 0 (getG x ra) 0)
/-- R267: packs the selected elements. -/
def execVcompress (t : TileId) (gu : Guard) (vd va vb : RegNo) (sys : State) : Host.Outcome State Fault Refusal := onDev sys fun s =>
  lvIssue s t gu (fun _ => decide (8 ≤ vb.val)) false (fun x => lvCapture x 0x2D 6 vd va vb 0 0 0)
/-- R266: i mod 2^w. -/
def execVid (t : TileId) (gu : Guard) (vd : RegNo) (vm : Fin 8) (sys : State) : Host.Outcome State Fault Refusal := onDev sys fun s =>
  lvIssue s t gu (fun _ => false) false (fun x => lvCapture x 0x2D 7 vd 0 0 vm 0 0)

/-- R274: exponential. -/
def execVexp (t : TileId) (gu : Guard) (vd va : RegNo) (vm : Fin 8) (sys : State) : Host.Outcome State Fault Refusal := onDev sys fun s =>
  lvIssue s t gu fpAtSew0 false (fun x => lvCapture x 0x2E 0 vd va 0 vm 0 0)
/-- R274: natural logarithm. -/
def execVlog (t : TileId) (gu : Guard) (vd va : RegNo) (vm : Fin 8) (sys : State) : Host.Outcome State Fault Refusal := onDev sys fun s =>
  lvIssue s t gu fpAtSew0 false (fun x => lvCapture x 0x2E 1 vd va 0 vm 0 0)
/-- R274: reciprocal. -/
def execVrcp (t : TileId) (gu : Guard) (vd va : RegNo) (vm : Fin 8) (sys : State) : Host.Outcome State Fault Refusal := onDev sys fun s =>
  lvIssue s t gu fpAtSew0 false (fun x => lvCapture x 0x2E 2 vd va 0 vm 0 0)
/-- R274: reciprocal square root. -/
def execVrsqrt (t : TileId) (gu : Guard) (vd va : RegNo) (vm : Fin 8) (sys : State) : Host.Outcome State Fault Refusal := onDev sys fun s =>
  lvIssue s t gu fpAtSew0 false (fun x => lvCapture x 0x2E 3 vd va 0 vm 0 0)
/-- R274: hyperbolic tangent. -/
def execVtanh (t : TileId) (gu : Guard) (vd va : RegNo) (vm : Fin 8) (sys : State) : Host.Outcome State Fault Refusal := onDev sys fun s =>
  lvIssue s t gu fpAtSew0 false (fun x => lvCapture x 0x2E 4 vd va 0 vm 0 0)
/-- R273: maximum reduction. -/
def execVmaxr (t : TileId) (gu : Guard) (vd va : RegNo) (vm : Fin 8) (sys : State) : Host.Outcome State Fault Refusal := onDev sys fun s =>
  lvIssue s t gu fpAtSew0 false (fun x => lvCapture x 0x2E 5 vd va 0 vm 0 0)
/-- R273: pairwise sum. -/
def execVsumr (t : TileId) (gu : Guard) (vd va : RegNo) (vm : Fin 8) (sys : State) : Host.Outcome State Fault Refusal := onDev sys fun s =>
  lvIssue s t gu fpAtSew0 false (fun x => lvCapture x 0x2E 6 vd va 0 vm 0 0)
/-- R275: softmax of a row. -/
def execVsoftmax (t : TileId) (gu : Guard) (vd va : RegNo) (vm : Fin 8) (sys : State) : Host.Outcome State Fault Refusal := onDev sys fun s =>
  lvIssue s t gu fpAtSew0 false (fun x => lvCapture x 0x2E 7 vd va 0 vm 0 0)

/-- Is one of three mask numbers above 7 (R268)? -/
def badMasks (a b c : Nat) : Bool := decide (8 ≤ a) || decide (8 ≤ b) || decide (8 ≤ c)

/-- R266: mask AND. -/
def execVmand (t : TileId) (gu : Guard) (vd va vb : RegNo) (sys : State) : Host.Outcome State Fault Refusal := onDev sys fun s =>
  lvIssue s t gu (fun _ => badMasks vd va vb) false (fun x => lvCapture x 0x2F 2 vd va vb 0 0 0)
/-- R266: mask OR. -/
def execVmor (t : TileId) (gu : Guard) (vd va vb : RegNo) (sys : State) : Host.Outcome State Fault Refusal := onDev sys fun s =>
  lvIssue s t gu (fun _ => badMasks vd va vb) false (fun x => lvCapture x 0x2F 3 vd va vb 0 0 0)
/-- R266: mask XOR. -/
def execVmxor (t : TileId) (gu : Guard) (vd va vb : RegNo) (sys : State) : Host.Outcome State Fault Refusal := onDev sys fun s =>
  lvIssue s t gu (fun _ => badMasks vd va vb) false (fun x => lvCapture x 0x2F 4 vd va vb 0 0 0)
/-- R266: mask AND NOT. -/
def execVmandn (t : TileId) (gu : Guard) (vd va vb : RegNo) (sys : State) : Host.Outcome State Fault Refusal := onDev sys fun s =>
  lvIssue s t gu (fun _ => badMasks vd va vb) false (fun x => lvCapture x 0x2F 5 vd va vb 0 0 0)

/-- R259: SETVL; ALT with a SEW other than 1 raises ILLEGAL; dropped, it writes only zero to gd (R276). -/
def execSetvl (t : TileId) (gu : Guard) (rd ra : RegNo) (sew : Fin 4) (alt : Bool) (sys : State) :
    Host.Outcome State Fault Refusal := onDev sys fun s =>
  issueT s t gu 4 1 (alt && sew != 1) (fun x =>
    let vl := min (getG x ra).toNat (vlmaxOf sew)
    if lvDropping x then setG x rd 0
    else setG { x with lvu := { x.lvu with vl := vl, vtype := sew + 4 * b2n alt } } rd (BitVec.ofNat 64 vl))

/-- R272: VSYNC stalls until every earlier long-vector instruction has completed. -/
def execVsync (t : TileId) (gu : Guard) (sys : State) : Host.Outcome State Fault Refusal := onDev sys fun s =>
  issue s t gu 4 (fun x => x.lvu.spin) (fun x => if lvIdle x then .done s x 1 else stallPlain s x)

/-- Element i is active (R263). -/
def lvActive (x : Tile) (vl vm i : Nat) : Bool := decide (i < vl) && (vm == 0 || (getVm x vm).getLsbD i)

/-- An instruction that returns a g value stalls until the unit is idle; dropped, it writes zero (R266, R276). -/
def lvReturns (s : Dev) (ti : TileId) (gu : Guard) (illegal : Tile → Bool) (rd : Nat) (f : Tile → Word) : Dev :=
  issue s ti gu 4 (fun x => x.lvu.spin || illegal x) (fun x =>
    if !(lvIdle x) then stallPlain s x
    else .done s (setG x rd (if lvDropping x then 0 else f x)) 1)

/-- R266: gd := element 0 of va, zero-extended. -/
def execVmfs (t : TileId) (gu : Guard) (rd va : RegNo) (sys : State) : Host.Outcome State Fault Refusal := onDev sys fun s =>
  lvReturns s t gu (fun _ => false) rd (fun x => BitVec.ofNat 64 (elem (getV x va) (ltWidth x.lvu.vtype) 0))

/-- R266: the lowest active set mask bit, or all ones. -/
def execVfirst (t : TileId) (gu : Guard) (rd va : RegNo) (vm : Fin 8) (sys : State) : Host.Outcome State Fault Refusal := onDev sys fun s =>
  lvReturns s t gu (fun _ => decide (8 ≤ va.val)) rd (fun x =>
    match (List.range x.lvu.vl).find? (fun i => lvActive x x.lvu.vl vm i && (getVm x va).getLsbD i) with
    | some i => BitVec.ofNat 64 i
    | none => BitVec.allOnes 64)

/-- R266: the count of active set mask bits. -/
def execVpopc (t : TileId) (gu : Guard) (rd va : RegNo) (vm : Fin 8) (sys : State) : Host.Outcome State Fault Refusal := onDev sys fun s =>
  lvReturns s t gu (fun _ => decide (8 ≤ va.val)) rd (fun x =>
    BitVec.ofNat 64 ((List.range x.lvu.vl).countP (fun i => lvActive x x.lvu.vl vm i && (getVm x va).getLsbD i)))

/-! ### What an instruction computes -/

/-- Element i of a captured instruction's register. -/
def lvEl (x : Tile) (e : LvEntry) (r i : Nat) : Nat := elem (getV x r) (ltWidth e.vtype) i

/-- Write the active elements of vd by a function with flags; inactive elements keep their value (R263). -/
def lvMap (x : Tile) (e : LvEntry) (f : Nat → Nat × Nat) : Tile :=
  let w := ltWidth e.vtype
  let r := gather w (16384 / w) (fun i => if lvActive x e.vl e.vm i then f i else (lvEl x e e.vd i, 0))
  accrueV (setV x e.vd r.1) r.2

/-- Write the bits of mask vd that a test selects; the others keep their value. -/
def lvMapMask (x : Tile) (vd vl : Nat) (act : Nat → Bool) (f : Nat → Bool × Nat) : Tile :=
  let old := getVm x vd
  let v := packElems 1 2048 (fun i => b2n (if decide (i < vl) && act i then (f i).1 else old.getLsbD i))
  accrueV (setVm x vd v) ((List.range vl).foldl (fun acc i => if act i then acc ||| (f i).2 else acc) 0)

/-- Major 0x28 on one element (R266). -/
def lvIntElem (fn w a b : Nat) : Nat :=
  match fn with
  | 0 => (a + b) % 2 ^ w
  | 1 => (a + 2 ^ w - b) % 2 ^ w
  | 2 => a * b % 2 ^ w
  | 3 => ofSigned w (toSigned w a * toSigned w b / 2 ^ w)
  | 4 => minmaxElem w true false a b
  | 5 => minmaxElem w true true a b
  | 6 => minmaxElem w false false a b
  | _ => minmaxElem w false true a b

/-- Major 0x29 on one element, functions 0 to 6. -/
def lvLogicElem (fn w a b : Nat) : Nat :=
  match fn with
  | 0 => a &&& b
  | 1 => a ||| b
  | 2 => a ^^^ b
  | 3 => shiftElem w 0 a b
  | 4 => shiftElem w 1 a b
  | 5 => shiftElem w 2 a b
  | _ => if a < b then b - a else a - b

/-- Major 0x2A on one element (R264, R266). -/
def lvFpElem (fn rm : Nat) (f : Fmt) (a b d : Nat) : Nat × Nat :=
  match fn with
  | 0 => faddOp f rm a b
  | 1 => fsubOp f rm a b
  | 2 => fmulOp f rm a b
  | 3 => fdivOp f rm a b
  | 4 => fsqrtOp f rm a
  | 5 => fminmaxOp f false a b
  | 6 => fminmaxOp f true a b
  | _ => fmaOp f rm a b d

/-- Major 0x2B on one element (R266). -/
def lvCmpElem (fn w : Nat) (f : Fmt) (a b : Nat) : Bool × Nat :=
  match fn with
  | 0 => (a == b, 0)
  | 1 => (a != b, 0)
  | 2 => (decide (toSigned w a < toSigned w b), 0)
  | 3 => (decide (a < b), 0)
  | k => fcompare f (k - 4) a b

/-- One pass of the pairwise sum of R273. -/
def sumPairs (f : Fmt) (rm : Nat) : List Nat → List Nat × Nat
  | a :: b :: r => let p := faddOp f rm a b; let q := sumPairs f rm r; (p.1 :: q.1, p.2 ||| q.2)
  | l => (l, 0)

/-- The pairwise sum; `n` passes are enough for 2^n elements (R273). -/
def sumTree (f : Fmt) (rm : Nat) : (n : Nat) → List Nat → Nat × Nat
  | 0, l => (l.headD 0, 0)
  | n + 1, l =>
    if l.length ≤ 1 then (l.headD 0, 0)
    else let p := sumPairs f rm l; let q := sumTree f rm n p.1; (q.1, p.2 ||| q.2)

/-- The maximum of a list by maximumNumber (R273). -/
def maxList (f : Fmt) : List Nat → Nat × Nat
  | [] => (fmtInf f true, 0)
  | [a] => fminmaxOp f true a a
  | a :: b :: r =>
    let q := (b :: r).foldl (fun (p : Nat × Nat) v => let m := fminmaxOp f true p.1 v; (m.1, p.2 ||| m.2)) (a, 0)
    q

/-- A division step in native mode is the build's own (R345). -/
def smDiv (native : Option Nat) (vtype : Nat) (f : Fmt) (a b : Nat) : Nat × Nat :=
  match native with
  | some build => looseOp f (Config.looseTranscendental build vtype 9 (a * 2 ^ 64 + b)) (fun rm => fdivOp f rm a b)
  | none => fdivOp f 0 a b

/-- The routine of level 1 on the active elements of a row, in format `f` (R348). -/
def smRoutine (native : Option Nat) (vtype : Nat) (f : Fmt) (l : List Nat) : List Nat × Nat :=
  let m := (maxList f l).1
  let d := l.map (fun v => fsubOp f 0 v m)
  let e := d.map (fun v => transIn native vtype f 0 v.1)
  let s := sumTree f 0 12 (e.map (·.1))
  let y := e.map (fun v => smDiv native vtype f v.1 s.1)
  (y.map (·.1), (d.map (·.2) ++ e.map (·.2) ++ [s.2] ++ y.map (·.2)).foldl (· ||| ·) 0)

/-- The row outcome of R349 on the active elements: outputs, flags, ROW. -/
def smRow (native : Option Nat) (vtype : Nat) (f : Fmt) (l : List Nat) : List Nat × Nat × Bool :=
  let u := l.map (funpack f)
  if u.any fisNan then (l.map (fun _ => fmtNan f), if u.any fsig then fnv else 0, false)
  else if l.all (fun v => v == fmtInf f true) then (l.map (fun _ => 0), 0, true)
  else
    let k := l.countP (fun v => v == fmtInf f false)
    if k ≠ 0 then
      let r := fdivFin f 0 false 1 0 k 0
      (l.map (fun v => if v = fmtInf f false then r.1 else 0), r.2, false)
    else if f = fmt64 ∨ f = fmt32 then let r := smRoutine native vtype f l; (r.1, r.2, false)
    else
      let r := smRoutine native vtype fmt32 (l.map (fun v => (fcvtOp f fmt32 0 v).1))
      let o := r.1.map (fun v => fcvtOp fmt32 f 0 v)
      (o.map (·.1), o.foldl (fun acc v => acc ||| v.2) r.2, false)

/-- The active elements of va in ascending order, with their indices. -/
def activeEls (x : Tile) (e : LvEntry) : List (Nat × Nat) :=
  ((List.range e.vl).filter (lvActive x e.vl e.vm)).map (fun i => (i, lvEl x e e.va i))

/-- Write element 0 of vd only. -/
def setEl0 (x : Tile) (e : LvEntry) (v : Nat) : Tile :=
  let w := ltWidth e.vtype
  setV x e.vd (packElems w (16384 / w) (fun i => if i = 0 then v else lvEl x e e.vd i))

/-- What a register instruction does to the tile (R266, R267, R273 to R275). -/
def lvCompute (native : Option Nat) (x : Tile) (e : LvEntry) : Tile :=
  let w := ltWidth e.vtype
  let f := ltFmt e.vtype
  let a (i : Nat) := lvEl x e e.va i
  let b (i : Nat) := lvEl x e e.vb i
  match e.major, e.fn with
  | 0x28, fn => lvMap x e (fun i => (lvIntElem fn w (a i) (b i), 0))
  | 0x29, 7 =>
    let dst := if 8 ≤ e.vb then ltSew e.vtype else ltEt e.vtype
    lvMap x e (fun i => cvtElem e.rm (e.vb % 8) dst (elem (getV x e.va) (etWidth (e.vb % 8)) i))
  | 0x29, fn => lvMap x e (fun i => (lvLogicElem fn w (a i) (b i), 0))
  | 0x2A, fn => lvMap x e (fun i => lvFpElem fn e.rm f (a i) (b i) (lvEl x e e.vd i))
  | 0x2B, fn => lvMapMask x e.vd e.vl (lvActive x e.vl e.vm) (fun i => lvCmpElem fn w f (a i) (b i))
  | 0x2D, 0 => lvMap x e (fun _ => (e.a.toNat % 2 ^ w, 0))
  | 0x2D, 1 => lvMap x e (fun i => (a i, 0))
  | 0x2D, 3 => setEl0 x e e.a.toNat
  | 0x2D, 6 =>
    let sel := ((List.range e.vl).filter (fun i => (getVm x e.vb).getLsbD i)).map a
    setV x e.vd (packElems w (16384 / w) (fun i => sel.getD i (lvEl x e e.vd i)))
  | 0x2D, 7 => lvMap x e (fun i => (i % 2 ^ w, 0))
  | 0x2E, 5 => let r := maxList f ((activeEls x e).map (·.2)); accrueV (setEl0 x e r.1) r.2
  | 0x2E, 6 => let r := sumTree f e.rm 12 ((activeEls x e).map (·.2)); accrueV (setEl0 x e r.1) r.2
  | 0x2E, 7 =>
    let act := activeEls x e
    let r := smRow native e.vtype f (act.map (·.2))
    let out := (act.map (·.1)).zip r.1
    let x1 := setV x e.vd (packElems w (16384 / w) (fun i =>
      if i < e.vl then (match out.find? (fun p => p.1 == i) with | some p => p.2 | none => 0) else lvEl x e e.vd i))
    let x2 := accrueV x1 r.2.1
    if r.2.2 then { x2 with lvu := { x2.lvu with vcsr := setBit x2.lvu.vcsr 8 true } } else x2
  | 0x2E, fn => lvMap x e (fun i => transIn native e.vtype f fn (a i))
  | 0x2F, fn =>
    let ma := getVm x e.va
    let mb := getVm x e.vb
    lvMapMask x e.vd e.vl (fun _ => true) (fun i =>
      let p := ma.getLsbD i
      let q := mb.getLsbD i
      (match fn with | 2 => p && q | 3 => p || q | 4 => p != q | _ => p && !q, 0))
  | _, _ => x

/-! ### Errors (R276) -/

/-- Record an engine error: the first is held until both flags are clear (R215). -/
def engineErr (x : Tile) (flag code detail : Nat) : Tile :=
  let w := x.core.engErr
  let w1 := if bit w 0 || bit w 1 then w else setFld (setFld w 15 8 code) 47 16 detail
  { x with core := { x.core with engErr := setBit w1 flag true } }

/-- An engine's code and detail as a record's DETAIL, in the bit positions of TCB_ENGINE_ERR (R746, log entry 19, DEDUCED). -/
def engDetail (code detail : Nat) : Nat := 2 ^ 8 * code + 2 ^ 16 * (detail % 2 ^ 32)

/-- An engine error that becomes recorded while a dowel WAIT waits raises ENGINE there: the WAIT is abandoned (R204,
R314, R386). -/
def wakeEngine (s : Dev) (t : Nat) : Dev :=
  match (tileOf s t).core.wait with
  | .dwait _ => modTile (abandonWaits s t) t (fun x => enterException x 11 0 0)
  | _ => s

/-- A long-vector instruction fails (R276, IDs 0x1003 and 0x1008). -/
def lvError (s : Dev) (t code detail : Nat) (ctx : Option Nat) : Dev :=
  let s1 := modTile s t (fun x => engineErr x 0 code (detail % 2 ^ 32))
  wakeEngine (tileErr s1 t (if code = 3 then 0x1003 else 0x1008) 1 ctx (detail % 2 ^ 32) (engDetail code detail)) t

/-! ### Memory instructions (R269, R270) -/

/-- The element addresses of a memory instruction: index, address, bytes. `vlm`, `vsm` and `spload` are taken as
8-byte units, whatever `vl` (R263). -/
def lvAddrs (x : Tile) (e : LvEntry) : List (Nat × Nat × Nat) :=
  if e.major = 0x38 then
    (List.range (min e.b.toNat 16384 / 8)).map (fun i => (i, (e.a.toNat + 8 * i) % 2 ^ 64, 8))
  else if 6 ≤ e.fn then (List.range 32).map (fun i => (i, (e.a.toNat + 8 * i) % 2 ^ 64, 8))
  else
    let n := ltWidth e.vtype / 8
    ((List.range e.vl).filter (lvActive x e.vl e.vm)).map (fun i =>
      let off := match e.fn % 3 with | 0 => n * i | 1 => e.b.toNat * i | _ => lvEl x e e.vb i
      (i, (e.a.toNat + off) % 2 ^ 64, n))

/-- Where one element leads: the offset in the tile's own scratchpad, an error code of R276, a wait. -/
inductive ElRes where
  | ok (off : Nat)
  | fail (code : Nat)
  | miss
  | busy

/-- Check an access through the vector port (R269, R356): translation, own scratchpad, then zeroing and ownership.
`port` names the fault in TCB_DRAWER_FAULT. -/
def vecAccess (s : Dev) (u : XUnit) (t : Nat) (user : Bool) (ctx acc a n port : Nat) : Dev × ElRes :=
    let p : Dev × TRes :=
      if user then xlate s u ctx 0 acc a n
      else (s, match devDecode a with | some g => .ok g | none => .fail)
    match p with
    | (s1, .ok (.scratch tt off)) =>
      if tt ≠ t ∨ !(populated (off + n - 1)) then (s1, .fail 1)
      else
        let x := tileOf s1 t
        if drawerBusy x off then (s1, .busy)
        else if portMay x 1 user ctx off then (s1, .ok off)
        else (setTile s1 t (drawerFault x port off), .fail 2)
    | (s1, .ok _) => (s1, .fail 1)
    | (s1, .fail) => (s1, .fail 1)
    | (s1, .miss) => (s1, .miss)

/-- Check one element: its alignment first (R269, R356). -/
def lvElement (s : Dev) (u : XUnit) (t : Nat) (user : Bool) (ctx acc a n port : Nat) : Dev × ElRes :=
  if a % n ≠ 0 then (s, .fail 4) else vecAccess s u t user ctx acc a n port

/-- How the checks of a whole instruction end: the elements' offsets, the first failure, a wait. -/
inductive LvChk where
  | ok (offs : List (Nat × Nat × Nat))
  | fail (code addr : Nat)
  | wait

/-- Check every element in ascending order (R269): the lowest failing one decides. (log entry 44, DEDUCED) -/
def lvCheck (s : Dev) (t : Nat) (e : LvEntry) (acc : Nat) : List (Nat × Nat × Nat) → Dev × LvChk
  | [] => (s, .ok [])
  | (_, a, n) :: r =>
    match lvElement s (.lvu t) t e.user e.ctx acc a n 1 with
    | (s1, .ok off) =>
      match lvCheck s1 t e acc r with
      | (s2, .ok l) => (s2, .ok ((a, off, n) :: l))
      | q => q
    | (s1, .fail c) => (s1, .fail c a)
    | (s1, .miss) => (s1, .wait)
    | (s1, .busy) => (s1, .wait)

/-- Fold a record into the LVU digest: only while armed, in user mode (R658). -/
def foldLvu (x : Tile) (user : Bool) (r : FoldRec) (hist : Bool) : Tile :=
  if x.dig.armed && user then
    let d := { x.dig with lvu := crc64 x.dig.lvu (foldBytes r) }
    { x with dig := if hist then keepStore d r else d }
  else x

/-- The bytes a store writes by address, a later element over an earlier one. -/
def byteMap (l : List (Nat × List Byte)) : SMap (Option Byte) :=
  l.foldl (fun m p => (p.2.zipIdx).foldl (fun m q => minsert ((p.1 + q.2) % 2 ^ 64) (some q.1) m) m) []

/-- The fold records of a vector store: one for each aligned unit, ascending (R659 TYPE 5). -/
def storeRecs (m : SMap (Option Byte)) : List FoldRec :=
  ((m.map (fun p => p.1 / 8)).dedup).map (fun u =>
    let at8 (k : Nat) := mget none m (8 * u + k)
    ⟨5, packElems 1 8 (fun k => b2n (at8 k).isSome), 8 * u,
      BitVec.ofNat 64 (packElems 8 8 (fun k => ((at8 k).getD 0).toNat))⟩)

/-- The elements' bytes a store writes. -/
def storeData (x : Tile) (e : LvEntry) (idx n : Nat) : List Byte :=
  if e.fn = 7 then leBytes 8 (elem (getVm x e.vd) 64 idx) else leBytes n (lvEl x e e.vd idx)

/-- Perform a store's elements in ascending order (R269); a poisoned word they cover whole is good again (R368). -/
def lvStore (x : Tile) (e : LvEntry) (addrs offs : List (Nat × Nat × Nat)) : Tile :=
  let items := addrs.zip offs
  let x1 := items.foldl (fun y p => spadPut y p.2.2.1 (storeData x e p.1.1 p.1.2.2)) x
  let recs := storeRecs (byteMap (items.map (fun p => (p.1.2.1, storeData x e p.1.1 p.1.2.2))))
  recs.foldl (fun y r => foldLvu y e.user r true) (clearMarks x1 (offs.map (·.2)))

/-- Perform a load: the elements read go to vd, the mask register or the spindle buffer (R266, R283). -/
def lvLoad (x : Tile) (e : LvEntry) (addrs offs : List (Nat × Nat × Nat)) : Tile :=
  let items := addrs.zip offs
  let val (p : (Nat × Nat × Nat) × (Nat × Nat × Nat)) : Nat := leNat (spadGet x p.2.2.1 p.1.2.2)
  if e.major = 0x38 then
    { x with lvu := { x.lvu with sbuf := items.foldl (fun m p => mwrite 0 m (8 * p.1.1) (leBytes 8 (val p))) x.lvu.sbuf } }
  else if e.fn = 6 then setVm x e.vd (packElems 64 32 (fun i => val (items.getD i ((0, 0, 0), (0, 0, 0)))))
  else
    let w := ltWidth e.vtype
    let vals := items.map (fun p => (p.1.1, val p))
    setV x e.vd (packElems w (16384 / w) (fun i =>
      match vals.find? (fun p => p.1 == i) with | some p => p.2 | none => lvEl x e e.vd i))

/-- Is a captured instruction a memory instruction, and which access does it make? -/
def lvMem (e : LvEntry) : Option Nat :=
  if e.major = 0x38 then some 2
  else if e.major = 0x2C then some (if e.fn = 3 ∨ e.fn = 4 ∨ e.fn = 5 ∨ e.fn = 7 then 1 else 0)
  else none

/-- The head of the queue is done. -/
def lvPop (s : Dev) (t : Nat) : Dev := modTile s t (fun x => { x with lvu := { x.lvu with queue := x.lvu.queue.drop 1 } })

/-- Does `vl` = 0 make an instruction have no effect (R263)? `vlm`, `vsm` and `spload` do not depend on it. -/
def lvEmpty (e : LvEntry) : Bool := e.vl == 0 && e.major != 0x38 && !(e.major == 0x2C && decide (6 ≤ e.fn))

/-- The firmware build whose routines a tile of a native-mode partition runs: DET_LISTED's FW_BUILD (R345, R640, R672). -/
def tileNative (s : Dev) (t : Nat) : Option Nat :=
  match partOf (tileOf s t) with
  | some p => if pNative (partSt s p) then some (fld (ioGet s (0x0D1000 + 0x40 * p)) 31 0) else none
  | none => none

/-- Run the instruction at the head of the queue; a page fault or zeroing leaves it there (R269, R363). -/
def lvStart (s : Dev) (t : Nat) : Dev :=
  let x := tileOf s t
  match x.lvu.queue with
  | [] => s
  | e :: _ =>
    if s.hold then s else
    let ctx := some e.ctx
    if lvDropping x || lvEmpty e then lvPop s t
    else match lvMem e with
      | none => lvPop (setTile s t (lvCompute (tileNative s t) x e)) t
      | some acc =>
        if unitWaits s (.lvu t) then s
        else
          let addrs := lvAddrs x e
          match lvCheck s t e acc addrs with
          | (s1, .wait) => s1
          | (s1, .fail code a) => lvPop (lvError s1 t code a ctx) t
          | (s1, .ok offs) =>
            if acc = 1 then lvPop (modTile s1 t (fun y => lvStore y e addrs offs)) t
            else
              let s2 := match offs with | p :: _ => spadTouch s1 t p.2.1 | [] => s1
              let y := tileOf s2 t
              match offs.find? (fun p => spadPoisoned y p.2.1 p.2.2) with
              | some p => lvPop (lvError s2 t 3 p.1 ctx) t
              | none => lvPop (modTile s2 t (fun y => lvLoad y e addrs offs)) t

/-- R261: the unit starts the next queued instruction. -/
def execLvStart (t : TileId) (sys : State) : Host.Outcome State Fault Refusal := onDev sys fun s => lvStart s t

end Sys2Proof.Machine
end

