-- ==== Sys2Proof/Machine/Dowels.lean ====
section
/-! DEFINITION. Dowels and the clamp network (R373 to R398): names, the operations at a dowel, waiting, the tags that
make an operation apply once, and the sixteen barrier channels. -/

namespace Sys2Proof.Machine
open Sys2Proof

/-! ### A dowel -/

/-- The key of a dowel. -/
def dowelKey (tile idx : Nat) : Nat := tile * 512 + idx
/-- The stored part of a dowel word: COUNT and OVF (R373). -/
def dowelW (s : Dev) (tile idx : Nat) : Word := mget 0 s.dowels (dowelKey tile idx)
/-- COUNT of a dowel. -/
def dowelCount (s : Dev) (tile idx : Nat) : Nat := fld (dowelW s tile idx) 31 0

/-- Is a waiter remote to the tile of its dowel (R387)? -/
def remoteWaiter (w : DowelWaiter) : Bool := w.peer.isSome || w.src != w.tile
/-- The remote registrations of a dowel (R387). -/
def rwaitOf (s : Dev) (tile idx : Nat) : Nat :=
  s.waiters.countP (fun w => w.tile == tile && w.idx == idx && remoteWaiter w)
/-- The entries of a tile's waiter table in use (R387). -/
def tableUsed (s : Dev) (tile : Nat) : Nat := s.waiters.countP (fun w => w.tile == tile && remoteWaiter w)
/-- Is the core of a tile waiting on one of its own dowels (R373)? -/
def lwaitOn (s : Dev) (tile idx : Nat) : Bool :=
  match (tileOf s tile).core.wait with
  | .dwait d => d.peer == none && d.tile == tile && d.idx == idx
  | _ => false

/-- The dowel word as read (R373). -/
def dowelRead (s : Dev) (tile idx : Nat) : Word :=
  setFld (setBit (dowelW s tile idx) 32 (lwaitOn s tile idx)) 35 33 (rwaitOf s tile idx)

/-- A saturation is recorded (R398). -/
def recordOvf (s : Dev) (tile idx : Nat) : Dev :=
  modTile s tile (fun x =>
    let w := incFld x.dwl.ovf 47 32 1
    { x with dwl := { x.dwl with ovf := if bit w 9 then w else setBit (setFld w 8 0 idx) 9 true } })

/-- Wake one waiter (R384): a tile of this part, or a tile of a peer. -/
def wakeOne (s : Dev) (w : DowelWaiter) (ok : Bool) : Dev :=
  match w.peer with
  | none => { s with wakes := s.wakes ++ [(w.src, w.id, ok)] }
  | some slot => sendPeer s slot (.dowelAnswer w.src w.id (if ok then 0 else 1) 0)

/-- Every waiter whose condition holds is woken and leaves the table (R384). -/
def wakeReady (s : Dev) (tile idx : Nat) : Dev :=
  let c := dowelCount s tile idx
  let ready (w : DowelWaiter) : Bool := w.tile == tile && w.idx == idx && decide (w.n ≤ c)
  (s.waiters.filter ready).foldl (fun s w => wakeOne s w true)
    { s with waiters := s.waiters.filter (fun w => !(ready w)) }

/-- R379: ARRIVE (0), SET (1) or RESET (2) applied at the dowel as one action. -/
def applyDowel (s : Dev) (tile idx op v : Nat) : Dev :=
  let w := dowelW s tile idx
  let put (u : Word) : Dev := { s with dowels := mset 0 s.dowels (dowelKey tile idx) u }
  match op with
  | 0 =>
    let sum := fld w 31 0 + v
    if 2 ^ 32 ≤ sum then wakeReady (recordOvf (put (setBit (setFld w 31 0 (2 ^ 32 - 1)) 36 true)) tile idx) tile idx
    else wakeReady (put (setFld w 31 0 sum)) tile idx
  | 1 => wakeReady (put (BitVec.ofNat 64 (v % 2 ^ 32))) tile idx
  | _ => wakeReady (put 0) tile idx

/-! ### Names (R375 to R377) -/

/-- What a name leads to. -/
inductive NameRes where
  | own (tile idx : Nat)
  | peer (slot part rank idx : Nat) (build : BitVec 32)
  | bad

/-- R375, R377: what a dowel name leads to for a tile. -/
def dowelName (s : Dev) (t : Nat) (n : Word) : NameRes :=
  let idx := fld n 8 0
  let rank := fld n 16 9
  let slot := fld n 25 18
  match partOf (tileOf s t) with
  | none => .bad
  | some p =>
    if fld n 63 26 ≠ 0 then .bad
    else if bit n 17 then
      match liveBind s p slot with
      | some (pp, tiles, build) => if rank < tiles then .peer slot pp rank idx build else .bad
      | none => .bad
    else if slot ≠ 0 ∨ pTiles (partSt s p) ≤ rank then .bad
    else .own (tileOfRank (partSt s p) rank) idx

/-! ### Sending and applying once (R383, R388, R413) -/

/-- A source of dowel operations as a number. -/
def srcKey : DowelSrc → Nat
  | .core t => 8 * t
  | .spindle t => 8 * t + 1
  | .me t => 8 * t + 2
  | .te t ch => 8 * (t + 1024 * (ch + 1)) + 3
  | .host p f => 8 * (p * 256 + f) + 4
  | .iod => 5
  | .peer sl => 8 * sl + 6

/-- The tile an operation leaves, if any. -/
def srcTile : DowelSrc → Option Nat
  | .core t => some t
  | .spindle t => some t
  | .me t => some t
  | .te t _ => some t
  | _ => none

/-- Is a message that tile `a` sent to tile `b` before the message of place `ord` still on its way (R66)? -/
def earlierSent (s : Dev) (a b ord : Nat) : Bool :=
  s.mesh.any (fun m => m.src == a && m.dst == b && decide (m.ord < ord)) ||
    s.dops.any (fun m => srcTile m.src == some a && m.tile == b && decide (m.ord < ord))

/-- Has every message of tile `a` to tile `b` arrived (R66, R383)? What `a` asks of `b` next comes after them. -/
def meshClear (s : Dev) (a b : Nat) : Bool := !(earlierSent s a b s.sent)

/-- Is an operation the oldest on its way from its source to its tile (R66, R383)? -/
def oldestOp (s : Dev) (m : DowelMsg) : Bool :=
  match srcTile m.src with
  | some a => !(earlierSent s a m.tile m.ord)
  | none => !(s.dops.any (fun q => decide (q.src = m.src) && q.tile == m.tile && decide (q.ord < m.ord)))

/-- The present build number of the partition a tile belongs to (R388). -/
def buildOf (s : Dev) (t : Nat) : BitVec 32 :=
  match partOf (tileOf s t) with | some p => (partSt s p).build | none => 0

/-- An operation on a dowel of this part: on the source's own tile it is applied at once, otherwise it leaves with its
tags (R388). -/
def sendDowel (s : Dev) (src : DowelSrc) (build : BitVec 32) (tile idx op v : Nat) (block : Option (Nat × Nat × Nat)) :
    Dev :=
  if srcTile src = some tile then applyDowel s tile idx op v
  else
    let k := srcKey src
    { s with dops := s.dops ++ [⟨src, tile, idx, op, v, mget 0 s.dseq k, build, block, s.sent⟩]
             dseq := mmod 0 s.dseq k (· + 1)
             sent := s.sent + 1 }

/-- A count of TCB_DWL_STATS.STALE (R388). -/
def countStale (s : Dev) (tile : Nat) : Dev :=
  modTile s tile (fun x => { x with dwl := { x.dwl with stats := incFld x.dwl.stats 31 0 1 } })

/-- The completion filter (R413): whether a tagged ARRIVE is a repetition, and the filter after it. -/
def filterBlock (f : List (Nat × Nat × Nat × Nat)) (tile ch ticket b : Nat) : Bool × List (Nat × Nat × Nat × Nat) :=
  match f.find? (fun e => e.1 == tile && e.2.1 == ch && e.2.2.1 == ticket) with
  | some e =>
    if b ≤ e.2.2.2 then (true, f)
    else (false, f.filter (fun x => !(x.1 == tile && x.2.1 == ch && x.2.2.1 == ticket)) ++ [(tile, ch, ticket, b)])
  | none => let g := f ++ [(tile, ch, ticket, b)]; (false, g.drop (g.length - 16))

/-- A tagged operation reaches its target (R388, R413). -/
def arriveDowel (s : Dev) (m : DowelMsg) : Dev :=
  if m.build ≠ buildOf s m.tile then countStale s m.tile
  else
    match m.block, srcTile m.src with
    | some (ch, ticket, b), some st =>
      let r := filterBlock (tileOf s m.tile).teFilter st ch ticket b
      if r.1 then modTile s m.tile (fun x => { x with teDiscarded := satAdd 32 x.teDiscarded 1 })
      else applyDowel (modTile s m.tile (fun x => { x with teFilter := r.2 })) m.tile m.idx m.op m.v
    | _, _ => applyDowel s m.tile m.idx m.op m.v

/-- R388, R383: the oldest operation of a source on its way to a dowel arrives, behind what the source sent to that tile
before it (R66). -/
def execDowelOpArrival (src : DowelSrc) (tile : TileId) (idx : Fin 512) (sys : State) : Host.Outcome State Fault Refusal := onDev sys fun s =>
  match s.dops.find? (fun m => decide (m.src = src) && m.tile == tile.val && m.idx == idx.val) with
    | some m => if oldestOp s m then arriveDowel { s with dops := s.dops.erase m } m else s
    | none => s

/-- Send an operation to what a name leads to. -/
def sendNamed (s : Dev) (src : DowelSrc) (t : Nat) (r : NameRes) (op v : Nat) (block : Option (Nat × Nat × Nat)) : Dev :=
  match r with
  | .own tile idx => sendDowel s src (buildOf s t) tile idx op v block
  | .peer slot pp rank idx build =>
    match partOf (tileOf s t) with
    | some p => sendPeer s slot (.dowelOp p pp src rank idx op v build block)
    | none => s
  | .bad => s

/-! ### The dowel instructions (R380 to R387) -/

/-- Have all earlier long-vector stores been performed (R270)? -/
def lvStoresDone (x : Tile) : Bool := !(x.lvu.queue.any (fun e => lvMem e == some 1))

/-- The record of a dowel or clamp instruction (R659 TYPE 6). -/
def foldSync (x : Tile) (k : Nat) (name : Word) (v : Nat) : Tile := foldCore x 6 k (name.toNat % 2 ^ 48) (BitVec.ofNat 64 v)

/-- `darrive`, `dset` and `dreset`: the release conditions of R382, then the operation leaves. -/
def dowelInstr (s : Dev) (ti : TileId) (gu : Guard) (ra : RegNo) (op : Nat) (operand : Tile → Nat) : Dev :=
  issue s ti gu 4 (fun _ => false) (fun x =>
    let name := getG x ra
    match dowelName s ti name with
    | .bad => .exc 7 0 name
    | r =>
      if !(storesDrained x && lvStoresDone x) then stallPlain s x
      else
        let v := operand x
        let s1 := sendNamed (setTile s ti x) (.core ti) ti r op v none
        .done s1 (foldSync (tileOf s1 ti) op name v) 1)

/-- R380: ARRIVE gb[31:0]. -/
def execDarrive (t : TileId) (gu : Guard) (ra rb : RegNo) (sys : State) : Host.Outcome State Fault Refusal := onDev sys fun s =>
  dowelInstr s t gu ra 0 (fun x => fld (getG x rb) 31 0)
/-- R380: SET gb[31:0]. -/
def execDset (t : TileId) (gu : Guard) (ra rb : RegNo) (sys : State) : Host.Outcome State Fault Refusal := onDev sys fun s =>
  dowelInstr s t gu ra 1 (fun x => fld (getG x rb) 31 0)
/-- R380: RESET. -/
def execDreset (t : TileId) (gu : Guard) (ra : RegNo) (sys : State) : Host.Outcome State Fault Refusal := onDev sys fun s =>
  dowelInstr s t gu ra 2 (fun _ => 0)

/-- A core checkpoint leaves for the twin (R661, R663). -/
def coreCheckpoint (s : Dev) (t : Nat) : Dev :=
  let x := tileOf s t
  if x.dig.armed && isUser x then
    let d := x.dig.core ^^^ crcInit
    let rank := match partOf x with | some p => rankOf (partSt s p) t | none => 0
    let s1 := setTile s t { x with dig := { x.dig with ckpt := x.dig.ckpt + 1, pending := x.dig.pending ++ [(x.dig.ckpt, d, s.time)] } }
    sendPeer s1 (s.lny.slot ^^^ 1) (.bookmatch 3 [BitVec.ofNat 64 rank, BitVec.ofNat 64 x.dig.ckpt, d])
  else s

/-- Are 64 core checkpoints outstanding (R667)? -/
def ckptFull (x : Tile) : Bool := x.dig.armed && isUser x && decide (64 ≤ x.dig.pending.length)

/-- The name a wait was issued with. -/
def dwaitName (s : Dev) (t : Nat) (d : DwaitRec) : Word :=
  match d.peer with
  | some (slot, _) => BitVec.ofNat 64 (d.idx + d.tile * 2 ^ 9 + 2 ^ 17 + slot * 2 ^ 18)
  | none =>
    let r := match partOf (tileOf s t) with | some p => rankOf (partSt s p) d.tile | none => 0
    BitVec.ofNat 64 (d.idx + r * 2 ^ 9)

/-- A wait completes, normally or broken (R381, R385, R661, R667). -/
def dwaitDone (s : Dev) (t : Nat) (d : DwaitRec) (ok : Bool) : Dev :=
  let x := tileOf s t
  if ok && ckptFull x then setTile s t { x with core := { x.core with wait := .dwait { d with ckpt := true } } }
  else
    let x1 : Tile := { x with core := { x.core with wait := .none } }
    let x2 := setP (foldSync x1 3 (dwaitName s t d) d.n) d.pd ok
    let s1 := setTile s t (advance x2 4 1)
    settle (if ok then coreCheckpoint s1 t else s1) t

/-- The condition of a wait does not hold yet: it is registered, or polls (R384, R387). -/
def dwaitPark (s : Dev) (t : Nat) (d : DwaitRec) : Dev :=
  let park (s : Dev) (reg : Bool) : Dev :=
    modTile s t (fun x => { x with core := { x.core with wait := .dwait { d with registered := reg } } })
  match d.peer, partOf (tileOf s t) with
  | some (slot, pp), some p =>
    let b := match liveBind s p slot with | some (_, _, b) => b | none => 0
    sendPeer (park s true) slot (.dowelWait p pp t d.tile d.idx d.n d.id b)
  | _, _ =>
    if d.tile = t ∨ (tableUsed s d.tile < 64 ∧ rwaitOf s d.tile d.idx < 4) then
      let s1 := park s true
      { s1 with waiters := s1.waiters ++ [⟨d.tile, d.idx, none, t, d.n, d.id⟩] }
    else
      modTile (park s false) t (fun x => { x with dwl := { x.dwl with stats := incFld x.dwl.stats 63 32 1 } })

/-- Is a name a dowel of another tile that messages of this one have still to reach (R383)? -/
def behindOwn (s : Dev) (t : Nat) : NameRes → Bool
  | .own tile _ => decide (tile ≠ t) && !(meshClear s t tile)
  | _ => false

/-- R384: `dwait pd, ga, gb`; ENGINE if an engine error is recorded (R204, R314). A wait on another tile's dowel reaches it
behind the tile's own operations (R383). -/
def execDwait (t : TileId) (gu : Guard) (pd : PredNo) (ra rb : RegNo) (sys : State) : Host.Outcome State Fault Refusal := onDev sys fun s =>
  issue s t gu 4 (fun _ => false) (fun x =>
    let name := getG x ra
    let n := fld (getG x rb) 31 0
    match dowelName s t name with
    | .bad => .exc 7 0 name
    | r =>
      if bit x.core.engErr 0 || bit x.core.engErr 1 then .exc 11 0 0
      else if behindOwn s t r then stallWait s x
      else
        let s0 := { setTile s t x with reqCtr := s.reqCtr + 1 }
        let d : DwaitRec := match r with
          | .own tile idx => ⟨none, tile, idx, n, pd, true, false, s.reqCtr⟩
          | .peer slot pp rank idx _ => ⟨some (slot, pp), rank, idx, n, pd, true, false, s.reqCtr⟩
          | .bad => ⟨none, 0, 0, 0, 0, true, false, s.reqCtr⟩
        let own := match r with | .own tile idx => some (tile, idx) | _ => none
        let s1 := match own with
          | some (tile, idx) =>
            if n ≤ dowelCount s0 tile idx then
              (if tile = t.val then dwaitDone s0 t d true
               else
                let s2 := modTile s0 t (fun y => { y with core := { y.core with wait := .dwait d } })
                { s2 with wakes := s2.wakes ++ [(t.val, s.reqCtr, true)] })
            else dwaitPark s0 t d
          | none => dwaitPark s0 t d
        .raw s1 (tileOf s1 t))

/-- A `dread` or `dtest` of a peer that fails raises ACCESS with the name, precisely. (log entry 70, DESIGN CHOICE) -/
def dowelReadFails (s : Dev) (t : Nat) (l : RemoteLoad) : Dev :=
  let name := match l.parts with | (_, a, _) :: _ => a | [] => 0
  settle (modTile s t (fun x =>
    enterException (landDue { x with core := { x.core with wait := .none } }) 7 0 (BitVec.ofNat 64 name))) t

/-- R384: a wake message reaches its tile and completes the wait of its number; one for a withdrawn registration is
dropped (R386). A request to a peer that failed is told in the same way (R588, R592). (log entry 13, DESIGN CHOICE) -/
def execDowelWake (t : TileId) (sys : State) : Host.Outcome State Fault Refusal := onDev sys fun s =>
  match s.wakes.find? (fun w => w.1 == t.val) with
    | some w =>
      let s1 := { s with wakes := s.wakes.erase w }
      match (tileOf s1 t).core.wait with
      | .dwait d => if d.id = w.2.1 then dwaitDone s1 t d w.2.2 else s1
      | .load l => if (l.op = 8 ∨ l.op = 9) ∧ l.id = w.2.1 ∧ w.2.2 = false then dowelReadFails s1 t l else s1
      | _ => s1
    | none => s

/-- R387: an unregistered waiter reads the dowel; R667: a wait held for a checkpoint looks again. -/
def execDwaitPoll (t : TileId) (sys : State) : Host.Outcome State Fault Refusal := onDev sys fun s =>
  match (tileOf s t).core.wait with
    | .dwait d =>
      if d.ckpt then dwaitDone s t d true
      else if d.registered then s
      else
        match d.peer, partOf (tileOf s t) with
        | some (slot, pp), some p =>
          let b := match liveBind s p slot with | some (_, _, b) => b | none => 0
          sendPeer s slot (.dowelRead p pp t d.tile d.idx d.id b)
        | _, _ => if d.n ≤ dowelCount s d.tile d.idx ∧ (d.tile = t.val ∨ meshClear s t d.tile) then dwaitDone s t d true else s
    | _ => s

/-- What a load that waited brings: registers are written and the core goes on (R186, R248, R380). -/
def loadArrives (s : Dev) (t : Nat) (l : RemoteLoad) (bs : List Byte) : Dev :=
  let x := tileOf s t
  let x1 : Tile := { x with core := { x.core with wait := .none } }
  let v := leNat bs
  let r : Tile × Nat := match l.op with
    | 7 => (setSv x1 l.rd false v, 4)
    | 10 => (setSv x1 l.rd true v, 8)
    | 8 => (pendLoad x1 l.rd (BitVec.ofNat 64 v), 1)
    | 9 => (setP x1 l.rd (match l.parts with | (_, _, n) :: _ => decide (n ≤ v % 2 ^ 32) | [] => false), 1)
    | op => (pendLoad x1 l.rd (loadExt op v), 1)
  settle (setTile s t (advance r.1 l.size r.2)) t

/-- `dtest` and `dread` go to the dowel; one of the tile's own is read at once. -/
def dowelQuery (s : Dev) (ti : TileId) (x : Tile) (name : Word) (op rd n : Nat) : Res :=
  match dowelName s ti name with
  | .bad => .exc 7 0 name
  | .own tile idx =>
    let x1 := foldSync x (if op = 9 then 4 else 5) name (if op = 9 then n else 0)
    let l : RemoteLoad := ⟨op, rd, [(.dowel tile idx, name.toNat, n)], 4, s.reqCtr⟩
    let wait : Tile := { x1 with core := { x1.core with wait := .load l } }
    if tile = ti.val then
      let s1 := loadArrives (setTile s ti wait) ti l (leBytes 8 (dowelRead s tile idx).toNat)
      .raw s1 (tileOf s1 ti)
    else .raw { s with reqCtr := s.reqCtr + 1 } wait
  | .peer slot pp rank idx build =>
    let x1 := foldSync x (if op = 9 then 4 else 5) name (if op = 9 then n else 0)
    let l : RemoteLoad := ⟨op, rd, [(.dowel rank idx, name.toNat, n)], 4, s.reqCtr⟩
    let wait : Tile := { x1 with core := { x1.core with wait := .load l } }
    match partOf x with
    | some p => let s1 := sendPeer (setTile { s with reqCtr := s.reqCtr + 1 } ti wait) slot (.dowelRead p pp ti rank idx s.reqCtr build); .raw s1 (tileOf s1 ti)
    | none => .raw s wait

/-- R380: `dtest pd, ga, gb`. -/
def execDtest (t : TileId) (gu : Guard) (pd : PredNo) (ra rb : RegNo) (sys : State) : Host.Outcome State Fault Refusal := onDev sys fun s =>
  issue s t gu 4 (fun _ => false) (fun x => dowelQuery s t x (getG x ra) 9 pd (fld (getG x rb) 31 0))

/-- R380: `dread gd, ga`, a load. -/
def execDread (t : TileId) (gu : Guard) (rd ra : RegNo) (sys : State) : Host.Outcome State Fault Refusal := onDev sys fun s =>
  issue s t gu 4 (fun _ => false) (fun x =>
    match dowelName s t (getG x ra) with
    | .bad => .exc 7 0 (getG x ra)
    | _ => if !(x.core.sb.isEmpty) then stallPlain s x else dowelQuery s t x (getG x ra) 8 rd 0)

/-- A store command as R378 reads it: operand and operation, none where it is refused. -/
def storeCommand (v : Word) : Option (Nat × Nat) :=
  if fld v 33 32 = 3 ∨ fld v 63 34 ≠ 0 then none else some (fld v 33 32, fld v 31 0)

/-- R378: a host store to a dowel address applies its operation, or is refused and recorded. -/
def dowelStore (s : Dev) (port : Nat) (tile idx : Nat) (v : Word) : Dev :=
  match storeCommand v with
  | some (op, n) => applyDowel s tile idx op n
  | none => hostRefused s (partOf (tileOf s tile)) port (0x4100000000 + tile * 0x1000 + 8 * idx)

/-- R378: the store command of a host port at a dowel of the part. -/
def execDowelStoreCommand (port : Fin 2) (tile : TileId) (idx : Fin 512) (v : Word) (sys : State) :
    Host.Outcome State Fault Refusal := onDev sys fun s => dowelStore s port tile idx v

/-! ### The clamp network (R389 to R395) -/

/-- A clamp channel. -/
def clampOf (s : Dev) (c : Nat) : ClampSt := mget ClampSt.reset s.clamps c
/-- Change a clamp channel. -/
def modClamp (s : Dev) (c : Nat) (f : ClampSt → ClampSt) : Dev := { s with clamps := mmod ClampSt.reset s.clamps c f }

/-- The channels a partition owns, lowest first (R389). -/
def clampsOf (s : Dev) (p : Nat) : List Nat :=
  (List.range 16).filter (fun c => (clampOf s c).valid && (clampOf s c).part == p)

/-- The channel a register names (R391): none raises ACCESS. -/
def clampName (s : Dev) (x : Tile) (g : Word) : Option Nat :=
  match partOf x with
  | some p => if fld g 63 4 ≠ 0 then none else (clampsOf s p)[fld g 3 0]?
  | none => none

/-- A bit of a tile's 16-bit set. -/
def setB16 (w : BitVec 16) (i : Nat) (b : Bool) : BitVec 16 :=
  if b then w ||| ((1 : BitVec 16) <<< i) else w &&& ~~~((1 : BitVec 16) <<< i)

/-- One arrive of a tile at a channel (R390); one owed a broken release sees it instead (R395). -/
def clampArrive (s : Dev) (t c : Nat) : Dev :=
  let x := tileOf s t
  if x.dwl.clampOwed.getLsbD c then
    setTile s t { x with dwl := { x.dwl with
      clampOwed := setB16 x.dwl.clampOwed c false, lastBroken := setB16 x.dwl.lastBroken c true } }
  else
    modClamp (setTile s t { x with dwl := { x.dwl with clampPend := setB16 x.dwl.clampPend c true } }) c
      (fun k => { k with arrived := k.arrived + 1 })

/-- R390, R391: `carrive ga`. -/
def execCarrive (t : TileId) (gu : Guard) (ra : RegNo) (sys : State) : Host.Outcome State Fault Refusal := onDev sys fun s =>
  issue s t gu 4 (fun _ => false) (fun x =>
    match clampName s x (getG x ra) with
    | none => .exc 7 0 (getG x ra)
    | some c =>
      if !(storesDrained x && lvStoresDone x) || x.dwl.clampPend.getLsbD c then stallPlain s x
      else let s1 := clampArrive (setTile s t x) t c; .done s1 (foldSync (tileOf s1 t) 8 (getG x ra) 0) 1)

/-- R391: `cwait pd, ga`. -/
def execCwait (t : TileId) (gu : Guard) (pd : PredNo) (ra : RegNo) (sys : State) : Host.Outcome State Fault Refusal := onDev sys fun s =>
  issue s t gu 4 (fun _ => false) (fun x =>
    match clampName s x (getG x ra) with
    | none => .exc 7 0 (getG x ra)
    | some c =>
      if x.dwl.clampPend.getLsbD c then stallWait s x
      else .done s (setP (foldSync x 9 (getG x ra) 0) pd (!(x.dwl.lastBroken.getLsbD c))) 1)

/-- R391: `ctest pd, ga`. -/
def execCtest (t : TileId) (gu : Guard) (pd : PredNo) (ra : RegNo) (sys : State) : Host.Outcome State Fault Refusal := onDev sys fun s =>
  issue s t gu 4 (fun _ => false) (fun x =>
    match clampName s x (getG x ra) with
    | none => .exc 7 0 (getG x ra)
    | some c => .done s (setP (foldSync x 10 (getG x ra) 0) pd (!(x.dwl.clampPend.getLsbD c))) 1)

/-- R391, R386: `cbar` arrives once and then waits; issued again after its arrive it acts as `cwait`. -/
def execCbar (t : TileId) (gu : Guard) (pd : PredNo) (ra : RegNo) (sys : State) : Host.Outcome State Fault Refusal := onDev sys fun s =>
  issue s t gu 4 (fun _ => false) (fun x =>
    match clampName s x (getG x ra) with
    | none => .exc 7 0 (getG x ra)
    | some c =>
      let mark (y : Tile) (b : Bool) : Tile := { y with dwl := { y.dwl with barDone := setB16 y.dwl.barDone c b } }
      let finishBar (s : Dev) (y : Tile) : Res :=
        .done s (setP (foldSync (mark y false) 11 (getG x ra) 0) pd (!(y.dwl.lastBroken.getLsbD c))) 1
      if x.dwl.barDone.getLsbD c then
        (if x.dwl.clampPend.getLsbD c then stallWait s x else finishBar s x)
      else if !(storesDrained x && lvStoresDone x) || x.dwl.clampPend.getLsbD c then stallPlain s x
      else
        let s1 := clampArrive (setTile s t x) t c
        let y := mark (tileOf s1 t) true
        if y.dwl.clampPend.getLsbD c then stallWait s1 y else finishBar s1 y)

/-- The release of a channel to its participants (R390, R395): `ok` or broken. -/
def releaseTiles (s : Dev) (c : Nat) (ok : Bool) : Dev :=
  (membersOf (partSt s (clampOf s c).part)).foldl (fun s t =>
    modTile s t (fun x =>
      if ok then
        { x with dwl := { x.dwl with clampPend := setB16 x.dwl.clampPend c false
                                     lastBroken := setB16 x.dwl.lastBroken c false } }
      else if x.dwl.clampPend.getLsbD c then
        { x with dwl := { x.dwl with clampPend := setB16 x.dwl.clampPend c false
                                     lastBroken := setB16 x.dwl.lastBroken c true
                                     clampBroken := setB16 x.dwl.clampBroken c true } }
      else { x with dwl := { x.dwl with clampOwed := setB16 x.dwl.clampOwed c true
                                        clampBroken := setB16 x.dwl.clampBroken c true } })) s

/-- A normal release (R390): GEN goes up, ARRIVED is 0. -/
def releaseClamp (s : Dev) (c : Nat) : Dev :=
  modClamp (releaseTiles s c true) c (fun k => { k with gen := (k.gen + 1) % 2 ^ 16, arrived := 0, brokenLast := false, sent := false })

/-- A broken release on a member of a cabinet group (R395): GEN is 0. (log entry 42, DEDUCED) -/
def breakClamp (s : Dev) (c : Nat) : Dev :=
  modClamp (releaseTiles s c false) c (fun k => { k with gen := 0, arrived := 0, brokenLast := true, sent := false })

/-- The channel that takes part in a cabinet group: the lowest that names it (R594). -/
def groupChannel (s : Dev) (g : Nat) : Option Nat :=
  (List.range 16).find? (fun c => (clampOf s c).valid && (clampOf s c).cab && (clampOf s c).group == g)

/-- A cabinet barrier group. -/
def grpOf (s : Dev) (g : Nat) : LGrp := mget LGrp.reset s.lny.grps g
/-- The member slots of a group, lowest first (R594, R606). -/
def grpMembers (q : LGrp) : List Nat :=
  (List.range 256).filter (fun i =>
    bit (match i / 64 with | 0 => q.m0 | 1 => q.m1 | 2 => q.m2 | _ => q.m3) (i % 64))
/-- The root of a group. -/
def grpRoot (q : LGrp) : Nat := (grpMembers q).headD 0

/-- Change a cabinet barrier group. -/
def setGrp (s : Dev) (g : Nat) (q : LGrp) : Dev := { s with lny := { s.lny with grps := mset LGrp.reset s.lny.grps g q } }
/-- The incarnation of a slot as this part knows it (R589). -/
def incOf (s : Dev) (slot : Nat) : BitVec 32 := if slot = s.lny.slot then s.lny.inc else (ltxOf s slot).inc

/-- A member releases its participants and moves to the next generation (R595 step 4). -/
def memberRelease (s : Dev) (g : Nat) : Dev :=
  let q := grpOf s g
  let s1 := setGrp s g { q with gen := (q.gen + 1) % 2 ^ 16, bits := [] }
  match groupChannel s g with | some c => releaseClamp s1 c | none => s1

/-- The members other than this part. -/
def otherMembers (s : Dev) (q : LGrp) : List Nat := (grpMembers q).filter (fun m => decide (m ≠ s.lny.slot))

/-- The root records a member's arrive; with every bit set it releases (R595 steps 2 and 3). -/
def rootArrive (s : Dev) (g slot : Nat) : Dev :=
  let q := grpOf s g
  let bits := if q.bits.contains slot then q.bits else q.bits ++ [slot]
  if (grpMembers q).all (fun m => bits.contains m) then
    memberRelease ((otherMembers s q).foldl (fun s m => sendPeer s m (.barrier 1 g q.gen q.aborts s.lny.inc)) s) g
  else setGrp s g { q with bits := bits }

/-- A broken release at a member (R395, R596): generation 0, the abort count the root names. The member that aborted
only adopts them, since its tiles do not observe the abort (R394); an arrive it sent meanwhile goes out again. -/
def memberBroken (s : Dev) (g aborts : Nat) (quiet : Bool) : Dev :=
  let s1 := setGrp s g { grpOf s g with gen := 0, aborts := aborts, bits := [], aborting := false }
  match groupChannel s g with
  | some c => if quiet then modClamp s1 c (fun k => { k with sent := false }) else breakClamp s1 c
  | none => s1

/-- The root acts on an abort (R596 step 2); the abort count keeps all ones (R773). -/
def rootAbort (s : Dev) (g : Nat) (quiet : Bool) : Dev :=
  let q := grpOf s g
  let n := satAdd 16 q.aborts 1
  memberBroken ((otherMembers s q).foldl (fun s m => sendPeer s m (.barrier 2 g 0 n s.lny.inc)) s) g n quiet

/-- This part aborts in a group (R596 step 1). -/
def groupAbort (s : Dev) (g : Nat) : Dev :=
  let q := grpOf s g
  if !q.valid then s
  else if grpRoot q = s.lny.slot then rootAbort s g true
  else sendPeer (setGrp s g { q with aborting := true }) (grpRoot q) (.barrier 3 g q.gen q.aborts (incOf s (grpRoot q)))

/-- R390, R393, R595: every participant has arrived; the channel releases, or the part sends its arrive to the root of
the cabinet group. -/
def execClampRelease (c : Fin 16) (sys : State) : Host.Outcome State Fault Refusal := onDev sys fun s =>
  let k := clampOf s c
  if k.valid && decide (k.arrived = pTiles (partSt s k.part)) && decide (k.arrived ≠ 0) then
      (if k.cab && groupChannel s k.group == some c.val && (grpOf s k.group).valid then
        let q := grpOf s k.group
        let root := grpRoot q
        let s1 := modClamp s c (fun k => { k with sent := true })
        if k.sent then s
        else if root = s.lny.slot then rootArrive s1 k.group root
        else sendPeer s1 root (.barrier 0 k.group q.gen q.aborts (incOf s root))
      else releaseClamp s c)
    else s

/-- R394: the channels a partition owns are aborted, which is no release; a cabinet group is told (R395). -/
def clampAbort (s : Dev) (p : Nat) : Dev :=
  (clampsOf s p).foldl (fun s c =>
    let k := clampOf s c
    let s1 := modClamp s c (fun k => { k with gen := 0, arrived := 0, sent := false })
    let s2 := (membersOf (partSt s p)).foldl (fun s t => modTile s t (fun x =>
      { x with dwl := { x.dwl with clampPend := setB16 x.dwl.clampPend c false, barDone := setB16 x.dwl.barDone c false } })) s1
    if k.cab && groupChannel s k.group == some c then groupAbort s2 k.group else s2) s

end Sys2Proof.Machine
end

