-- ==== Sys2Proof/Machine/Drawers.lean ====
section
/-! DEFINITION. Drawer ownership and zeroing (R358 to R364), requests at a tile's transfer port (R365, R366), and the
patrol scrubber (R369, R370). -/

namespace Sys2Proof.Machine
open Sys2Proof

/-- Change the drawer state of a tile. -/
def modDr (x : Tile) (f : DrawerSt → DrawerSt) : Tile := { x with dr := f x.dr }

/-- A drawer waits for zeroing, unless it is clean (R361). -/
def wantZero (x : Tile) (d : Nat) : Tile :=
  if x.dr.clean.getLsbD d then x
  else modDr x (fun r => { r with zeroing := r.zeroing ||| ((1 : BitVec 6) <<< d) })

/-- The owning context of TCB_DRAWER_OWNd: CTX_V and CTX (R354). -/
def ownPair (w : Word) : Nat := fld w 13 5

/-- R358, R361, R364: a write of TCB_DRAWER_OWNd. -/
def drawerOwnWrite (s : Dev) (t d : Nat) (v : Word) : Dev :=
  modTile s t (fun x =>
    let old := drawerOwn x d
    let new := lowBits v 14
    let moves := decide (ownPair old ≠ ownPair new)
    if bit old 4 && moves then modDr x (fun r => { r with reject := true })
    else
      let x1 := modDr x (fun r => { r with own := mset 7 r.own d new })
      if moves then wantZero x1 d else x1)

/-- R358: the write takes effect at the tile. -/
def execDrawerOwnWrite (t : TileId) (d : Fin 6) (v : Word) (sys : State) : Host.Outcome State Fault Refusal := onDev sys fun s =>
  drawerOwnWrite s t d v

/-- The drawer zeroed next: the lowest that waits (R362). -/
def nextZero (x : Tile) : Option Nat := (List.range 6).find? (fun d => x.dr.zeroing.getLsbD d)

/-- Does a checked access to a drawer remain to be performed (R220, R311, R362)? A store counts wherever it is buffered, and
on its way over the mesh. -/
def drawerInUse (s : Dev) (t d : Nat) : Bool :=
  s.tiles.any (fun e => e.2.core.sb.any (sbOverlaps t (d * 0x80000) 0x80000)) ||
    s.mesh.any (fun m => m.dst == t && m.off / 0x80000 == d) || (tileOf s t).me.run.isSome

/-- Every byte of a drawer is zero and no word of it poisoned (R362 step 3). -/
def zeroDrawer (x : Tile) (d : Nat) : Tile :=
  { x with
    spad := mclear x.spad (d * 0x80000) 0x80000
    dr := { x.dr with
      poison := mclear x.dr.poison (d * 0x2000) 0x2000
      wbPend := x.dr.wbPend.filter (fun w => decide (w / 0x2000 ≠ d)) } }

/-- R362: one drawer at a time in ascending order, after the accesses checked before it. -/
def execDrawerZeroingStart (t : TileId) (sys : State) : Host.Outcome State Fault Refusal := onDev sys fun s =>
  let x := tileOf s t
  match x.dr.zeroRun, nextZero x with
    | none, some d =>
      if drawerInUse s t d then s
      else setTile s t (modDr (zeroDrawer x d) (fun r => { r with zeroRun := some d }))
    | _, _ => s

/-! ### The transfer port (R365, R366) -/

/-- A write of the scalar or the transfer port that is narrower than 8 bytes or unaligned reads the check code to
merge (R352), so it meets an armed injection (R759). -/
def mergeTouch (s : Dev) (t off n : Nat) : Dev :=
  if n < 8 ∨ off % 8 ≠ 0 then spadTouch s t off else s

/-- A store of another tile at the bank: it is checked there as any transfer-port access, and one refused is recorded and
changes nothing (R355, R366). Its source was told of the drawer's ownership when the store entered its buffer (R195). (log
entry 69, DEDUCED) -/
def storeArrives (s : Dev) (m : PortReq) : Dev :=
  if !(transferMay (tileOf s m.dst) m.off) then modTile s m.dst (fun y => drawerFault y 5 m.off)
  else modTile (mergeTouch s m.dst m.off m.n) m.dst (fun x => spadPut x m.off (leBytes m.n m.val.toNat))

/-- Is a drawer being zeroed, so that its zeroing no longer waits for anything (R362, R363)? -/
def zeroRunning (x : Tile) (off : Nat) : Bool := x.dr.zeroRun == some (drawerOf off)

/-- R365, R366: the oldest request of a source reaches a tile's transfer port, behind what the source sent to that tile
before it (R66); a drawer being zeroed stalls it (R363), one that waits for zeroing waits for this store (R220). -/
def execTransferPortRequest (t src : TileId) (sys : State) : Host.Outcome State Fault Refusal := onDev sys fun s =>
  match s.mesh.find? (fun m => m.src == src.val && m.dst == t.val) with
    | some m =>
      if zeroRunning (tileOf s t) m.off || earlierSent s src t m.ord then s
      else storeArrives { s with mesh := s.mesh.erase m } m
    | none => s

/-! ### The scrubber (R367, R369, R370) -/

/-- The 64-byte word of the scratchpad that is word `w` of a bank (R350). -/
def bankWord (bank w : Nat) : Nat := bank / 4 * 0x2000 + 4 * w + bank % 4

/-- Does a tile belong to a metronome partition (R370)? -/
def tileMetro (s : Dev) (t : Nat) : Bool :=
  match partOf (tileOf s t) with | some p => pMetro (partSt s p) | none => false

/-- The scrubber goes on to the next word of a bank; when every bank has been read a pass is complete (R369). -/
def scrubStep (r : DrawerSt) (bank : Nat) : DrawerSt :=
  let p := mget 0 r.scrubPos bank + 1
  if p < 2048 then { r with scrubPos := mset 0 r.scrubPos bank p }
  else
    let done := r.scrubDone ||| ((1 : BitVec 24) <<< bank)
    let r1 : DrawerSt := { r with scrubPos := mset 0 r.scrubPos bank 0, scrubDone := done }
    if done = BitVec.allOnes 24 then { r1 with scrubDone := 0, scrubPasses := r1.scrubPasses + 1 } else r1

/-- R369: the oldest corrected word is written back; its bytes are those it holds. -/
def execScrubWriteback (t : TileId) (sys : State) : Host.Outcome State Fault Refusal := onDev sys fun s =>
  modTile s t (fun x => modDr x (fun r => { r with wbPend := r.wbPend.drop 1 }))

end Sys2Proof.Machine
end

