-- ==== Sys2Proof/Machine/Matrix.lean ====
section
/-! DEFINITION. The matrix engine (R291 to R319) and its arithmetic (R324 to R341). -/

namespace Sys2Proof.Machine
open Sys2Proof

/-! ### Elements and scales (R301, R324 to R328) -/

/-- A small floating code without infinities and NaNs, with `fb` fraction bits and a bias. -/
def smallVal (w fb bias : Nat) (x : Nat) : FVal :=
  let neg := x.testBit (w - 1)
  let body := x % 2 ^ (w - 1)
  let ex := body >>> fb
  let frac := body % 2 ^ fb
  if ex = 0 then .fin neg frac (1 - (bias : Int) - fb) else .fin neg (frac + 2 ^ fb) ((ex : Int) - bias - fb)

/-- A two's-complement code scaled by 2^e. -/
def intVal (w : Nat) (e : Int) (x : Nat) : FVal :=
  let v := toSigned w x
  .fin (decide (v < 0)) v.natAbs e

/-- E5M2 follows the IEEE layout (R324). -/
def fmtE5M2 : Fmt := ⟨5, 2⟩

/-- The element formats: 0 FP64, 1 FP32, 2 FP16, 3 BF16, 4 E4M3, 5 E5M2, 6 INT8, 7 INT4, 8 E3M2, 9 E2M3, 10 E2M1,
11 INT8 scaled by 2^−6. -/
def elemVal (k x : Nat) : FVal :=
  match k with
  | 0 => funpack fmt64 x
  | 1 => funpack fmt32 x
  | 2 => funpack fmt16 x
  | 3 => funpack fmtBf x
  | 4 => if x % 128 = 127 then .nan false else smallVal 8 3 7 x
  | 5 => funpack fmtE5M2 x
  | 6 => intVal 8 0 x
  | 7 => intVal 4 0 x
  | 8 => smallVal 6 2 3 x
  | 9 => smallVal 6 3 1 x
  | 10 => smallVal 4 1 1 x
  | _ => intVal 8 (-6) x

/-- The element format of a code of R301; none where the code is reserved. -/
def meElem (code : Nat) : Option Nat :=
  if code < 8 then some code
  else if 8 ≤ code ∧ code ≤ 0x0D ∨ 0x10 ≤ code ∧ code ≤ 0x15 then some ([4, 5, 8, 9, 10, 11].getD (code % 8) 0)
  else if code = 0x16 then some 10
  else none

/-- Element bits (R301). -/
def meBits (k : Nat) : Nat := [64, 32, 16, 16, 8, 8, 8, 4, 6, 6, 4, 8].getD k 8

/-- The block size of a scaled format (R301): 0 for none. -/
def meBlock (code : Nat) : Nat := if code < 8 then 0 else if code < 0x10 then 32 else 16

/-- May two formats form a pair (R302)? -/
def mePair (a b : Nat) : Bool :=
  (a == b && (decide (a ≤ 3) || a == 6 || a == 7)) ||
  ((a == 4 || a == 5) && (b == 4 || b == 5)) ||
  (decide (8 ≤ a) && decide (a ≤ 0x0C) && decide (8 ≤ b) && decide (b ≤ 0x0C)) || (a == 0x0D && b == 0x0D) ||
  (decide (0x10 ≤ a) && decide (a ≤ 0x14) && decide (0x10 ≤ b) && decide (b ≤ 0x14)) || (a == 0x15 && b == 0x15) ||
  (a == 0x16 && b == 0x16)

/-- The value of a scale byte (R327): E8M0, SE8, UE5M3. -/
def scaleVal (code x : Nat) : FVal :=
  if code < 0x10 then (if x = 0xFF then .nan false else .fin false 1 ((x : Int) - 127))
  else if code < 0x16 then (if x = 0x80 then .nan false else .fin false 1 (toSigned 8 x))
  else if x = 0xFF then .nan false
  else if x / 8 = 0 then .fin false (x % 8) (-17)
  else .fin false (8 + x % 8) (((x / 8 : Nat) : Int) - 18)

/-- An exact product: an infinity times zero is a NaN (R330, R331). -/
def mulExact : FVal → FVal → FVal
  | .nan _, _ => .nan false
  | _, .nan _ => .nan false
  | .inf a, .inf b => .inf (a != b)
  | .inf a, .fin n m _ => if m = 0 then .nan false else .inf (a != n)
  | .fin n m _, .inf b => if m = 0 then .nan false else .inf (n != b)
  | .fin n m e, .fin n' m' e' => .fin (n != n') (m * m') (e + e')

/-! ### Groups (R329 to R336) -/

/-- The truncated sum of finite products, each (sign, magnitude, exponent) (R332). -/
def truncSum (f : Nat) (l : List (Bool × Nat × Int)) : FVal :=
  let nz := l.filter (fun p => p.2.1 ≠ 0)
  match nz with
  | [] => .fin false 0 0
  | p0 :: _ =>
    let e := nz.foldl (fun a p => min a p.2.2) p0.2.2
    let at0 (p : Bool × Nat × Int) : Nat := p.2.1 * 2 ^ (p.2.2 - e).toNat
    let s : Int := nz.foldl (fun a p => if p.1 then a - at0 p else a + at0 p) 0
    let top := Nat.log2 (nz.foldl (fun a p => max a (at0 p)) 0)
    let d := top - f
    .fin (decide (s < 0)) (s.natAbs >>> d <<< d) e

/-- The finite values of a list. -/
def finParts (l : List FVal) : List (Bool × Nat × Int) :=
  l.filterMap (fun v => match v with | .fin n m e => some (n, m, e) | _ => none)

/-- The value of a group (R331, R332). -/
def groupVal (f : Nat) (l : List FVal) : FVal :=
  if l.any fisNan || (l.contains (.inf true) && l.contains (.inf false)) then .nan false
  else if l.contains (.inf true) then .inf true
  else if l.contains (.inf false) then .inf false
  else truncSum f (finParts l)

/-- A contribution is added into an accumulator element (R336). -/
def addContribution (f : Fmt) (acc : Nat) (c : FVal) : Nat :=
  match c with
  | .fin n m e => if m = 0 then acc else (faddV f 0 (funpack f acc) (.fin n m e)).1
  | v => (faddV f 0 (funpack f acc) v).1

/-! ### The engine's state (R291, R303) -/

def accKey (n i j : Nat) : Nat := 1024 * n + 32 * i + j
def accGet (x : Tile) (n i j : Nat) : BitVec 32 := mget 0 x.me.acc (accKey n i j)
def scaleKey (side r b : Nat) : Nat := 8192 * side + 256 * r + b
def scaleGet (x : Tile) (side r b : Nat) : Nat := (mget 0 x.me.scale (scaleKey side r b)).toNat

/-- An element as FP64 of a pair or as FP32 (R303). -/
def accRead (x : Tile) (pair : Bool) (n i j : Nat) : Nat :=
  if pair then (accGet x n i j).toNat + 2 ^ 32 * (accGet x (n + 1) i j).toNat else (accGet x n i j).toNat

/-- Write an element. -/
def accWrite (x : Tile) (pair : Bool) (n i j v : Nat) : Tile :=
  let a := mset 0 x.me.acc (accKey n i j) (BitVec.ofNat 32 v)
  { x with me := { x.me with
    acc := if pair then mset 0 a (accKey (n + 1) i j) (BitVec.ofNat 32 (v >>> 32)) else a } }

/-! ### Fields of a command (R300, R306, R308) -/

def meAstr (c : MeCmd) : Nat := fld c.mstride 15 0
def meBstr (c : MeCmd) : Nat := fld c.mstride 31 16
def meCstr (c : MeCmd) : Nat := fld c.mstride 47 32
/-- The element count of a shape word: KG = 0 means 256. -/
def meK (w : Word) : Nat := 32 * (if fld w 17 10 = 0 then 256 else fld w 17 10)
def mmaM (w : Word) : Nat := fld w 4 0 + 1
def mmaN (w : Word) : Nat := fld w 9 5 + 1
def fmtA (w : Word) : Nat := fld w 22 18
def fmtB (w : Word) : Nat := fld w 27 23
def scCount (w : Word) : Nat := if fld w 13 6 = 0 then 256 else fld w 13 6
/-- Output bytes of an OFMT (R308). -/
def ofmtBytes (o : Nat) : Nat := [8, 4, 2, 2, 1, 1].getD o 1

/-- R309: does the command fail with FORMAT? -/
def meFormatBad (c : MeCmd) : Bool :=
  match c.kind with
  | 0 =>
    let a := fmtA c.c
    let b := fmtB c.c
    fld c.c 63 28 != 0 || (meElem a).isNone || (meElem b).isNone || !(mePair a b) ||
      (a == 0 && decide (c.acc % 2 = 1)) ||
      (decide (8 ≤ a) && decide (256 < meK c.c / meBlock a)) || (decide (8 ≤ b) && decide (256 < meK c.c / meBlock b))
  | 1 =>
    let o := fld c.c 14 10
    fld c.c 63 17 != 0 || (bit c.c 15 && (decide (1 < o) || decide (c.acc % 2 = 1))) ||
      (!(bit c.c 15) && (o == 0 || decide (5 < o)))
  | 2 => bit c.c 14 || fld c.c 63 31 != 0
  | _ => false

/-- The rows a command touches: address, bytes, and whether it writes (R300, R306, R308). -/
def meRows (c : MeCmd) : List (Nat × Nat × Bool) :=
  let row (base stride i : Nat) : Nat := (base + 16 * i * stride) % 2 ^ 64
  match c.kind with
  | 0 =>
    let n (f : Nat) : Nat := meK c.c * meBits ((meElem f).getD 0) / 8
    (List.range (mmaM c.c)).map (fun i => (row c.a.toNat (meAstr c) i, n (fmtA c.c), false)) ++
    (List.range (mmaN c.c)).map (fun j => (row c.b.toNat (meBstr c) j, n (fmtB c.c), false))
  | 1 => (List.range (mmaM c.c)).map (fun i => (row c.a.toNat (meCstr c) i, mmaN c.c * ofmtBytes (fld c.c 14 10), true))
  | 2 => (List.range (fld c.c 5 1 + 1)).map (fun r => (row c.a.toNat (fld c.c 30 15) r, scCount c.c, false))
  | _ => []

/-! ### Errors (R313) -/

/-- A command fails: the error is recorded and every later command of the tile is dropped. -/
def meFail (s : Dev) (t : Nat) (c : MeCmd) (code low inj : Nat) : Dev :=
  let detail := low % 2 ^ 24 + 2 ^ 24 * (c.num.toNat % 256)
  let s1 := modTile s t (fun x => { engineErr x 1 code detail with me := { x.me with queue := [], run := none } })
  let id := if code = 0x23 then 0x1003 else if code = 0x26 then 0x1007 else 0x1009
  wakeEngine (tileErr s1 t id 1 (some c.tag) detail (engDetail code detail + inj)) t

/-! ### Starting a command (R309 to R311) -/

/-- What the checks of one piece give: a page to remember, a failure (address, code), a wait. -/
inductive MePiece where
  | page (va off : Nat)
  | fail (addr code : Nat)
  | wait

/-- Check one piece inside a page (R310): translation, own scratchpad, permission, zeroing, ownership. -/
def mePiece (s : Dev) (t : Nat) (c : MeCmd) (wr : Bool) (a n : Nat) : Dev × MePiece :=
  let p : Dev × TRes :=
    if c.user then xlate s (.me t) c.tag 2 (b2n wr) a n
    else (s, match devDecode a with | some g => .ok g | none => .fail)
  match p with
  | (s1, .ok (.scratch tt off)) =>
    if tt ≠ t ∨ !(populated (off + n - 1)) then (s1, .fail a 0x21)
    else
      let x := tileOf s1 t
      if drawerBusy x off then (s1, .wait)
      else if portMay x 2 c.user c.tag off then (s1, .page a off)
      else (setTile s1 t (drawerFault x (if wr then 4 else 3) off), .fail a 0x22)
  | (s1, .miss) => (s1, .wait)
  | (s1, _) => (s1, .fail a 0x21)

/-- What is checked at an address: an alignment, or a piece inside a page. -/
inductive MeItem where
  | align (a : Nat)
  | piece (a n : Nat)
  deriving DecidableEq, Repr

def MeItem.addr : MeItem → Nat
  | .align a => a
  | .piece a _ => a

/-- The checks of a command by ascending address, at one address alignment first (R310, R356). -/
def meItems (c : MeCmd) : List MeItem :=
  let al : List MeItem := if 3 ≤ c.kind then [] else .align c.a.toNat :: (if c.kind = 0 then [.align c.b.toNat] else [])
  let ps := ((meRows c).flatMap (fun r => (pagePieces r.1 r.2.1).map (fun p => MeItem.piece p.1 p.2))).dedup
  (al ++ ps).insertionSort (fun x y => x.addr ≤ y.addr)

/-- Check in turn: the first failure decides, and a check that waits holds the later ones. -/
def meCheck (s : Dev) (t : Nat) (c : MeCmd) : List MeItem → Dev × (List (Nat × Nat) ⊕ Option (Nat × Nat))
  | [] => (s, .inl [])
  | .align a :: r => if a % 16 ≠ 0 then (s, .inr (some (a, 0x24))) else meCheck s t c r
  | .piece a n :: r =>
    match mePiece s t c (c.kind == 1) a n with
    | (s1, .page va off) =>
      match meCheck s1 t c r with
      | (s2, .inl l) => (s2, .inl ((va / 4096, off - va % 4096) :: l))
      | q => q
    | (s1, .fail addr code) => (s1, .inr (some (addr, code)))
    | (s1, .wait) => (s1, .inr none)

/-- The engine waits: cycles with a command queued and the array not advancing (R317). -/
def meWait (s : Dev) (t : Nat) : Dev :=
  let k := Config.freeCycles s.freeCtr
  modTile (drawFree s) t (fun x => { x with me := { x.me with stats := incFld x.me.stats 31 0 k } })

/-- R294, R309 to R311: the command at the head of the queue starts, and makes its checks before any byte moves. -/
def meStart (s : Dev) (t : Nat) : Dev :=
  let x := tileOf s t
  match x.me.run, x.me.queue with
  | none, c :: rest =>
    if s.hold then s
    else if meFormatBad c then meFail s t c 0x25 0 0
    else if unitWaits s (.me t) then meWait s t
    else
      match meCheck s t c (meItems c) with
      | (s1, .inr none) => meWait s1 t
      | (s1, .inr (some f)) => meFail s1 t c f.2 f.1 0
      | (s1, .inl pages) =>
        modTile s1 t (fun y => { y with me := { y.me with run := some (c, pages.dedup), queue := rest } })
  | _, _ => s

/-- R311: the engine starts the next queued command. -/
def execMeCommandStart (t : TileId) (sys : State) : Host.Outcome State Fault Refusal := onDev sys fun s => meStart s t

/-! ### What a command does -/

/-- Where an address of a started command leads. -/
def meOff (pages : List (Nat × Nat)) (a : Nat) : Nat :=
  match pages.find? (fun p => p.1 == a / 4096) with | some p => p.2 + a % 4096 | none => 0

/-- Bytes at an address of a started command. -/
def meBytes (x : Tile) (pages : List (Nat × Nat)) (a n : Nat) : List Byte :=
  (pagePieces a n).flatMap (fun p => spadGet x (meOff pages p.1) p.2)

/-- The lowest poisoned address a command reads. -/
def mePoison (x : Tile) (pages : List (Nat × Nat)) (rows : List (Nat × Nat × Bool)) : Option Nat :=
  ((rows.flatMap (fun r => pagePieces r.1 r.2.1)).flatMap (fun p =>
    (wordsOf (meOff pages p.1) p.2).filterMap (fun w =>
      if mget false x.dr.poison w then some (p.1 + (64 * w - meOff pages p.1)) else none))).min?

/-- A row read as one number, little-endian (R326). -/
def rowNat (x : Tile) (pages : List (Nat × Nat)) (a n : Nat) : Nat := leNat (meBytes x pages a n)

/-- Element k of a row in a format, with its block's scale (R326, R328). -/
def rowElem (x : Tile) (code side r row k : Nat) : FVal :=
  let f := (meElem code).getD 0
  let v := elemVal f ((row >>> (meBits f * k)) % 2 ^ meBits f)
  if meBlock code = 0 then v else mulExact v (scaleVal code (scaleGet x side r (k / meBlock code)))

/-- The coarse scale of TL4 (R335). -/
def coarseOf (c : MeCmd) : FVal :=
  mulExact (funpack fmt32 (fld c.mcoarse 31 0)) (funpack fmt32 (fld c.mcoarse 63 32))

/-- Element (i, j) after an MMA: the groups in ascending order (R329 to R336). -/
def mmaElem (x : Tile) (c : MeCmd) (ra rb i j : Nat) : Nat :=
  let a := fmtA c.c
  let b := fmtB c.c
  let g := if 0x10 ≤ a ∧ 0x10 ≤ b then 16 else 32
  let wide := a == 0
  (List.range (meK c.c / g)).foldl (fun acc n =>
    let ps := (List.range g).map (fun d => mulExact (rowElem x a 0 i ra (n * g + d)) (rowElem x b 1 j rb (n * g + d)))
    let v := groupVal (if wide then 60 else 36) ps
    addContribution (if wide then fmt64 else fmt32) acc (if a = 0x16 then mulExact v (coarseOf c) else v))
    (accRead x wide c.acc i j)

/-- R300: acc := acc ⊕ A × Bᵀ on the M × N corner. -/
def mmaRun (x : Tile) (c : MeCmd) (pages : List (Nat × Nat)) : Tile :=
  let bytes (f : Nat) : Nat := meK c.c * meBits ((meElem f).getD 0) / 8
  let rowA (i : Nat) := rowNat x pages ((c.a.toNat + 16 * i * meAstr c) % 2 ^ 64) (bytes (fmtA c.c))
  let rowB (j : Nat) := rowNat x pages ((c.b.toNat + 16 * j * meBstr c) % 2 ^ 64) (bytes (fmtB c.c))
  (List.range (mmaM c.c)).foldl (fun y i =>
    (List.range (mmaN c.c)).foldl (fun y j =>
      accWrite y (fmtA c.c == 0) c.acc i j (mmaElem x c (rowA i) (rowB j) i j)) y) x

/-- A finite nonzero value rounded to E4M3 (R341); a code of 127 or more is an overflow. -/
def e4m3Round (m : Nat) (e : Int) : Nat :=
  let q : Int := max (e + Nat.log2 m) (-6) - 3
  (q + 9).toNat * 8 + (roundAt 0 false m e q).1

/-- A narrowing conversion of MSTORE (R341). -/
def storeConv (o : Nat) (sat : Bool) (v : FVal) : Nat :=
  if o = 4 then
    match v with
    | .nan _ => 0x7F
    | .inf n => 128 * b2n n + (if sat then 0x7E else 0x7F)
    | .fin n m e =>
      let r := if m = 0 then 0 else e4m3Round m e
      128 * b2n n + (if 127 ≤ r then (if sat then 0x7E else 0x7F) else r)
  else
    let f := match o with | 1 => fmt32 | 2 => fmt16 | 3 => fmtBf | _ => fmtE5M2
    match v with
    | .nan _ => fmtNan f
    | .inf n => if sat then fmtMax f n else fmtInf f n
    | .fin n m e =>
      let r := (fround f 0 n m e).1
      if r = fmtInf f n ∧ sat then fmtMax f n else r

/-- One output element: copies keep every bit (R308). -/
def storeElem (x : Tile) (c : MeCmd) (i j : Nat) : Nat :=
  let o := fld c.c 14 10
  let pair := bit c.c 15
  let raw := accRead x pair c.acc i j
  if (pair && o == 0) || (!pair && o == 1) then raw
  else storeConv o (bit c.c 16) (funpack (if pair then fmt64 else fmt32) raw)

/-- The bytes of an output row. -/
def storeRow (x : Tile) (c : MeCmd) (i : Nat) : List Byte :=
  (List.range (mmaN c.c)).flatMap (fun j => leBytes (ofmtBytes (fld c.c 14 10)) (storeElem x c i j))

/-- Write bytes at an address of a started command. -/
def meWrite (x : Tile) (pages : List (Nat × Nat)) (a : Nat) (bs : List Byte) : Tile :=
  (pagePieces a bs.length).foldl (fun y p => spadPut y (meOff pages p.1) ((bs.drop (p.1 - a)).take p.2)) x

/-- The CRC-64 of bytes as a digest reports it (R658, R659). -/
def crcOf (bs : List Byte) : Word := crc64 crcInit bs ^^^ crcInit

/-- Fold a record into the ME digest (R658). -/
def foldMe (x : Tile) (user : Bool) (r : FoldRec) : Tile :=
  if x.dig.armed && user then { x with dig := { x.dig with me := crc64 x.dig.me (foldBytes r) } } else x

/-- R308: the M × N corner is stored, rows in ascending order, and the store folds (R659 TYPE 9). -/
def mstoreRun (x : Tile) (c : MeCmd) (pages : List (Nat × Nat)) : Tile :=
  let y := (List.range (mmaM c.c)).foldl (fun y i =>
    meWrite y pages ((c.a.toNat + 16 * i * meCstr c) % 2 ^ 64) (storeRow x c i)) x
  foldMe y c.user ⟨9, c.acc, c.a.toNat % 2 ^ 48, crcOf ((List.range (mmaM c.c)).flatMap (storeRow x c))⟩

/-- R306: scales are copied into a scale buffer. -/
def mscaleRun (x : Tile) (c : MeCmd) (pages : List (Nat × Nat)) : Tile :=
  (List.range (fld c.c 5 1 + 1)).foldl (fun y r =>
    ((meBytes x pages ((c.a.toNat + 16 * r * fld c.c 30 15) % 2 ^ 64) (scCount c.c)).zipIdx).foldl (fun y p =>
      { y with me := { y.me with scale := mset 0 y.me.scale (scaleKey (fld c.c 0 0) r p.2) p.1 } }) y) x

/-- R299: every element of one or two accumulators is zero. -/
def mzeroRun (x : Tile) (c : MeCmd) : Tile :=
  { x with me := { x.me with acc := mclear x.me.acc (1024 * c.acc) (1024 * (if c.kind = 4 then 2 else 1)) } }

/-- What a command does to the tile. -/
def meEffect (x : Tile) (c : MeCmd) (pages : List (Nat × Nat)) : Tile :=
  match c.kind with
  | 0 => mmaRun x c pages
  | 1 => mstoreRun x c pages
  | 2 => mscaleRun x c pages
  | _ => mzeroRun x c

/-- The accumulators and scale buffers a command reads: 0 to 3, and 4 for SA, 5 for SB (R315). -/
def meReads (c : MeCmd) : List Nat :=
  match c.kind with
  | 0 => (if fmtA c.c = 0 then [c.acc, c.acc + 1] else [c.acc]) ++ (if meBlock (fmtA c.c) ≠ 0 then [4] else []) ++
      (if meBlock (fmtB c.c) ≠ 0 then [5] else [])
  | 1 => if bit c.c 15 then [c.acc, c.acc + 1] else [c.acc]
  | _ => []

/-- The command is done: its ARRIVE is applied (R295). -/
def meDone (s : Dev) (t : Nat) (c : MeCmd) (pages : List (Nat × Nat)) : Dev :=
  let s1 := modTile s t (fun x => let y := meEffect x c pages; { y with me := { y.me with run := none } })
  if c.dw then sendDowel s1 (.me t) (buildOf s1 t) t (fld c.mdwl 8 0) 0 1 none else s1

/-! ### Issue (R293, R296, R298, R299) -/

/-- Is the engine idle (R297)? -/
def meIdle (x : Tile) : Bool := x.me.queue.isEmpty && x.me.run.isNone

/-- A command enters the queue with what it captured: after the earlier stores (R296), in a free entry (R293); while an
error is recorded it is dropped (R313). -/
def meIssue (s : Dev) (ti : TileId) (gu : Guard) (illegal : Bool) (mk : Tile → MeCmd) : Dev :=
  issue s ti gu 4 (fun _ => illegal) (fun x =>
    if !(storesDrained x && lvStoresDone x) then stallPlain s x
    else if bit x.core.engErr 1 then .done s { x with me := { x.me with issued := x.me.issued + 1 } } 1
    else if 8 ≤ x.me.queue.length then stallPlain s x
    else .done s { x with me := { x.me with issued := x.me.issued + 1, queue := x.me.queue ++ [mk x] } } 1)

/-- What a command captures at issue (R293). -/
def meCapture (x : Tile) (kind : Nat) (a b c : Word) (acc : Nat) (dw : Bool) : MeCmd :=
  { kind := kind, a := a, b := b, c := c, acc := acc, dw := dw, mdwl := x.me.mdwl, mstride := x.me.mstride
    mcoarse := x.me.mcoarse, tag := fld x.core.ctx 7 0, user := isUser x, num := x.me.issued + 1 }

/-- R300: MMA with A at ga, B at gb and the shape word in gc. -/
def execMma (t : TileId) (gu : Guard) (ra rb rc : RegNo) (acc : Fin 4) (dw : Bool) (sys : State) :
    Host.Outcome State Fault Refusal := onDev sys fun s =>
  meIssue s t gu false (fun x => meCapture x 0 (getG x ra) (getG x rb) (getG x rc) acc dw)

/-- R308: MSTORE to ga with the store word in gc. -/
def execMstore (t : TileId) (gu : Guard) (ra rc : RegNo) (acc : Fin 4) (dw : Bool) (sys : State) :
    Host.Outcome State Fault Refusal := onDev sys fun s =>
  meIssue s t gu false (fun x => meCapture x 1 (getG x ra) 0 (getG x rc) acc dw)

/-- R306: MSCALE from ga with the scale word in gc. -/
def execMscale (t : TileId) (gu : Guard) (ra rc : RegNo) (dw : Bool) (sys : State) : Host.Outcome State Fault Refusal := onDev sys fun s =>
  meIssue s t gu false (fun x => meCapture x 2 (getG x ra) 0 (getG x rc) 0 dw)

/-- R299: MZERO. -/
def execMzero (t : TileId) (gu : Guard) (acc : Fin 4) (dw : Bool) (sys : State) : Host.Outcome State Fault Refusal := onDev sys fun s =>
  meIssue s t gu false (fun x => meCapture x 3 0 0 0 acc dw)

/-- R299: MZERO.P; an odd accumulator raises ILLEGAL. -/
def execMzeroP (t : TileId) (gu : Guard) (acc : Fin 4) (dw : Bool) (sys : State) : Host.Outcome State Fault Refusal := onDev sys fun s =>
  meIssue s t gu (decide (acc.val % 2 = 1)) (fun x => meCapture x 4 0 0 0 acc dw)

/-- R297: MSYNC stalls until the queue is empty and every command has ended. -/
def execMsync (t : TileId) (gu : Guard) (sys : State) : Host.Outcome State Fault Refusal := onDev sys fun s =>
  issue s t gu 4 (fun _ => false) (fun x => if meIdle x then .done s x 1 else stallPlain s x)

/-! ### The window onto the accumulators (R318) -/

/-- One byte the window shows. -/
def maccByte (x : Tile) (off : Nat) : Byte :=
  if x.me.sel < 4 then BitVec.ofNat 8 ((mget 0 x.me.acc (1024 * x.me.sel + off / 4)).toNat >>> (8 * (off % 4)))
  else mget 0 x.me.scale (scaleKey (x.me.sel / 2 - 2) (16 * (x.me.sel % 2) + off / 256) (off % 256))

/-- Write one byte of the window. -/
def maccPut (x : Tile) (off : Nat) (b : Byte) : Tile :=
  if x.me.sel < 4 then
    { x with me := { x.me with acc := mmod 0 x.me.acc (1024 * x.me.sel + off / 4) (fun w =>
        BitVec.ofNat 32 (putBytes w.toNat (off % 4) 1 b.toNat)) } }
  else { x with me := { x.me with
    scale := mset 0 x.me.scale (scaleKey (x.me.sel / 2 - 2) (16 * (x.me.sel % 2) + off / 256) (off % 256)) b } }

/-- An access through the window: refused while a command is queued or runs. -/
def maccAccess (s : Dev) (t off n : Nat) (wr : Option Word) : Dev × List Byte :=
  let x := tileOf s t
  if !(meIdle x) then (setTile s t (accessErr x), leBytes n 0)
  else match wr with
    | some v => (setTile s t (((leBytes n v.toNat).zipIdx).foldl (fun y p => maccPut y (off + p.2) p.1) x), [])
    | none => (s, (List.range n).map (fun k => maccByte x (off + k)))

/-- R318: an access of at most eight bytes that stays in the window; a read is answered. -/
def execMaccWinAccess (t : TileId) (off : Fin 4096) (size : Fin 9) (wr : Option Word) (sys : State) :
    Host.Outcome State Fault Refusal := onDev sys fun s =>
  let n := min size.val (4096 - off.val)
  let r := maccAccess s t off n wr
  match wr with | some _ => r.1 | none => send r.1 (.hostReply r.2 false)

end Sys2Proof.Machine
end

