-- ==== Sys2Proof/Machine/Transfer.lean ====
section
/-! DEFINITION. The transfer engines (R399 to R428): descriptors, submission and control, blocks and their commitment,
failures, saving and restoring. -/

namespace Sys2Proof.Machine
open Sys2Proof

/-! ### Channels and descriptors -/

/-- A channel of a tile. -/
def chanOf (x : Tile) (ch : Nat) : TeChan := mget TeChan.reset x.te ch
/-- Write a channel. -/
def setChan (x : Tile) (ch : Nat) (c : TeChan) : Tile := { x with te := mset TeChan.reset x.te ch c }
/-- Change a channel of a tile of the state. -/
def modChan (s : Dev) (t ch : Nat) (f : TeChan → TeChan) : Dev := modTile s t (fun x => setChan x ch (f (chanOf x ch)))

/-- A word of a descriptor (R401). -/
def dW (d : TeDesc) (i : Nat) : Word := d.w.getD i 0
def dSkind (d : TeDesc) : Nat := fld (dW d 0) 1 0
def dDkind (d : TeDesc) : Nat := fld (dW d 0) 3 2
def dDw (d : TeDesc) : Bool := bit (dW d 0) 4
def dFw (d : TeDesc) : Bool := bit (dW d 0) 5
def dFence (d : TeDesc) : Bool := bit (dW d 0) 6
def dSpart (d : TeDesc) : Nat := fld (dW d 0) 23 16
def dDpart (d : TeDesc) : Nat := fld (dW d 0) 31 24
def dComp (d : TeDesc) : Word := dW d 3
def dFaultd (d : TeDesc) : Word := dW d 4
/-- COUNT0 to COUNT4. -/
def dCount (d : TeDesc) (k : Nat) : Nat := let w := dW d (5 + k / 2); if k % 2 = 0 then fld w 31 0 else fld w 63 32
def dFirst (d : TeDesc) : Nat := fld (dW d 7) 63 32
/-- Strides: SSTR1, DSTR1, SSTR2, … (R401). -/
def dStr (d : TeDesc) (dim : Nat) (dst : Bool) : Nat := (dW d (8 + 2 * (dim - 1) + b2n dst)).toNat
/-- The number of blocks (R404). -/
def dBlocks (d : TeDesc) : Nat := dCount d 2 * dCount d 3 * dCount d 4

/-- The first address of row `i1` of block `b` (R404). -/
def rowAddr (d : TeDesc) (dst : Bool) (b i1 : Nat) : Nat :=
  let i2 := b % dCount d 2
  let i3 := b / dCount d 2 % dCount d 3
  let i4 := b / dCount d 2 / dCount d 3
  ((dW d (if dst then 2 else 1)).toNat + i1 * dStr d 1 dst + i2 * dStr d 2 dst + i3 * dStr d 3 dst + i4 * dStr d 4 dst) % 2 ^ 64

/-- The context a descriptor's accesses are charged to. -/
def descCtx (d : TeDesc) : Option Nat := some d.tag

/-- R405: does a descriptor fail with FORMAT? A stale binding is none (R593). -/
def teFormatBad (s : Dev) (t : Nat) (d : TeDesc) : Bool :=
  let c := dW d 0
  let counts := (List.range 5).map (dCount d)
  let noBind (slot : Nat) : Bool := match partOf (tileOf s t) with
    | some p => (liveBind s p slot).isNone
    | none => true
  let badName (n : Word) : Bool := match dowelName s t n with | .bad => true | _ => false
  counts.any (· == 0) || decide (65536 < dCount d 0 * dCount d 1) || decide (2 ^ 32 - 1 < dBlocks d) ||
    decide (dBlocks d ≤ dFirst d) || dSkind d == 3 || fld c 15 9 != 0 || fld c 63 32 != 0 ||
    (dDkind d == 3 && (d.user || (dW d 2).toNat % 8 != 0 || dCount d 0 % 8 != 0 ||
      [1, 2, 3, 4].any (fun k => dStr d k true % 8 != 0))) ||
    (if dSkind d = 2 then noBind (dSpart d) else dSpart d != 0) ||
    (if dDkind d = 2 then noBind (dDpart d) else dDpart d != 0) ||
    (dDw d && badName (dComp d)) || (dFw d && badName (dFaultd d))

/-! ### Failures (R420) -/

/-- A descriptor fails: no ARRIVE for the block, the code and address recorded, the fault ARRIVE, a contained error; the
blocks in flight leave their destination undefined (R411). -/
def teFail (s : Dev) (t ch code addr : Nat) : Dev :=
  let c := chanOf (tileOf s t) ch
  match c.run with
  | none => s
  | some d =>
    let a : Nat := if code = 0x41 ∨ code = 0x45 then 0 else addr
    let s1 := abandonWant (modChan (spoilBlocks s c.blks) t ch (fun c => { c with
      st := 3, err := code, fault := BitVec.ofNat 64 a, blks := [], failAt := none, stopping := false })) (.te t ch)
    let s2 := if dFw d then sendNamed s1 (.te t ch) t (dowelName s1 t (dFaultd d)) 0 1 none else s1
    tileErr s2 t 0x100A 1 (descCtx d) (a % 2 ^ 64) (2 ^ 8 * code)

/-! ### Submission (R400, R406, R407) -/

/-- The check of a range of the tile's own scratchpad through the scalar port (R407, R424, R425): the offsets of its
pieces in order, or how the instruction ends. -/
def ownRange (s : Dev) (ti : TileId) (wr : Bool) (va n : Nat) : Except Res (Dev × List (Nat × Nat)) :=
  let r := targetsOf s ti wr (pagePieces va n)
  let s1 := r.1
  let bad := r.2.find? (fun p => match p.2.2 with | .ok g => !(isOwn ti g) | .fail => true | .miss => true)
  match bad with
  | some (a, _, .miss) =>
    let x := tileOf s1 ti
    .error (stallLoad s1 { x with core := { x.core with wait := .xlate a 0 false } })
  | some (a, _, _) => .error (excAt s1 ti 7 0 a)
  | none =>
    if r.2.any (fun p => match p.2.2 with | .ok g => drawerSays s1 ti wr g == 2 | _ => false) then .error (stallPlain s1 (tileOf s1 ti))
    else match r.2.find? (fun p => match p.2.2 with | .ok g => drawerSays s1 ti wr g == 1 | _ => false) with
      | some (a, _, .ok (.scratch _ off)) => .error (excAt (modTile s1 ti (fun y => drawerFault y 0 off)) ti 6 0 a)
      | _ => .ok (s1, r.2.filterMap (fun p => match p.2.2 with | .ok (.scratch _ off) => some (off, p.2.1) | _ => none))

/-- Bytes of such a range. -/
def rangeBytes (x : Tile) (l : List (Nat × Nat)) : List Byte := l.flatMap (fun p => spadGet x p.1 p.2)

/-- The 8-byte words little-endian bytes spell. -/
def wordsOfBytes (n : Nat) (bs : List Byte) : List Word :=
  (List.range n).map (fun i => BitVec.ofNat 64 (leNat ((bs.drop (8 * i)).take 8)))

/-- A descriptor becomes the running one: DONE is FIRST at start (R410). -/
def runDesc (c : TeChan) (d : TeDesc) (q : List TeDesc) : TeChan :=
  { c with st := 1, run := some d, checked := false, queue := q, done := dFirst d, blks := [], failAt := none }

/-- The channel takes its next queued descriptor, or is IDLE with the DONE it reached (R399, R410). -/
def nextDesc (c : TeChan) : TeChan :=
  match c.queue with
  | d :: q => runDesc c d q
  | [] => { c with st := 0, run := none, checked := false, blks := [], failAt := none }

/-- A channel that may run goes on: with its descriptor, the next queued one, or IDLE. -/
def teRunOn (c : TeChan) : TeChan := if c.run.isSome then { c with st := 1 } else nextDesc c

/-- Add a descriptor to a channel. -/
def teSubmit (c : TeChan) (d : TeDesc) : TeChan :=
  let c1 := { c with next := c.next + 1 }
  if c1.st = 0 then runDesc c1 d [] else { c1 with queue := c1.queue ++ [d] }

/-- A range that is read must hold no poisoned word (R407, R425). -/
def rangePoison (x : Tile) (va : Nat) (l : List (Nat × Nat)) : Option Nat :=
  match l.find? (fun p => spadPoisoned x p.1 p.2) with
  | some p =>
    let before := (l.takeWhile (fun q => q != p)).foldl (fun a q => a + q.2) 0
    some (va + before)
  | none => none

/-- R407: `tsub ga, gb`. -/
def execTsub (t : TileId) (gu : Guard) (ra rb : RegNo) (sys : State) : Host.Outcome State Fault Refusal := onDev sys fun s =>
  issue s t gu 4 (fun _ => false) (fun x =>
    let va := (getG x ra).toNat
    let ch := fld (getG x rb) 1 0
    if !(storesDrained x && lvStoresDone x) then stallPlain s x
    else if va % 64 ≠ 0 then .exc 5 0 (getG x ra)
    else match ownRange (setTile s t x) t false va 128 with
      | .error r => r
      | .ok (s1, l) =>
        let s2 := spadTouch s1 t ((l.map (·.1)).headD 0)
        let y := tileOf s2 t
        if 4 ≤ (chanOf y ch).queue.length then stallPlain s2 y
        else match rangePoison y va l with
          | some a => poisonExc s2 t 0 a
          | none =>
            let d : TeDesc := ⟨wordsOfBytes 16 (rangeBytes y l), fld y.core.ctx 7 0, isUser y, (chanOf y ch).next⟩
            .done s2 (setChan y ch (teSubmit (chanOf y ch) d)) 1)

/-- Is a channel folded (R31, R427)? -/
def chanFolded (s : Dev) (t ch : Nat) : Bool := bit (BitVec.ofNat 64 (mget 0 s.knots.eff.func (physOf s t))) ch

/-- TCB_TE_STATUSn (R427). -/
def teStatus (s : Dev) (t ch : Nat) : Word :=
  let c := chanOf (tileOf s t) ch
  let tk := match c.run with | some d => d.ticket.toNat | none => 0
  BitVec.ofNat 64 (c.st + 8 * c.queue.length + 64 * b2n c.poisoned + 128 * b2n (chanFolded s t ch) + 2 ^ 8 * c.err +
    2 ^ 16 * c.done + 2 ^ 48 * (tk % 2 ^ 16))

/-- R406: `tstat gd, gb`. -/
def execTstat (t : TileId) (gu : Guard) (rd rb : RegNo) (sys : State) : Host.Outcome State Fault Refusal := onDev sys fun s =>
  issueT s t gu 4 1 false (fun x => setG x rd (teStatus s t (fld (getG x rb) 1 0)))

/-- R406: `tsync gb` stalls while a selected channel is RUN or FAULT_WAIT. -/
def execTsync (t : TileId) (gu : Guard) (rb : RegNo) (sys : State) : Host.Outcome State Fault Refusal := onDev sys fun s =>
  issue s t gu 4 (fun _ => false) (fun x =>
    if [0, 1, 2, 3].any (fun ch => bit (getG x rb) ch && ((chanOf x ch).st == 1 || (chanOf x ch).st == 2 || (chanOf x ch).stopping))
    then stallPlain s x else .done s x 1)

/-! ### Clear, stop and go (R422, R423) -/

/-- R422: clearing a FAILED channel. -/
def teClear (c : TeChan) (mode : Nat) : TeChan :=
  if c.st ≠ 3 then c
  else
    let c1 := { c with err := 0 }
    match mode with
    | 0 => teRunOn c1
    | 1 => nextDesc c1
    | _ => nextDesc { c1 with queue := [] }

/-- R422: `tclear ga, gb`. -/
def execTclear (t : TileId) (gu : Guard) (ra rb : RegNo) (sys : State) : Host.Outcome State Fault Refusal := onDev sys fun s =>
  issueT s t gu 4 1 false (fun x =>
    let ch := fld (getG x rb) 1 0
    setChan x ch (teClear (chanOf x ch) (fld (getG x ra) 1 0)))

/-- R423, R419: a stop: a channel in FAULT_WAIT with nothing in flight stops at once, another when its blocks in flight
have ended. -/
def teStop (s : Dev) (t ch : Nat) : Dev :=
  let c := chanOf (tileOf s t) ch
  if c.st = 3 ∨ c.st = 4 then s
  else if c.st = 2 then
    modChan (abandonWant s (.te t ch)) t ch (fun c =>
      if c.blks.isEmpty then { c with st := 4, stopping := false } else { c with st := 1, stopping := true })
  else if c.st = 0 then modChan s t ch (fun c => { c with st := 4 })
  else modChan (abandonWant s (.te t ch)) t ch (fun c => { c with stopping := true })

/-- R423: a STOPPED channel goes on at block DONE. -/
def teGo (c : TeChan) : TeChan := if c.st = 4 then teRunOn c else c

/-- The channels a mask selects, in turn. -/
def eachChan (w : Word) (s : Dev) (f : Dev → Nat → Dev) : Dev :=
  [0, 1, 2, 3].foldl (fun s ch => if bit w ch then f s ch else s) s

/-- R406, R423: `tstop gb`, monitor mode only. -/
def execTstop (t : TileId) (gu : Guard) (rb : RegNo) (sys : State) : Host.Outcome State Fault Refusal := onDev sys fun s =>
  issue s t gu 4 (fun _ => false) (fun x =>
    if isUser x then .exc 2 0 0
    else let s1 := eachChan (getG x rb) (setTile s t x) (fun s ch => teStop s t ch); .done s1 (tileOf s1 t) 1)

/-- R406, R423: `tgo gb`, monitor mode only. -/
def execTgo (t : TileId) (gu : Guard) (rb : RegNo) (sys : State) : Host.Outcome State Fault Refusal := onDev sys fun s =>
  issue s t gu 4 (fun _ => false) (fun x =>
    if isUser x then .exc 2 0 0
    else let s1 := eachChan (getG x rb) (setTile s t x) (fun s ch => modChan s t ch teGo); .done s1 (tileOf s1 t) 1)

/-- R427: TCB_TE_CTRL.STOP. -/
def execTeCtrlStop (t : TileId) (ch : Fin 4) (sys : State) : Host.Outcome State Fault Refusal := onDev sys fun s => teStop s t ch
/-- R427: TCB_TE_CTRL.GO. -/
def execTeCtrlGo (t : TileId) (ch : Fin 4) (sys : State) : Host.Outcome State Fault Refusal := onDev sys fun s => modChan s t ch teGo
/-- R427, R422: TCB_TE_CTRL.CLEAR with MODE. -/
def execTeCtrlClear (t : TileId) (ch mode : Fin 4) (sys : State) : Host.Outcome State Fault Refusal := onDev sys fun s =>
  modChan s t ch (fun c => teClear c mode)

/-- R423: the blocks in flight have ended, those not begun are dropped, and the channel is STOPPED. -/
def execTeStopDone (t : TileId) (ch : Fin 4) (sys : State) : Host.Outcome State Fault Refusal := onDev sys fun s =>
  modChan s t ch (fun c => if c.stopping && !(c.blks.any (·.sent.isSome)) then { c with st := 4, stopping := false, blks := [], failAt := none } else c)

/-! ### Saving and restoring (R424, R425) -/

/-- The captured context of a descriptor as a record word. -/
def capWord (d : TeDesc) : Word := BitVec.ofNat 64 (d.tag + 2 ^ 8 * b2n (!d.user) + 2 ^ 32 * d.ticket.toNat)

/-- The sixteen words of a descriptor, zero where there is none. -/
def descWords (d : Option TeDesc) : List Word :=
  match d with | some d => (List.range 16).map (dW d) | none => List.replicate 16 0

/-- The 96 words of a save record. -/
def saveRecord (c : TeChan) : List Word :=
  let w0 : Word := BitVec.ofNat 64 (c.st + 8 * c.queue.length + 64 * b2n c.poisoned + 2 ^ 8 * c.err + 2 ^ 16 * b2n c.run.isSome)
  let tk := match c.run with | some d => d.ticket.toNat | none => 0
  let caps := (match c.run with | some d => capWord d | none => 0) ::
    (List.range 4).map (fun i => match c.queue[i]? with | some d => capWord d | none => 0)
  [w0, BitVec.ofNat 64 (c.done + 2 ^ 32 * tk), c.fault] ++ caps ++ List.replicate 8 0 ++ descWords c.run ++
    (List.range 4).flatMap (fun i => descWords c.queue[i]?)

/-- Write bytes over a range of the tile's own scratchpad. -/
def rangeWrite (x : Tile) (l : List (Nat × Nat)) (bs : List Byte) : Tile :=
  (l.foldl (fun (p : Tile × List Byte) q => (spadPut p.1 q.1 (p.2.take q.2), p.2.drop q.2)) (x, bs)).1

/-- R424: `tsave ga, gb`, monitor mode only; it waits for a channel that is IDLE, STOPPED or FAILED, and for the
earlier stores of the scalar port (R353). A channel in FAULT_WAIT is stopped: the save abandons its wait (R419; log entry 46,
DEDUCED). -/
def execTsave (t : TileId) (gu : Guard) (ra rb : RegNo) (sys : State) : Host.Outcome State Fault Refusal := onDev sys fun s =>
  issue s t gu 4 (fun _ => false) (fun x =>
    let va := (getG x ra).toNat
    let c := chanOf x (fld (getG x rb) 1 0)
    if isUser x then .exc 2 0 0
    else if va % 64 ≠ 0 then .exc 5 0 (getG x ra)
    else match ownRange (setTile s t x) t true va 768 with
      | .error r => r
      | .ok (s1, l) =>
        let ch := fld (getG x rb) 1 0
        let s2 := if c.st = 2 then teStop s1 t ch else s1
        let y := tileOf s2 t
        let k := chanOf y ch
        if k.st = 1 ∨ k.st = 2 ∨ k.stopping ∨ !(storesDrained y) then stallPlain s2 y
        else .done s2 (rangeWrite y l ((saveRecord k).flatMap (fun w => leBytes 8 w.toNat))) 1)

/-- The descriptor a record holds at word `i`, with its capture word. -/
def recDesc (r : List Word) (i : Nat) (cap : Word) : TeDesc :=
  ⟨(r.drop i).take 16, fld cap 7 0, !(bit cap 8), cap.extractLsb' 32 32⟩

/-- Is a record out of range (R425)? -/
def recordBad (r : List Word) : Bool :=
  let w := r.getD 0 0
  let st := fld w 2 0
  let q := fld w 5 3
  bit w 7 || fld w 63 17 != 0 || (List.range 5).any (fun i => fld (r.getD (3 + i) 0) 31 9 != 0) ||
    (List.range 8).any (fun i => r.getD (8 + i) 0 != 0) ||
    st == 1 || st == 2 || decide (5 ≤ st) || decide (4 < q) || (st == 3 && !(bit w 16)) ||
    (st == 0 && (bit w 16 || decide (0 < q)))

/-- What a channel holds after `trest` (R425). -/
def restored (c : TeChan) (r : List Word) : TeChan :=
  let w := r.getD 0 0
  if recordBad r then { TeChan.reset with st := 3, err := 0x41, next := c.next }
  else
    { c with
      st := if fld w 2 0 = 3 then 3 else 4
      poisoned := bit w 6
      err := if fld w 2 0 = 3 then fld w 15 8 else 0
      run := if bit w 16 then some (recDesc r 16 (r.getD 3 0)) else none
      checked := false
      queue := (List.range (fld w 5 3)).map (fun i => recDesc r (32 + 16 * i) (r.getD (4 + i) 0))
      done := fld (r.getD 1 0) 31 0
      fault := r.getD 2 0
      blks := []
      failAt := none }

/-- R425: `trest ga, gb`, monitor mode only; it waits for an IDLE channel. -/
def execTrest (t : TileId) (gu : Guard) (ra rb : RegNo) (sys : State) : Host.Outcome State Fault Refusal := onDev sys fun s =>
  issue s t gu 4 (fun _ => false) (fun x =>
    let va := (getG x ra).toNat
    let ch := fld (getG x rb) 1 0
    if isUser x then .exc 2 0 0
    else if va % 64 ≠ 0 then .exc 5 0 (getG x ra)
    else match ownRange (setTile s t x) t false va 768 with
      | .error r => r
      | .ok (s1, l) =>
        if (chanOf x ch).st ≠ 0 ∨ !(storesDrained x) then stallPlain s1 (tileOf s1 t)
        else
          let s2 := spadTouch s1 t ((l.map (·.1)).headD 0)
          let y := tileOf s2 t
          match rangePoison y va l with
          | some a => poisonExc s2 t 0 a
          | none => .done s2 (setChan y ch (restored (chanOf y ch) (wordsOfBytes 96 (rangeBytes y l)))) 1)

/-! ### Running (R405, R408) -/

/-- The block is done with its last: the next descriptor follows. (log entry 46, DEDUCED) -/
def teComplete (c : TeChan) : TeChan :=
  if c.stopping then
    { c with run := none, checked := false, blks := [], failAt := none }
  else nextDesc c

/-- R405: the running descriptor is checked. -/
def execDescriptorStart (t : TileId) (ch : Fin 4) (sys : State) : Host.Outcome State Fault Refusal := onDev sys fun s =>
  let c := chanOf (tileOf s t) ch
  match c.run with
    | some d =>
      if s.hold ∨ c.st ≠ 1 ∨ c.checked ∨ c.stopping then s
      else if teFormatBad s t d then teFail s t ch 0x41 0
      else if dBlocks d ≤ c.done then modChan s t ch teComplete
      else modChan s t ch (fun c => { c with checked := true })
    | none => s

/-- Where a kind-1 or kind-2 address leads (R403): rank and offset, if it names one. -/
def rankAddr (a : Nat) : Option (Nat × Nat) :=
  if a / 2 ^ 30 = 0 then some (a / 0x400000, a % 0x400000) else none

/-- How the check of one piece of a block ends. -/
inductive TeRes where
  | ok (g : Target)
  | fail (code : Nat)
  | miss

/-- R408: where a piece of a block leads; an unreachable peer or host port fails it with LINK (R420). -/
def teTarget (s : Dev) (t ch : Nat) (d : TeDesc) (dst : Bool) (a n : Nat) : Dev × TeRes :=
  let kind := if dst then dDkind d else dSkind d
  match kind, partOf (tileOf s t) with
  | _, none => (s, .fail 0x42)
  | 0, some _ =>
    if d.user then
      match xlate s (.te t ch) d.tag 1 (b2n dst) a n with
      | (s1, .ok (.host m)) => if (hportOf s1 (tilePort s1 t)).dlUp then (s1, .ok (.host m)) else (s1, .fail 0x44)
      | (s1, .ok g) => (s1, .ok g)
      | (s1, .fail) => (s1, .fail 0x42)
      | (s1, .miss) => (s1, .miss)
    else
      match monitorTarget s t a n dst with
      | some (.scratch tt o) => (s, .ok (.scratch tt o))
      | some (.stacked m) => (s, .ok (.stacked m))
      | _ => (s, .fail 0x42)
  | 1, some p =>
    match rankAddr a with
    | some (r, o) => if r < pTiles (partSt s p) ∧ populated (o + n - 1) then (s, .ok (.scratch (tileOfRank (partSt s p) r) o)) else (s, .fail 0x42)
    | none => (s, .fail 0x42)
  | 2, some p =>
    let slot := if dst then dDpart d else dSpart d
    match rankAddr a, liveBind s p slot with
    | some (r, o), some (pp, tiles, _) =>
      if !(reachable s slot) then (s, .fail 0x44)
      else if r < tiles ∧ populated (o + n - 1) then (s, .ok (.peer slot pp r o)) else (s, .fail 0x42)
    | none, _ => (s, .fail 0x42)
    | _, none => (s, .fail 0x44)
  | _, some _ => if a + n ≤ 0x20000 then (s, .ok (.istore t a)) else (s, .fail 0x42)

/-- Check pieces in order. -/
def teTargets (s : Dev) (t ch : Nat) (d : TeDesc) (dst : Bool) :
    List (Nat × Nat) → Dev × Except (Option (Nat × Nat)) (List (Target × Nat × Nat))
  | [] => (s, .ok [])
  | (a, n) :: r =>
    match teTarget s t ch d dst a n with
    | (s1, .ok g) =>
      match teTargets s1 t ch d dst r with
      | (s2, .ok l) => (s2, .ok ((g, a, n) :: l))
      | q => q
    | (s1, .fail code) => (s1, .error (some (a, code)))
    | (s1, .miss) => (s1, .error none)

/-- The pieces of a row, which wraps at the end of the address space (R404). -/
def wrapPieces (a n : Nat) : List (Nat × Nat) :=
  if a + n ≤ 2 ^ 64 then pagePieces a n else pagePieces a (2 ^ 64 - a) ++ pagePieces 0 (a + n - 2 ^ 64)

/-- The pieces of a block's rows, in byte order. -/
def blockPieces (d : TeDesc) (dst : Bool) (b : Nat) : List (Nat × Nat) :=
  (List.range (dCount d 1)).flatMap (fun i1 => wrapPieces (rowAddr d dst b i1) (dCount d 0))

/-- Ask host memory and peers for the source bytes of a block (R409). -/
def askSources (s0 : Dev) (t ch b : Nat) (l : List (Target × Nat × Nat)) : Dev :=
  let s := if l.any (fun q => isHost q.1) then hostForget s0 (.read t ch b) else s0
  match partOf (tileOf s t) with
  | none => s
  | some p =>
    l.foldl (fun s q => match q.1 with
      | .host a => hostRead s (.read t ch b) 1 (pPort (partSt s p)) a q.2.2
      | .peer slot pp r o => sendPeer s slot (.read p pp r o q.2.2 (match liveBind s p slot with | some (_, _, bd) => bd | none => 0) t ch b)
      | _ => s) s

/-- Up to two blocks of a channel are in flight: their sources are asked (R410). A stop issues no further block (R423). -/
def askBlocks (s : Dev) (t ch : Nat) : Dev :=
  let c := chanOf (tileOf s t) ch
  if c.stopping then s
  else
    ((c.blks.take 2).filter (fun k => !k.asked)).foldl (fun s k => askSources s t ch k.b k.src)
      (modChan s t ch (fun c => { c with blks := (c.blks.take 2).map (fun k => { k with asked := true }) ++ c.blks.drop 2 }))

/-- A block ahead fails the checks of R408: at once where no block is in flight, else once those have committed. -/
def failAhead (s : Dev) (t ch code a : Nat) : Dev :=
  if (chanOf (tileOf s t) ch).blks.isEmpty then teFail s t ch code a else modChan s t ch (fun c => { c with failAt := some (code, a) })

/-- R408, R410: the next block is translated and checked, at most four ahead of the one in flight; a failure counts when
the blocks before it have committed. -/
def execBlockPretranslate (t : TileId) (ch : Fin 4) (sys : State) : Host.Outcome State Fault Refusal := onDev sys fun s =>
  let c := chanOf (tileOf s t) ch
  match c.run with
    | some d =>
      let b := c.done + c.blks.length
      if s.hold ∨ c.st ≠ 1 ∨ !c.checked ∨ c.stopping ∨ dBlocks d ≤ b ∨ 5 ≤ c.blks.length ∨ unitWaits s (.te t ch) ∨ c.failAt.isSome then s
      else
        match teTargets s t ch d false (blockPieces d false b) with
        | (s1, .ok src) =>
          match teTargets s1 t ch d true (blockPieces d true b) with
          | (s2, .ok dst) => askBlocks (modChan s2 t ch (fun c => { c with blks := c.blks ++ [⟨b, src, dst, false, none⟩] })) t ch
          | (s2, .error none) => s2
          | (s2, .error (some (a, code))) => failAhead s2 t ch code a
        | (s1, .error none) => s1
        | (s1, .error (some (a, code))) => failAhead s1 t ch code a
    | none => s

/-! ### Commitment (R409 to R412, R421) -/

/-- Does a target lie outside the part? -/
def outside : Target → Bool
  | .host _ => true
  | .peer .. => true
  | _ => false

/-- Does a channel reach host memory through the host line cache (R496)? -/
def teCached (s : Dev) (t : Nat) : Bool := (hportOf s (tilePort s t)).cache

/-- The bytes a block takes from peers, and from host memory over a link without the cache. -/
def outsideBytes (s : Dev) (t : Nat) (l : List (Target × Nat × Nat)) : Nat :=
  ((l.filter (fun q => outside q.1 && !(isHost q.1 && teCached s t))).map (·.2.2)).foldl (· + ·) 0

/-- Has every line a block reads through the cache been returned? -/
def linesHere (s : Dev) (t ch : Nat) (k : TeBlk) : Bool :=
  !(teCached s t) || k.src.all (fun q => match q.1 with
    | .host a => (hostGot s (.read t ch k.b) (tilePort s t) a q.2.2).isSome
    | _ => true)

/-- A private or busy drawer among a block's scratchpad targets (R355, R363): some address for private, none for busy. -/
def blockDrawer (s : Dev) (l : List (Target × Nat × Nat)) : Option (Option (Nat × Nat × Nat)) :=
  if l.any (fun q => match q.1 with | .scratch tt o => drawerBusy (tileOf s tt) o | _ => false) then some none
  else (l.find? (fun q => match q.1 with | .scratch tt o => !(transferMay (tileOf s tt) o) | _ => false)).map (fun q =>
    match q.1 with | .scratch tt o => some (q.2.1, tt, o) | _ => none)

/-- What the source gives: pieces of bytes, each with whether it is poisoned (R368, R421). `cached` gives host memory where
the host line cache has it; `ext` holds the other bytes from outside in order; poisoned ones are free values. -/
def readPieces (s : Dev) (cached : Nat → Nat → Option (List Byte × Bool)) (extPoison : Bool) :
    List (Target × Nat × Nat) → List Byte → Dev × List (List Byte × List Bool)
  | [], _ => (s, [])
  | (g, _, n) :: r, ext =>
    match g with
    | .scratch tt o =>
      let s1 := spadTouch s tt o
      let x := tileOf s1 tt
      let q := readPieces s1 cached extPoison r ext
      (q.1, (spadGet x o n, (List.range n).map (fun k => mget false x.dr.poison ((o + k) / 64))) :: q.2)
    | .stacked a =>
      let q := readPieces s cached extPoison r ext
      (q.1, (stackGet s a n, (List.range n).map (fun k => stackPoisoned s (a + k) 1)) :: q.2)
    | g =>
      match (match g with | .host a => cached a n | _ => none) with
      | some v =>
        let q := readPieces s cached extPoison r ext
        (q.1, (v.1, List.replicate n v.2) :: q.2)
      | none =>
        let q := readPieces s cached extPoison r (ext.drop n)
        (q.1, (ext.take n, List.replicate n extPoison) :: q.2)

/-- Write bytes to scratchpad through the transfer port, with poison marks for the words whose bytes carry one. -/
def putMarked (x : Tile) (o : Nat) (bs : List Byte) (ps : List Bool) : Tile :=
  let x1 := spadPut x o bs
  (ps.zipIdx).foldl (fun y p => if p.1 then spadPoison y ((o + p.2) / 64) else y) x1

/-- Write a piece of a block at its target (R409, R421). -/
def writePiece (s : Dev) (t ch : Nat) (d : TeDesc) (b : Nat) (g : Target) (bs : List Byte) (ps : List Bool) : Dev :=
  let bad := ps.any id
  match g, partOf (tileOf s t) with
  | .scratch tt o, _ => modTile (mergeTouch s tt o bs.length) tt (fun x => putMarked x o bs ps)
  | .stacked a, _ =>
    let s1 := stackPut s a bs
    stackMark s1 (((ps.zipIdx).filter (·.1)).map (fun p => (a + p.2) / 64)) true
  | .istore tt o, _ => modTile s tt (fun x =>
      (List.range (bs.length / 8)).foldl (fun y k =>
        let y1 := istWrite y (o + 8 * k) 8 (leNat ((bs.drop (8 * k)).take 8))
        if ((ps.drop (8 * k)).take 8).any id then { y1 with istPoison := mset false y1.istPoison ((o + 8 * k) / 8) true } else y1) x)
  | .host a, some p =>
    let q := partSt s p
    hostPut s (.block t ch b) (pPort q) a bs bad
      (.hostBytes (pPort q) a bs bad ((fnOf s (pPort q) (pFunc q)).relaxed && !(dFence d)))
  | .peer slot pp r o, some p =>
    sendPeer s slot (.write p pp r o bs (wordMarks o ps) (match liveBind s p slot with | some (_, _, bd) => bd | none => 0) t ch b)
  | _, _ => s

/-- Write the pieces of a block in order. -/
def writePieces (s : Dev) (t ch : Nat) (d : TeDesc) (b : Nat) :
    List (Target × Nat × Nat) → List Byte → List Bool → Dev
  | [], _, _ => s
  | (g, _, n) :: r, bs, ps =>
    writePieces (writePiece s t ch d b g (bs.take n) (ps.take n)) t ch d b r (bs.drop n) (ps.drop n)

/-- Fold a block's record into its channel's digest (R659 TYPE 8). -/
def foldTe (x : Tile) (user : Bool) (ch : Nat) (r : FoldRec) : Tile :=
  if x.dig.armed && user then
    { x with dig := { x.dig with chan := mmod crcInit x.dig.chan ch (fun c => crc64 c (foldBytes r)) } }
  else x

/-- A channel whose next block waits for the service of a page fault enters FAULT_WAIT once no block is in flight
(R417). -/
def teFaultWait (s : Dev) (t ch : Nat) : Dev :=
  let c := chanOf (tileOf s t) ch
  match s.xlt.want.find? (fun w => decide (w.unit = .te t ch) && decide (w.stage ≠ .walk)) with
  | some w =>
    if c.st = 1 ∧ c.blks.isEmpty ∧ !c.stopping then
      modTile s t (fun x => { setChan x ch { c with st := 2, fault := BitVec.ofNat 64 w.va } with teStats := incFld x.teStats 63 32 1 })
    else s
  | none => s

/-- The commit of a block: DONE goes up and the completion ARRIVE is applied as one action (R412); `crc` is the CRC of
its bytes. A failure found ahead then counts once no block is in flight (R408). (log entry 51, DEDUCED) -/
def blockDone (s : Dev) (t ch : Nat) (d : TeDesc) (b : Nat) (crc : Word) : Dev :=
  let s1 := modTile s t (fun x =>
    let c := chanOf x ch
    let c1 := { c with done := b + 1, blks := c.blks.drop 1 }
    let x1 := foldTe x d.user ch ⟨8, ch, rowAddr d true b 0 % 2 ^ 48, crc⟩
    { setChan x1 ch (if dBlocks d ≤ b + 1 then teComplete c1 else c1) with teStats := incFld x1.teStats 31 0 1 })
  let s2 := if dDw d then sendNamed s1 (.te t ch) t (dowelName s1 t (dComp d)) 0 1 (some (ch, d.ticket.toNat, b)) else s1
  let c := chanOf (tileOf s2 t) ch
  match c.failAt with
  | some (code, a) => if c.blks.isEmpty then teFail s2 t ch code a else askBlocks s2 t ch
  | none => teFaultWait (askBlocks s2 t ch) t ch

/-- Does a block write to a peer part? -/
def toPeer (k : TeBlk) : Bool := k.dst.any (fun q => match q.1 with | .peer .. => true | _ => false)

/-- Does a block write host memory? -/
def toHost (k : TeBlk) : Bool := k.dst.any (fun q => isHost q.1)

/-- Is a peer slot or the host port of the block's destination unreachable (R420, R588)? -/
def pathGone (s : Dev) (t : Nat) (k : TeBlk) : Bool :=
  k.dst.any (fun q => match q.1 with
    | .peer slot _ _ _ => !(reachable s slot)
    | .host _ => !(hportOf s (tilePort s t)).dlUp
    | _ => false)

/-- Is a write of a block still unacknowledged by a peer (R409, R586)? -/
def blockUnacked (s : Dev) (t ch b : Nat) : Bool :=
  s.lny.tx.any (fun e => e.2.kept.any (fun k => match k.2 with
    | .write _ _ _ _ _ _ _ t' ch' b' => t' == t && ch' == ch && b' == b
    | _ => false))

/-! ### Bytes the descriptor leaves undefined (R416) -/

/-- How many rows of a descriptor's source or destination cover an address: the blocks FIRST to B − 1. -/
def rowsOver (d : TeDesc) (dst : Bool) (a : Nat) : Nat :=
  (List.range (dBlocks d - dFirst d)).foldl (fun n j =>
    n + (List.range (dCount d 1)).countP (fun i1 => decide ((a + 2 ^ 64 - rowAddr d dst (dFirst d + j) i1) % 2 ^ 64 < dCount d 0))) 0

/-- The address of one side of a descriptor by which the other side names the same byte: both of one kind, or one
device-physical and the other by rank (R403). Two virtual addresses of one page are not told apart (log entry 73, DEDUCED). -/
def aliasOf (s : Dev) (t : Nat) (d : TeDesc) (dst : Bool) (a : Nat) : Option Nat :=
  let me := if dst then dDkind d else dSkind d
  let it := if dst then dSkind d else dDkind d
  match partOf (tileOf s t) with
  | none => none
  | some p =>
    let q := partSt s p
    if me = it then (if me = 2 ∧ dSpart d ≠ dDpart d then none else some a)
    else if d.user then none
    else match me, it with
      | 1, 0 => (rankAddr a).map (fun r => 0x4000000000 + 0x400000 * tileOfRank q r.1 + r.2)
      | 0, 1 => (match devDecode a with
        | some (.scratch tt o) => if (tileOf s tt).member = p + 1 then some (0x400000 * rankOf q tt + o) else none
        | _ => none)
      | _, _ => none

/-- Is byte `i` of a block left undefined: more than one byte of the descriptor is written there, it lies in the source, or
its source lies in the destination (R416)? -/
def byteUndefined (s : Dev) (t : Nat) (d : TeDesc) (b i : Nat) : Bool :=
  let addr (dst : Bool) : Nat := (rowAddr d dst b (i / dCount d 0) + i % dCount d 0) % 2 ^ 64
  let meets (dst : Bool) : Bool := match aliasOf s t d dst (addr dst) with
    | some a => decide (0 < rowsOver d (!dst) a)
    | none => false
  decide (1 < rowsOver d true (addr true)) || meets true || meets false

/-- Free values for the bytes a block leaves undefined (R416); `i` is the index of the first. -/
def freeUndefined (t : Nat) (d : TeDesc) (b : Nat) (s : Dev) : (i : Nat) → List Byte → Dev × List Byte
  | _, [] => (s, [])
  | i, v :: r =>
    let u := byteUndefined s t d b i
    let q := freeUndefined t d b (if u then drawFree s else s) (i + 1) r
    (q.1, (if u then Config.freeByte s.freeCtr else v) :: q.2)

/-- The reads and writes of a block whose bytes from outside are at hand (R409, R416, R421). -/
def moveBlock (s : Dev) (t ch : Nat) (d : TeDesc) (k : TeBlk) (ext : List Byte) (extPoison : Bool) : Dev :=
  match blockDrawer s (k.src ++ k.dst) with
  | some none => s
  | some (some (a, tt, o)) => teFail (modTile s tt (fun y => drawerFault y 5 o)) t ch 0x43 a
  | none =>
    if pathGone s t k then teFail s t ch 0x44 (rowAddr d true k.b 0) else
    let part := partOf (tileOf s t)
    let s0 := k.src.foldl (fun s q => match q.1 with | .stacked a => stackTouch s true part (descCtx d) a q.2.2 | _ => s) s
    let cached (a n : Nat) : Option (List Byte × Bool) :=
      if teCached s t then hostGot s (.read t ch k.b) (tilePort s t) a n else none
    let r := readPieces s0 cached extPoison k.src ext
    let u := freeUndefined t d k.b r.1 0 (r.2.flatMap (·.1))
    let bs := u.2
    let ps := r.2.flatMap (·.2)
    let s1 := k.dst.foldl (fun s q => match q.1 with | .stacked a => stackTouch s false part (descCtx d) a q.2.2 | _ => s) u.1
    let s2 := writePieces s1 t ch d k.b k.dst bs ps
    let s3 := if ps.any id then
        tileErr (modChan s2 t ch (fun c => { c with poisoned := true })) t 0x100B 1 (descCtx d) (rowAddr d true k.b 0) k.b
      else s2
    if toPeer k || toHost k then modChan s3 t ch (fun c => { c with blks := { k with sent := some (crcOf bs) } :: c.blks.drop 1 })
    else blockDone s3 t ch d k.b (crcOf bs)

/-- R412, R409: the next block's bytes are read and written, and it commits; `ext` brings what host memory and peers
answered for its source bytes. A block written to a peer or to host memory commits by the same command once the peer has
acknowledged and host memory shows it (R409, R482). -/
def blockCommit (s : Dev) (t ch : Nat) (ext : LoadAns) : Dev :=
  let c := chanOf (tileOf s t) ch
  match c.run, c.blks with
    | some d, k :: _ =>
      if ¬ (c.st = 1 ∨ c.st = 2) then s
      else match k.sent with
      | some crc => if blockUnacked s t ch k.b || hostPending s (.block t ch k.b) then s else blockDone s t ch d k.b crc
      | none =>
        let need := outsideBytes s t k.src
        if !k.asked || !(linesHere s t ch k) then s
        else match ext with
        | .fault => if need = 0 then s else teFail s t ch 0x44 (rowAddr d false k.b 0)
        | .poison => let r := freeBytes s need; moveBlock r.1 t ch d k r.2 true
        | .data v => if v.length = need then moveBlock s t ch d k v false else s
    | _, _ => s

/-- R409 to R413: the oldest block of a channel; `ext` brings the bytes of sources outside the part. -/
def execBlockCommit (t : TileId) (ch : Fin 4) (ext : LoadAns) (sys : State) : Host.Outcome State Fault Refusal := onDev sys fun s =>
  blockCommit s t ch ext

/-- R420, R411: a write of the block is refused at its target: DRAWER, ACCESS or LINK, and the block stays
uncommitted. -/
def execBlockWriteRefused (t : TileId) (ch : Fin 4) (code : Fin 3) (sys : State) : Host.Outcome State Fault Refusal := onDev sys fun s =>
  let c := chanOf (tileOf s t) ch
  match c.run, c.blks with
    | some d, k :: _ => if c.st = 1 ∨ c.st = 2 then teFail s t ch (0x42 + code.val) (rowAddr d true k.b 0) else s
    | _, _ => s

end Sys2Proof.Machine
end

