-- ==== Sys2Proof/Machine/Lenys.lean ====
section
/-! DEFINITION. The Lenys links, the end-to-end streams, peer operations at their target, cabinet barriers and cabinet
time (R566 to R607). -/

namespace Sys2Proof.Machine
open Sys2Proof

/-! ### Ports (R566 to R577) -/

/-- The UNIT of a record of a port's lane (R746). -/
def lnyUnit (port lane : Nat) : Nat := port * 8 + lane

/-- One step along a ring of a dimension (R567). -/
def ringStep (slot d : Nat) (plus : Bool) : Nat :=
  let n := ringSize d
  let c := slotCoord d slot
  let k := if d = 0 then 64 else if d = 1 then 8 else 1
  slot - c * k + (if plus then (c + 1) % n else (c + n - 1) % n) * k

/-- The antipode of a slot (R576). -/
def antipode (slot : Nat) : Nat :=
  (slotCoord 0 slot + 2) % 4 * 64 + (slotCoord 1 slot + 4) % 8 * 8 + (slotCoord 2 slot + 4) % 8

/-- The slot and port R567 and R576 expect at the far end of a port. -/
def expectFar (slot p : Nat) : Nat × Nat :=
  if p < 12 then (ringStep slot (p / 4) (decide (p % 4 < 2)), p ^^^ 2)
  else if p < 14 then (slot ^^^ 1, p) else (antipode slot, p)

/-- The Lenys entry of a port, as committed or on its way to flash (R34, R573): [2:0] spare lane or 7, [5:3] failed lane
or 7, [6] PORT_OUT. -/
def laneEntry (s : Dev) (p : Nat) : Nat :=
  match s.knots.flashPend.reverse.findSome? (fun e => match e with | .lane q v => if q = p then some v else none | _ => none) with
  | some v => v
  | none => mget lnyFactory s.knots.eff.lny p

/-- PORT_OUT of a port: it is out of service and never trains again (R34, R573). -/
def portOut (s : Dev) (p : Nat) : Bool := laneEntry s p / 64 == 1

/-! ### What a peer's reset or loss brings (R588, R589, R596) -/

/-- The context the operation of a dowel source is charged to. -/
def srcCtx (s : Dev) (src : DowelSrc) : Option Nat :=
  match srcTile src with | some t => coreCtx (tileOf s t) | none => none

/-- A transfer block whose message failed fails its descriptor with LINK (R420, R588), unless it has committed. -/
def failBlock (s : Dev) (t ch b slot : Nat) (code : Nat) : Dev :=
  let c := chanOf (tileOf s t) ch
  match c.run with
  | some d =>
    let hit := (dDkind d == 2 && dDpart d == slot) || (dSkind d == 2 && dSpart d == slot)
    if (c.st == 1 || c.st == 2) && hit && decide (c.done ≤ b) then teFail s t ch code (rowAddr d (dDkind d == 2) b 0) else s
  | none => s

/-- A message of a stream fails (R588; ID 0x6005): `code` is the transfer code of a block. -/
def failMsg (s : Dev) (slot : Nat) (code : Nat) (m : PeerMsg) : Dev :=
  match m with
  | .dowelOp lp _ src _ _ _ _ _ _ => raiseErr (countLost s) (some lp) 0x6005 1 0xFFFF (srcCtx s src) 0 slot
  | .write lp _ _ o _ _ _ t ch b => raiseErr (failBlock s t ch b slot code) (some lp) 0x6005 1 0xFFFF none o slot
  | .read lp _ _ o _ _ t ch b => raiseErr (failBlock s t ch b slot code) (some lp) 0x6005 1 0xFFFF none o slot
  | .dowelWait lp _ tile _ _ _ id _ => raiseErr (dowelLost s tile id) (some lp) 0x6005 1 0xFFFF (coreCtx (tileOf s tile)) 0 slot
  | .dowelRead lp _ tile _ _ id _ => raiseErr (dowelLost s tile id) (some lp) 0x6005 1 0xFFFF (coreCtx (tileOf s tile)) 0 slot
  | _ => s

/-- The number of the wait or request that a tile has at a slot, if any. -/
def peerWait (slot : Nat) (x : Tile) : Option Nat :=
  match x.core.wait with
  | .dwait d => (match d.peer with | some (sl, _) => if sl = slot ∧ !d.ckpt then some d.id else none | none => none)
  | .load l =>
    (match l.parts with
     | (_, a, _) :: _ => if (l.op = 8 ∨ l.op = 9) ∧ a / 2 ^ 17 % 2 = 1 ∧ a / 2 ^ 18 % 2 ^ 8 = slot then some l.id else none
     | [] => none)
  | _ => none

/-- Waits on a peer's dowels end broken, and its reads fail (R385, R588). A second message of the same number finds the wait
gone. -/
def breakPeerWaits (s : Dev) (slot : Nat) : Dev :=
  { s with wakes := s.wakes ++ s.tiles.filterMap (fun e => (peerWait slot e.2).map (fun id => (e.1, id, false))) }

/-- The barrier groups that hold a slot act on its new incarnation or its loss (R596). -/
def groupsLose (s : Dev) (slot : Nat) : Dev :=
  s.lny.grps.foldl (fun s e =>
    let q := e.2
    if q.valid && (grpMembers q).contains slot && decide (slot ≠ s.lny.slot) then
      (if grpRoot q = slot then memberBroken s e.1 0 false
       else if grpRoot q = s.lny.slot then rootAbort s e.1 false
       else sendPeer s (grpRoot q) (.barrier 3 e.1 q.gen q.aborts (incOf s (grpRoot q))))
    else s) s

/-- A stream ends: what it kept fails, and a new one starts at number 1 (R588, R589). -/
def endStream (s : Dev) (slot : Nat) (inc : BitVec 32) : Dev :=
  let old := (ltxOf s slot).kept
  let s1 := setLtx s slot { LTx.reset with inc := inc }
  let s2 := { s1 with lny := { s1.lny with rx := mset LRx.reset s1.lny.rx slot { LRx.reset with inc := inc } } }
  old.foldl (fun s k => failMsg s slot 0x44 k.2) s2

/-- The part learns a slot's incarnation (R589, R607; ID 0x6006). (log entry 47, DEDUCED) -/
def learnInc (s : Dev) (slot : Nat) (inc : BitVec 32) : Dev :=
  let old := (ltxOf s slot).inc
  if old = inc then s
  else if old = 0 then
    let s1 := setLtx s slot { ltxOf s slot with inc := inc }
    { s1 with lny := { s1.lny with rx := mset LRx.reset s1.lny.rx slot { mget LRx.reset s1.lny.rx slot with inc := inc } } }
  else raiseErr (groupsLose (breakPeerWaits (endStream s slot inc) slot) slot) none 0x6006 4 0xFFFF none 0 slot

/-! ### Link training and the link layer (R568 to R575) -/

/-- A port starts training; its link state is discarded (R572). A port whose entry says PORT_OUT stays out of service
(R34, R573). -/
def startTraining (s : Dev) (p : Nat) (count : Bool) : Dev :=
  if portOut s p then modLport s p (fun q => { q with st := 4, replay := [], outq := [] })
  else modLport s p (fun q => { q with
    st := 1, replay := [], outq := [], txSeq := 0, rxSeq := 0, asked := false, again := 0
    stats := if count then incFld q.stats 63 48 1 else q.stats })

/-- R568, R577: a port that trains comes up, its PLL locked (R81), is miswired, or stays down. -/
def execLenysTraining (port : Fin 16) (gen2 : Bool) (farSlot : TileId) (farPort : Fin 16) (farCab farInc : BitVec 32) (ok : Bool)
    (sys : State) : Host.Outcome State Fault Refusal := onDev sys fun s =>
  let q := lportOf s port
  if portOut s port then modLport s port (fun q => { q with st := 4, replay := [], outq := [] })
  else if q.st = 1 ∨ q.st = 3 then
      (if !ok then modLport s port (fun q => { q with st := 3 })
       else
        let far : LPort → LPort := fun q => { q with farSlot := farSlot, farPort := farPort, gen2 := gen2 && !q.gen1Only }
        if expectFar s.lny.slot port = (farSlot.val, farPort.val) ∧ farCab = s.lny.cabId ∧ farCab ≠ 0 then
          learnInc (modLport (setLock s (13 + port.val) true) port (fun q => { far q with
            st := 2, replay := [], outq := [], txSeq := 0, rxSeq := 0, asked := false, again := 0 })) farSlot farInc
        else raiseErr (modLport s port (fun q => { far q with st := 5 })) none 0x6004 4 (lnyUnit port 0) none 0 farSlot)
    else s

/-- The far end's ACK frees replay entries (R571). -/
def linkAck (q : LPort) (ack : Nat) : LPort :=
  let keep := q.replay.filter (fun e => !(decide ((ack + 1024 - e.1) % 1024 < 512)))
  { q with replay := keep, again := if keep.length < q.replay.length then 0 else q.again }

/-- Ask for a replay from the SEQ expected, once (R571). -/
def askRetry (s : Dev) (p : Nat) : Dev :=
  if (lportOf s p).asked then s
  else modLport (send s (.lenysLink p 0 (lportOf s p).rxSeq)) p (fun q => { q with asked := true })

/-- R570, R571: a codeword is corrected or discarded, its ACK taken, which frees credits (R578), and its messages delivered in
order. -/
def execCodewordReceive (port : Fin 16) (seq ack : Fin 1024) (errs : Nat) (idle : Bool) (ms : List StreamMsg) (sys : State) :
    Host.Outcome State Fault Refusal := onDev sys fun s =>
  if (lportOf s port).st ≠ 2 then s
    else if 15 < errs then askRetry (modLport s port (fun q => { q with stats := incFld q.stats 31 16 1 })) port
    else
      let s1 := if errs = 0 then s
        else raiseErr (modLport s port (fun q => { q with stats := incFld q.stats 15 0 1 })) none 0x6001 0 (lnyUnit port 0) none 0 0
      let s0 := modLport s1 port (fun q => linkAck q ack)
      let s2 := drainLink (lportOf s0 port).outq.length s0 port
      if idle then s2
      else if seq.val = (lportOf s2 port).rxSeq then
        let s3 := modLport s2 port (fun q => { q with rxSeq := (q.rxSeq + 1) % 1024, asked := false })
        { s3 with lny := { s3.lny with inbox := s3.lny.inbox ++ ms } }
      else askRetry s2 port

/-- R571, R572: on a retry request the transmitter replays from the named codeword; a port that has replayed one 8 times in
succession retrains. -/
def execLinkReplay (port : Fin 16) (seq : Fin 1024) (sys : State) : Host.Outcome State Fault Refusal := onDev sys fun s =>
  let q := lportOf s port
  if q.st ≠ 2 then s
    else
      let again := q.replay.dropWhile (fun e => decide (e.1 ≠ seq.val))
      let s1 := modLport s port (fun q => { q with stats := incFld q.stats 47 32 1, again := q.again + 1 })
      let s2 := again.foldl (fun s e => send s (.lenys port (vchanOf e.2) e.1 (ackNow q) e.2)) (raiseErr s1 none 0x6001 0 (lnyUnit port 0) none 0 1)
      if 8 ≤ q.again + 1 then startTraining s2 port true else s2

/-- R572: a port retrains; its replay buffer is discarded. -/
def execPortRetrain (port : Fin 16) (sys : State) : Host.Outcome State Fault Refusal := onDev sys fun s =>
  if (lportOf s port).st = 2 then startTraining s port true else s

/-- R573: a lane fails: the spare takes its place, or the port leaves service for good. -/
def execLaneFail (port : Fin 16) (lane : Fin 5) (sys : State) : Host.Outcome State Fault Refusal := onDev sys fun s =>
  let e := laneEntry s port
  let put (v : Nat) : Dev := addEntry s (.lane port v)
  if e / 64 = 1 then s
    else if e % 8 ≠ 7 && !(fullLayer s) then raiseErr (put (7 + 8 * lane.val)) none 0x6002 0 (lnyUnit port lane) none 0 0
    else
      raiseErr (modLport (put (e % 64 + 64)) port (fun q => { q with st := 4, replay := [], outq := [] })) none 0x6003 0 (lnyUnit port lane) none 0 0

/-- The number of the window of a port's link, the same at both ends (R732). -/
def recalSlot (slot p : Nat) : Nat :=
  if 12 ≤ p then p
  else if p % 4 < 2 then (p + 2 * slotCoord (p / 4) slot) % 16
  else ((p ^^^ 2) + 2 * slotCoord (p / 4) (ringStep slot (p / 4) false)) % 16

/-- Does the link's window of this second stand open (R732)? -/
def lenysWindow (s : Dev) (p : Nat) : Bool :=
  let a := 62000000 * recalSlot s.lny.slot p + 300000
  let t := slotTime s % 1000000000
  decide (a ≤ t) && decide (t < a + 20000)

/-- R574, R732, R735: a recalibration window: nothing is lost, and the window is counted in MGC_BG_STATS.LNY_WIN. -/
def execLenysRecalWindow (port : Fin 16) (sys : State) : Host.Outcome State Fault Refusal := onDev sys fun s =>
  if (lportOf s port).st = 2 ∧ lenysWindow s port then ioInc s 0x000818 15 0 1 else s

/-- R575: a port goes down without having failed. -/
def execPortDown (port : Fin 16) (sys : State) : Host.Outcome State Fault Refusal := onDev sys fun s =>
  modLport s port (fun q => if q.st = 1 ∨ q.st = 2 ∨ q.st = 5 then { q with st := 3, replay := [], outq := [] } else q)

/-- R603, R577: LNY_PORTp_CTL.RETRAIN. -/
def execLenysRetrainWrite (port : Fin 16) (sys : State) : Host.Outcome State Fault Refusal := onDev sys fun s =>
  let q := lportOf s port
  if q.st = 2 ∨ q.st = 3 ∨ q.st = 5 then startTraining s port true else s

/-! ### Routing (R580 to R582) -/

/-- Resend what a stream keeps, oldest first (R587). -/
def resend (s : Dev) (d : Nat) : Dev :=
  ((ltxOf s d).kept.take 4096).foldl (fun s k => onLink s (streamMsg s d k)) s

/-- A count of LNY_E2E_STATS.RETX. -/
def countRetx (s : Dev) : Dev := { s with lny := { s.lny with e2e := incFld s.lny.e2e 15 0 1 } }

/-- Every stream whose path has changed is resent on its new path (R581, R587). -/
def reroute (s : Dev) : Dev :=
  s.lny.tx.foldl (fun s e =>
    let p := (hopPorts s s.lny.slot e.1).head?
    let t := ltxOf s e.1
    if p = t.path ∨ t.kept.isEmpty then s
    else
      let s1 := setLtx s e.1 { t with path := p }
      if p.isNone then s1 else resend (countRetx s1) e.1) s

/-- The messages held at this part are taken up again; where a new table gives the routes, detours end (R581). -/
def retakeHeld (s : Dev) (table : Bool) : Dev :=
  s.lny.held.foldl (fun s m => onLink s (if table then { m with det := none } else m)) { s with lny := { s.lny with held := [] } }

/-- R581: local routes are computed again after a port left or rejoined routing. -/
def execLocalReroute (sys : State) : Host.Outcome State Fault Refusal := onDev sys fun s => retakeHeld (reroute s) false

/-- One entry of a routing table (R582, R606); a slot that becomes reachable again restarts its stream (R588). -/
def putRoute (s : Dev) (d : Nat) (w : Word) : Dev :=
  let v := if d = s.lny.slot then setBit w 8 false else w
  let v10 : Word := BitVec.ofNat 64 (v.toNat % 1024)
  let s1 := { s with lny := { s.lny with route := mset none s.lny.route d (some v10) } }
  if bit v10 8 && isUnreach s d then
    let s2 := setLtx s1 d { LTx.reset with inc := (ltxOf s1 d).inc }
    { s2 with lny := { s2.lny with unreach := mset false s2.lny.unreach d false } }
  else s1

/-- R582: a new routing table is loaded, which is a route change. -/
def execRouteTableLoad (entries : List (TileId × Word)) (sys : State) : Host.Outcome State Fault Refusal := onDev sys fun s =>
  retakeHeld (reroute (entries.foldl (fun s e => putRoute s e.1 e.2) s)) true

/-! ### End-to-end delivery (R585 to R589) -/

/-- R587: 100 µs without progress: what a stream keeps is resent. -/
def execE2eRetransmit (d : TileId) (sys : State) : Host.Outcome State Fault Refusal := onDev sys fun s =>
  let t := ltxOf s d
  if t.kept.isEmpty || decide (64 ≤ t.retries) || !(reachable s d) then s
    else resend (countRetx (setLtx s d { t with retries := t.retries + 1 })) d

/-- R588: a destination is unreachable: its stream's messages fail. -/
def markUnreach (s : Dev) (d : Nat) : Dev :=
  let s1 := { s with lny := { s.lny with unreach := mset false s.lny.unreach d true } }
  groupsLose (endStream s1 d (ltxOf s1 d).inc) d

/-- R588: after 64 retransmissions, or with no valid route. -/
def execDestinationUnreachable (d : TileId) (sys : State) : Host.Outcome State Fault Refusal := onDev sys fun s =>
  if d.val ≠ s.lny.slot ∧ !(isUnreach s d) ∧ (64 ≤ (ltxOf s d).retries ∨ !(bit (routeOf s d) 8)) then markUnreach s d else s

/-- What a refusal status in an acknowledgement does at the source (R592): 1 LINK, 2 DRAWER. -/
def refusedAt (s : Dev) (slot : Nat) (m : PeerMsg) (code : Nat) : Dev := failMsg s slot (if code = 2 then 0x43 else 0x44) m

/-- A cumulative acknowledgement frees kept messages, reports refusals, and lets held ones leave (R586, R587, R592). -/
def ackStream (s : Dev) (src : Nat) (seq : BitVec 32) (refs : List (BitVec 32 × Nat)) : Dev :=
  let t := ltxOf s src
  let covered := t.kept.takeWhile (fun k => decide ((seq - k.1).toNat < 2 ^ 31))
  let n := covered.length
  let s1 := setLtx s src { t with kept := t.kept.drop n, retries := if n = 0 then t.retries else 0 }
  let held := (((ltxOf s1 src).kept.take 4096).drop (4096 - n))
  let s2 := held.foldl (fun s k => onLink s (streamMsg s src k)) s1
  covered.foldl (fun s k => match refs.find? (fun r => r.1 == k.1) with
    | some r => refusedAt s src k.2 r.2
    | none => s) s2

/-- R586, R589: an acknowledgement arrives, or the refusal of a message to an earlier incarnation. -/
def execE2eAck (src : TileId) (seq : BitVec 32) (refs : List (BitVec 32 × Nat)) (inc dinc : BitVec 32) (stale : Bool) (sys : State) :
    Host.Outcome State Fault Refusal := onDev sys fun s =>
  if stale then
      learnInc { s with lny := { s.lny with e2e := incFld s.lny.e2e 47 32 1 } } src inc
    else if dinc ≠ s.lny.inc then s
    else if (ltxOf s src).inc ≠ inc ∧ (ltxOf s src).inc ≠ 0 then learnInc s src inc
    else ackStream (learnInc s src inc) src seq refs

/-! ### Peer operations at their target (R592) -/

/-- R592: the tile an operation of a peer reaches, if its checks pass; `right` is IN_RD 33, IN_WR 34 or IN_DWL 35. The
build number alone failing is told apart for R388. -/
def peerCheck (s : Dev) (src lp pp rank : Nat) (build : BitVec 32) (right : Nat) : Except Bool Nat :=
  match bindOf s pp src with
  | some i =>
    let w := bindW s i 0
    let q := partSt s pp
    if bit w 1 || decide (fld w 23 17 ≠ lp) then .error false
    else if build ≠ q.build then .error true
    else if !(bit w right) || !(decide (rank < pTiles q)) then .error false
    else .ok (tileOfRank q rank)
  | none => .error false

/-- How an accepted message ends: performed with a status (0 done, 1 LINK, 2 DRAWER), or not yet. -/
abbrev Performed := Option (Dev × Nat)

/-- The answer to the request of a number comes back to the core that waits for it (R380, R387); any other is dropped
(R219, R386). -/
def dowelAnswerArrives (s : Dev) (t id : Nat) (v : Word) : Dev :=
  match (tileOf s t).core.wait with
  | .load l => if (l.op = 8 ∨ l.op = 9) ∧ l.id = id then loadArrives s t l (leBytes 8 v.toNat) else s
  | .dwait d => if d.id = id ∧ d.registered = false ∧ d.n ≤ fld v 31 0 then dwaitDone s t d true else s
  | _ => s

/-- A dowel operation refused for its build number is counted at its tile (R388, R592). -/
def countRefused (s : Dev) (pp rank : Nat) (stale : Bool) : Dev :=
  if stale && decide (rank < pTiles (partSt s pp)) then countStale s (tileOfRank (partSt s pp) rank) else s

/-- Perform an accepted message of a stream (R586, R590, R592). A management packet for this part is taken by the
management controller, and the request it carries is a command of its own; one for a manager waits for the gateway. -/
def performMsg (s : Dev) (src : Nat) (m : PeerMsg) : Performed :=
  match m with
  | .dowelOp lp pp dsrc rank idx op v build block =>
    match peerCheck s src lp pp rank build 35 with
    | .ok t =>
      match block, srcTile dsrc with
      | some (ch, ticket, b), some st =>
        let r := filterBlock (tileOf s t).teFilter (256 * (src + 1) + st) ch ticket b
        if r.1 then some (modTile s t (fun x => { x with teDiscarded := satAdd 32 x.teDiscarded 1 }), 0)
        else some (applyDowel (modTile s t (fun x => { x with teFilter := r.2 })) t idx op v, 0)
      | _, _ => some (applyDowel s t idx op v, 0)
    | .error stale => some (countRefused s pp rank stale, 1)
  | .dowelWait lp pp tile rank idx n id build =>
    match peerCheck s src lp pp rank build 35 with
    | .ok t =>
      if n ≤ dowelCount s t idx then some (sendPeer s src (.dowelAnswer tile id 0 0), 0)
      else if tableUsed s t < 64 ∧ rwaitOf s t idx < 4 then some ({ s with waiters := s.waiters ++ [⟨t, idx, some src, tile, n, id⟩] }, 0)
      else some (sendPeer s src (.dowelAnswer tile id 3 0), 0)
    | .error stale => some (countRefused s pp rank stale, 1)
  | .dowelCancel _ pp tile rank idx id =>
    let t := tileOfRank (partSt s pp) rank
    some ({ s with waiters := s.waiters.filter (fun w => !(w.tile == t && w.idx == idx && w.peer == some src && w.src == tile && w.id == id)) }, 0)
  | .dowelRead lp pp tile rank idx id build =>
    match peerCheck s src lp pp rank build 35 with
    | .ok t => some (sendPeer s src (.dowelAnswer tile id 2 (dowelRead s t idx)), 0)
    | .error stale => some (countRefused s pp rank stale, 1)
  | .dowelAnswer tile id kind v =>
    match kind with
    | 0 => some ({ s with wakes := s.wakes ++ [(tile, id, true)] }, 0)
    | 1 => some ({ s with wakes := s.wakes ++ [(tile, id, false)] }, 0)
    | 2 => some (dowelAnswerArrives s tile id v, 0)
    | _ => some (modTile s tile (fun x => match x.core.wait with
        | .dwait d =>
          if d.id = id then { x with core := { x.core with wait := .dwait { d with registered := false } }
                                     dwl := { x.dwl with stats := incFld x.dwl.stats 63 32 1 } }
          else x
        | _ => x), 0)
  | .write lp pp rank off data poison build _ _ _ =>
    match peerCheck s src lp pp rank build 34 with
    | .ok t =>
      if drawerBusy (tileOf s t) off then none
      else if !(transferMay (tileOf s t) off) then some (modTile s t (fun y => drawerFault y 5 off), 2)
      else some (modTile (mergeTouch s t off data.length) t (fun x => putMarked x off data (marksOf off data.length poison)), 0)
    | .error _ => some (s, 1)
  | .read lp pp rank off n build tile ch b =>
    match peerCheck s src lp pp rank build 33 with
    | .ok t =>
      if drawerBusy (tileOf s t) off then none
      else if !(transferMay (tileOf s t) off) then some (modTile s t (fun y => drawerFault y 5 off), 2)
      else
        let s1 := spadTouch s t off
        some (sendPeer s1 src (.readReply tile ch b (spadGet (tileOf s1 t) off n)
          ((wordsOf off n).map (fun w => mget false (tileOf s1 t).dr.poison w))), 0)
    | .error _ => some (s, 1)
  | .readReply .. => some (s, 0)
  | .barrier .. => some ({ s with lny := { s.lny with ctl := s.lny.ctl ++ [(src, m)] } }, 0)
  | .buildNotice .. => some ({ s with lny := { s.lny with ctl := s.lny.ctl ++ [(src, m)] } }, 0)
  | .resetNotice .. => some ({ s with lny := { s.lny with ctl := s.lny.ctl ++ [(src, m)] } }, 0)
  | .bookmatch .. => some ({ s with lny := { s.lny with ctl := s.lny.ctl ++ [(src, m)] } }, 0)
  | .mctp dst .. => some (if dst = s.lny.slot then s else { s with lny := { s.lny with ctl := s.lny.ctl ++ [(src, m)] } }, 0)

/-- The receiver's window of a stream. -/
def lrxOf (s : Dev) (src : Nat) : LRx := mget LRx.reset s.lny.rx src
/-- Write it. -/
def setLrx (s : Dev) (src : Nat) (r : LRx) : Dev := { s with lny := { s.lny with rx := mset LRx.reset s.lny.rx src r } }

/-- Acknowledge what has been performed (R586). -/
def ackBack (s : Dev) (src : Nat) : Dev :=
  send s (.lenysAck src ((lrxOf s src).expect - 1) (lrxOf s src).refs s.lny.inc false)

/-- R585 for a message of this part's own slot; none while it cannot be performed yet. -/
def acceptMsg (s : Dev) (m : StreamMsg) : Option Dev :=
  if m.dinc ≠ s.lny.inc then some (send s (.lenysAck m.src 0 [] s.lny.inc true))
  else
    let s0 := learnInc s m.src m.inc
    let r := lrxOf s0 m.src
    if m.seq = r.expect then
      match performMsg s0 m.src m.m with
      | some (s1, st) =>
        let r1 := lrxOf s1 m.src
        let refs := if st = 0 then r1.refs else r1.refs ++ [(m.seq, st)]
        some (ackBack (setLrx s1 m.src { r1 with
          expect := r1.expect + 1, refs := refs.filter (fun e => decide ((m.seq - e.1).toNat < 4096)) }) m.src)
      | none => none
    else if (m.seq - r.expect).toNat < 2 ^ 31 then some s0
    else some (ackBack { s0 with lny := { s0.lny with e2e := incFld s0.lny.e2e 31 16 1 } } m.src)

/-- R585, R579: the oldest delivered message of a source slot is forwarded, or judged and performed. -/
def execE2eReceive (src : TileId) (sys : State) : Host.Outcome State Fault Refusal := onDev sys fun s =>
  match s.lny.inbox.find? (fun m => m.src == src.val) with
    | some m =>
      let s1 := { s with lny := { s.lny with inbox := s.lny.inbox.erase m } }
      if m.dst ≠ s.lny.slot then onLink s1 m
      else match acceptMsg s1 m with | some s2 => s2 | none => s
    | none => s

/-- Take the oldest waiting message that satisfies a test. -/
def takeCtl (s : Dev) (f : Nat × PeerMsg → Bool) : Option ((Nat × PeerMsg) × Dev) :=
  (s.lny.ctl.find? f).map (fun e => (e, { s with lny := { s.lny with ctl := s.lny.ctl.erase e } }))

/-- Running descriptors that name a withdrawn binding fail with LINK (R593, R420). -/
def failBound (s : Dev) (p slot : Nat) : Dev :=
  (membersOf (partSt s p)).foldl (fun s t =>
    [0, 1, 2, 3].foldl (fun s ch =>
      let c := chanOf (tileOf s t) ch
      match c.run with
      | some d =>
        if (c.st == 1 || c.st == 2) && ((dDkind d == 2 && dDpart d == slot) || (dSkind d == 2 && dSpart d == slot)) then
          teFail s t ch 0x44 (rowAddr d (dDkind d == 2) c.done 0)
        else s
      | none => s) s) s

/-- R593: a build notice makes the matching bindings stale. -/
def execBuildNotice (sys : State) : Host.Outcome State Fault Refusal := onDev sys fun s =>
  match takeCtl s (fun e => match e.2 with | .buildNotice .. => true | _ => false) with
    | some ((src, .buildNotice part _), s1) =>
      let hits := (List.range 2048).filter (fun i => let w := bindW s1 i 0
        bit w 0 && decide (fld w 16 9 = src) && decide (fld w 23 17 = part))
      hits.foldl (fun s i =>
        let w := bindW s i 0
        failBound (ioSet s (bindBase + 0x10 * i) (setBit w 1 true)) (fld w 8 2) src) s1
    | _ => s

/-! ### Cabinet barriers (R595, R596) -/

/-- Is a message a barrier message of a kind? -/
def isBarrier (kinds : List Nat) (e : Nat × PeerMsg) : Bool :=
  match e.2 with | .barrier k .. => kinds.contains k | _ => false

/-- R595: the root records a member's arrive whose values match. -/
def execBarrierArriveAtRoot (sys : State) : Host.Outcome State Fault Refusal := onDev sys fun s =>
  match takeCtl s (isBarrier [0]) with
    | some ((src, .barrier _ g gen aborts inc), s1) =>
      let q := grpOf s1 g
      if q.valid && grpRoot q == s1.lny.slot && (grpMembers q).contains src && gen == q.gen && aborts == q.aborts &&
          inc == s1.lny.inc then rootArrive s1 g src
      else s1
    | _ => s

/-- R595, R596: a member acts on a release or a broken release of its root. -/
def execBarrierRelease (sys : State) : Host.Outcome State Fault Refusal := onDev sys fun s =>
  match takeCtl s (isBarrier [1, 2]) with
    | some ((src, .barrier kind g gen aborts _), s1) =>
      let q := grpOf s1 g
      if !q.valid || grpRoot q != src then s1
      else if kind = 2 then memberBroken s1 g aborts q.aborting
      else if gen = q.gen ∧ aborts = q.aborts then memberRelease s1 g
      else s1
    | _ => s

/-- R596: the root acts on a member's abort. -/
def execBarrierAbort (sys : State) : Host.Outcome State Fault Refusal := onDev sys fun s =>
  match takeCtl s (isBarrier [3]) with
    | some ((src, .barrier _ g _ _ _), s1) =>
      let q := grpOf s1 g
      if q.valid && grpRoot q == s1.lny.slot && (grpMembers q).contains src then rootAbort s1 g false else s1
    | _ => s

/-- R589, R757: a reset notice makes the sender's new incarnation take effect at once. -/
def execResetNotice (sys : State) : Host.Outcome State Fault Refusal := onDev sys fun s =>
  match takeCtl s (fun e => match e.2 with | .resetNotice .. => true | _ => false) with
    | some ((src, .resetNotice inc), s1) => learnInc s1 src (inc + 1)
    | _ => s

/-! ### Cabinet time (R598 to R600) -/

/-- The hops between two slots (R598). -/
def hopCount (a b : Nat) : Nat :=
  ((List.range 3).map (fun d => let n := ringSize d
    let k := (slotCoord d b + n - slotCoord d a) % n
    min k (n - k))).foldl (· + ·) 0

/-- Is there a path to the parent (R598, R600)? -/
def parentPath (s : Dev) : Bool := !(hopPorts s s.lny.slot s.lny.master).isEmpty

/-- R599, R600: an exchange with the parent: the first loads the counter, later ones only measure. (log entry 48, DESIGN CHOICE) -/
def execTimeExchange (off : BitVec 16) (now : Word) (sys : State) : Host.Outcome State Fault Refusal := onDev sys fun s =>
  if s.lny.master = s.lny.slot ∨ !(parentPath s) then s
    else
      let s1 := { s with lny := { s.lny with
        offset := off.toNat, depth := hopCount s.lny.slot s.lny.master, holdover := false } }
      if s.timeValid then s1 else loadTime s1 now.toNat

/-- R600: every path to the parent is lost; the counter goes on by its own clock. -/
def execHoldover (sys : State) : Host.Outcome State Fault Refusal := onDev sys fun s =>
  if s.lny.master ≠ s.lny.slot ∧ !(parentPath s) then { s with lny := { s.lny with holdover := true } } else s

end Sys2Proof.Machine
end

