-- ==== Sys2Proof/Machine/Scalar.lean ====
section
/-! DEFINITION. The meanings of the scalar integer, predicate, branch and floating instructions (ch. 5, ch. 6). -/

namespace Sys2Proof.Machine
open Sys2Proof

/-! ### Integer (R230, R231, R233) -/

/-- R230: ALU, occupancy 1. -/
def execAlu (t : TileId) (gu : Guard) (rd ra rb : RegNo) (fn : Fin 64) (sys : State) : Host.Outcome State Fault Refusal := onDev sys fun s =>
  issueT s t gu 4 1 (aluIllegal fn rb) (fun x => setG x rd (aluOp fn (getG x ra) (getG x rb)))

/-- R231: gd := ga + sext(IMM11). -/
def execAddi (t : TileId) (gu : Guard) (rd ra : RegNo) (imm : BitVec 11) (sys : State) : Host.Outcome State Fault Refusal := onDev sys fun s =>
  issueT s t gu 4 1 false (fun x => setG x rd (getG x ra + imm.signExtend 64))

/-- R231: gd := ga AND sext(IMM11). -/
def execAndi (t : TileId) (gu : Guard) (rd ra : RegNo) (imm : BitVec 11) (sys : State) : Host.Outcome State Fault Refusal := onDev sys fun s =>
  issueT s t gu 4 1 false (fun x => setG x rd (getG x ra &&& imm.signExtend 64))

/-- R231: gd := ga OR sext(IMM11). -/
def execOri (t : TileId) (gu : Guard) (rd ra : RegNo) (imm : BitVec 11) (sys : State) : Host.Outcome State Fault Refusal := onDev sys fun s =>
  issueT s t gu 4 1 false (fun x => setG x rd (getG x ra ||| imm.signExtend 64))

/-- R231: gd := ga XOR sext(IMM11). -/
def execXori (t : TileId) (gu : Guard) (rd ra : RegNo) (imm : BitVec 11) (sys : State) : Host.Outcome State Fault Refusal := onDev sys fun s =>
  issueT s t gu 4 1 false (fun x => setG x rd (getG x ra ^^^ imm.signExtend 64))

/-- R231: a shift by SHAMT; KIND 3 is reserved and `.w` requires SHAMT[5] to be 0. -/
def execShifti (t : TileId) (gu : Guard) (rd ra : RegNo) (kind : Fin 4) (w : Bool) (shamt : Fin 64) (sys : State) :
    Host.Outcome State Fault Refusal := onDev sys fun s =>
  issueT s t gu 4 1 (kind.val == 3 || (w && decide (32 ≤ shamt.val)))
    (fun x => setG x rd (shiftOp kind w (getG x ra) shamt))

/-- R232, R189: signed product, L = 4. -/
def execMul (t : TileId) (gu : Guard) (ra rb : RegNo) (sys : State) : Host.Outcome State Fault Refusal := onDev sys fun s =>
  issueT s t gu 4 1 false (fun x => let p := mulOp true (getG x ra) (getG x rb); pendProd x p.1 p.2 4)

/-- R232, R189: unsigned product, L = 4. -/
def execMulh (t : TileId) (gu : Guard) (ra rb : RegNo) (sys : State) : Host.Outcome State Fault Refusal := onDev sys fun s =>
  issueT s t gu 4 1 false (fun x => let p := mulOp false (getG x ra) (getG x rb); pendProd x p.1 p.2 4)

/-- R191, R189: signed 64-bit divide, L = 34. -/
def execDiv (t : TileId) (gu : Guard) (ra rb : RegNo) (sys : State) : Host.Outcome State Fault Refusal := onDev sys fun s =>
  issueT s t gu 4 1 false (fun x => let p := divOp true 64 (getG x ra) (getG x rb); pendProd x p.1 p.2 34)

/-- R191, R189: unsigned 64-bit divide, L = 34. -/
def execDivu (t : TileId) (gu : Guard) (ra rb : RegNo) (sys : State) : Host.Outcome State Fault Refusal := onDev sys fun s =>
  issueT s t gu 4 1 false (fun x => let p := divOp false 64 (getG x ra) (getG x rb); pendProd x p.1 p.2 34)

/-- R191, R189: signed 32-bit divide with sign-extended results, L = 18. -/
def execDivW (t : TileId) (gu : Guard) (ra rb : RegNo) (sys : State) : Host.Outcome State Fault Refusal := onDev sys fun s =>
  issueT s t gu 4 1 false (fun x => let p := divOp true 32 (getG x ra) (getG x rb); pendProd x p.1 p.2 18)

/-- R191, R189: unsigned 32-bit divide with zero-extended results, L = 18. -/
def execDivuW (t : TileId) (gu : Guard) (ra rb : RegNo) (sys : State) : Host.Outcome State Fault Refusal := onDev sys fun s =>
  issueT s t gu 4 1 false (fun x => let p := divOp false 32 (getG x ra) (getG x rb); pendProd x p.1 p.2 18)

/-- The core passes bubbles up to a slot, and what is due there lands (log entry 12, DEDUCED). -/
def passTo (t : Tile) (slot : Nat) : Tile :=
  landDue { t with core := passSlots t.core (slot - t.core.slot) }

/-- R189: the product in flight writes PLO and PHI in slot s + L. -/
def execProductLands (t : TileId) (sys : State) : Host.Outcome State Fault Refusal := onDev sys fun s =>
  let x := tileOf s t
  match x.core.prod with
    | some p => if canIssue x then setTile s t (passTo x p.due) else s
    | none => s

/-- R186: the oldest pending load writes its destination in slot s + 3. -/
def execLoadLands (t : TileId) (sys : State) : Host.Outcome State Fault Refusal := onDev sys fun s =>
  let x := tileOf s t
  match x.core.loads with
    | l :: _ => if canIssue x then setTile s t (passTo x l.due) else s
    | [] => s

/-- R233: gd := sext(IMM32). -/
def execLi (t : TileId) (gu : Guard) (rd : RegNo) (imm : BitVec 32) (sys : State) : Host.Outcome State Fault Refusal := onDev sys fun s =>
  issueT s t gu 8 1 false (fun x => setG x rd (imm.signExtend 64))

/-- R233: gd[63:32] := IMM32, the low half unchanged. -/
def execLih (t : TileId) (gu : Guard) (rd : RegNo) (imm : BitVec 32) (sys : State) : Host.Outcome State Fault Refusal := onDev sys fun s =>
  issueT s t gu 8 1 false (fun x => setG x rd (imm ++ lo32 (getG x rd)))

/-- R233: add, and, or, xor with sext(IMM32), LOP 0x02 to 0x05. -/
def execLongAlu (t : TileId) (gu : Guard) (op : Fin 4) (rd ra : RegNo) (imm : BitVec 32) (sys : State) :
    Host.Outcome State Fault Refusal := onDev sys fun s =>
  issueT s t gu 8 1 false (fun x =>
    setG x rd (aluOp (match op.val with | 0 => 0 | 1 => 2 | 2 => 3 | _ => 4) (getG x ra) (imm.signExtend 64)))

/-! ### Compares and predicates (R234, R235) -/

/-- R234: pd := ga CC gb; CC 8 to 15 are reserved. -/
def execCmp (t : TileId) (gu : Guard) (pd : PredNo) (ra rb : RegNo) (cc : Fin 16) (sys : State) :
    Host.Outcome State Fault Refusal := onDev sys fun s =>
  issueT s t gu 4 1 (decide (8 ≤ cc.val)) (fun x => setP x pd (condOp cc (getG x ra) (getG x rb)))

/-- R234: pd := ga CC sext(IMM8). -/
def execCmpi (t : TileId) (gu : Guard) (pd : PredNo) (ra : RegNo) (cc : Fin 16) (imm : BitVec 8) (sys : State) :
    Host.Outcome State Fault Refusal := onDev sys fun s =>
  issueT s t gu 4 1 (decide (8 ≤ cc.val)) (fun x => setP x pd (condOp cc (getG x ra) (imm.signExtend 64)))

/-- R235: pd from pa and pb; FN 6 and 7 are reserved. -/
def execPlogic (t : TileId) (gu : Guard) (pd pa pb : PredNo) (fn : Fin 8) (sys : State) : Host.Outcome State Fault Refusal := onDev sys fun s =>
  issueT s t gu 4 1 (decide (6 ≤ fn.val)) (fun x => setP x pd (plogicOp fn (getP x pa) (getP x pb)))

/-- R241: gd[15:0] := p15 to p0 with p0 as 1. -/
def execMfpr (t : TileId) (gu : Guard) (rd : RegNo) (sys : State) : Host.Outcome State Fault Refusal := onDev sys fun s =>
  issueT s t gu 4 1 false (fun x => setG x rd ((x.core.p ||| 1).zeroExtend 64))

/-- The predicates from 1 to 15 written from the bits of a word (R241). -/
def setPreds (w : Word) : (n : Nat) → Tile → Tile
  | 0, x => x
  | n + 1, x => setP (setPreds w n x) n (bit w n)

/-- R241: p1 to p15 := ga[15:1]; ga[0] is ignored. -/
def execMtpr (t : TileId) (gu : Guard) (ra : RegNo) (sys : State) : Host.Outcome State Fault Refusal := onDev sys fun s =>
  issueT s t gu 4 1 false (fun x => setPreds (getG x ra) 16 x)

/-! ### Branches (R239, R183) -/

/-- The target of BR and CALL. -/
def branchTarget (x : Tile) (disp : BitVec 21) : Word := x.core.pc + 4 * disp.signExtend 64

/-- R239: branch. -/
def execBr (t : TileId) (gu : Guard) (disp : BitVec 21) (sys : State) : Host.Outcome State Fault Refusal := onDev sys fun s =>
  issue s t gu 4 (fun _ => false) (fun x => .jump s x (branchTarget x disp))

/-- R239: branch and g31 := PC + 4. -/
def execCall (t : TileId) (gu : Guard) (disp : BitVec 21) (sys : State) : Host.Outcome State Fault Refusal := onDev sys fun s =>
  issue s t gu 4 (fun _ => false) (fun x => .jump s (setG x 31 (x.core.pc + 4)) (branchTarget x disp))

/-- R239: branch to ga, read before gd is written; a target that is no multiple of 4 raises IALIGN (R183). -/
def execJump (t : TileId) (gu : Guard) (rd ra : RegNo) (sys : State) : Host.Outcome State Fault Refusal := onDev sys fun s =>
  issue s t gu 4 (fun _ => false) (fun x =>
    if (getG x ra).toNat % 4 ≠ 0 then .exc 3 0 0
    else .jump s (setG x rd (x.core.pc + 4)) (getG x ra))

/-! ### System (R240) -/

/-- R240: no operation. -/
def execNop (t : TileId) (gu : Guard) (sys : State) : Host.Outcome State Fault Refusal := onDev sys fun s =>
  issueT s t gu 4 1 false id

/-- R240, R205: raises SYS. -/
def execSys (t : TileId) (gu : Guard) (sys : State) : Host.Outcome State Fault Refusal := onDev sys fun s =>
  issue s t gu 4 (fun _ => false) (fun _ => .exc 9 0 0)

/-- R240, R205: raises BREAK. -/
def execBrk (t : TileId) (gu : Guard) (sys : State) : Host.Outcome State Fault Refusal := onDev sys fun s =>
  issue s t gu 4 (fun _ => false) (fun _ => .exc 10 0 0)

/-- R205: return; in user mode it raises PRIV (R203). -/
def execEret (t : TileId) (gu : Guard) (sys : State) : Host.Outcome State Fault Refusal := onDev sys fun s =>
  issue s t gu 4 (fun _ => false) (fun x =>
    if isUser x then .exc 2 0 0 else .raw s (returnException x))

/-- R201: waits for the store buffer, flushes the prefetch queue, costs three bubbles. -/
def execIsync (t : TileId) (gu : Guard) (sys : State) : Host.Outcome State Fault Refusal := onDev sys fun s =>
  issue s t gu 4 (fun _ => false) (fun x =>
    if storesDrained x then .jump s x (x.core.pc + 4) else stallPlain s x)

/-- R228, R227: a reserved encoding raises ILLEGAL precisely, whatever its guard; `long` is major 0x3E or 0x3F. -/
def execIllegalInstruction (t : TileId) (gu : Guard) (long : Bool) (sys : State) : Host.Outcome State Fault Refusal := onDev sys fun s =>
  issue s t gu (if long then 8 else 4) (fun _ => true) (fun x => .done s x 1)

/-! ### Scalar floating point (R242 to R244) -/

/-- R243: fadd, occupancy 4. -/
def execFadd (t : TileId) (gu : Guard) (single : Bool) (rd ra rb : RegNo) (sys : State) : Host.Outcome State Fault Refusal := onDev sys fun s =>
  issueT s t gu 4 4 false (fpBin faddOp single rd ra rb)

/-- R243: fsub, occupancy 4. -/
def execFsub (t : TileId) (gu : Guard) (single : Bool) (rd ra rb : RegNo) (sys : State) : Host.Outcome State Fault Refusal := onDev sys fun s =>
  issueT s t gu 4 4 false (fpBin fsubOp single rd ra rb)

/-- R243: fmul, occupancy 4. -/
def execFmul (t : TileId) (gu : Guard) (single : Bool) (rd ra rb : RegNo) (sys : State) : Host.Outcome State Fault Refusal := onDev sys fun s =>
  issueT s t gu 4 4 false (fpBin fmulOp single rd ra rb)

/-- R243: fdiv, occupancy 22 or 12. -/
def execFdiv (t : TileId) (gu : Guard) (single : Bool) (rd ra rb : RegNo) (sys : State) : Host.Outcome State Fault Refusal := onDev sys fun s =>
  issueT s t gu 4 (fdivOcc single) false (fpBin fdivOp single rd ra rb)

/-- R243: fsqrt, occupancy 26 or 14. -/
def execFsqrt (t : TileId) (gu : Guard) (single : Bool) (rd ra : RegNo) (sys : State) : Host.Outcome State Fault Refusal := onDev sys fun s =>
  issueT s t gu 4 (fsqrtOcc single) false (fun x =>
    setFp x rd (fsqrtOp (fmtOf single) (rmOf x) (fpArg single (getG x ra))))

/-- R243: minimumNumber. -/
def execFmin (t : TileId) (gu : Guard) (single : Bool) (rd ra rb : RegNo) (sys : State) : Host.Outcome State Fault Refusal := onDev sys fun s =>
  issueT s t gu 4 1 false (fpBin (fun f _ a b => fminmaxOp f false a b) single rd ra rb)

/-- R243: maximumNumber. -/
def execFmax (t : TileId) (gu : Guard) (single : Bool) (rd ra rb : RegNo) (sys : State) : Host.Outcome State Fault Refusal := onDev sys fun s =>
  issueT s t gu 4 1 false (fpBin (fun f _ a b => fminmaxOp f true a b) single rd ra rb)

/-- R243: sign cleared; no flag. -/
def execFabs (t : TileId) (gu : Guard) (single : Bool) (rd ra : RegNo) (sys : State) : Host.Outcome State Fault Refusal := onDev sys fun s =>
  issueT s t gu 4 1 false (fun x =>
    setG x rd (BitVec.ofNat 64 (fpArg single (getG x ra) % 2 ^ (if single then 31 else 63))))

/-- R243: sign inverted; no flag. -/
def execFneg (t : TileId) (gu : Guard) (single : Bool) (rd ra : RegNo) (sys : State) : Host.Outcome State Fault Refusal := onDev sys fun s =>
  issueT s t gu 4 1 false (fun x =>
    setG x rd (BitVec.ofNat 64 (fpArg single (getG x ra)) ^^^ (1 <<< (if single then 31 else 63))))

/-- R243: conversion from the other precision. -/
def execFcvt (t : TileId) (gu : Guard) (single : Bool) (rd ra : RegNo) (sys : State) : Host.Outcome State Fault Refusal := onDev sys fun s =>
  issueT s t gu 4 2 false (fun x =>
    setFp x rd (fcvtOp (fmtOf (!single)) (fmtOf single) (rmOf x) (fpArg (!single) (getG x ra))))

/-- R243: to a signed 64-bit integer. -/
def execFcvtL (t : TileId) (gu : Guard) (single : Bool) (rd ra : RegNo) (sys : State) : Host.Outcome State Fault Refusal := onDev sys fun s =>
  issueT s t gu 4 2 false (fpToInt true single rd ra)

/-- R243: from a signed 64-bit integer. -/
def execFcvtFL (t : TileId) (gu : Guard) (single : Bool) (rd ra : RegNo) (sys : State) : Host.Outcome State Fault Refusal := onDev sys fun s =>
  issueT s t gu 4 2 false (fun x => setFp x rd (fofInt (fmtOf single) (rmOf x) (getG x ra).toInt))

/-- R243: to an unsigned 64-bit integer. -/
def execFcvtLu (t : TileId) (gu : Guard) (single : Bool) (rd ra : RegNo) (sys : State) : Host.Outcome State Fault Refusal := onDev sys fun s =>
  issueT s t gu 4 2 false (fpToInt false single rd ra)

/-- R243: from an unsigned 64-bit integer. -/
def execFcvtFLu (t : TileId) (gu : Guard) (single : Bool) (rd ra : RegNo) (sys : State) : Host.Outcome State Fault Refusal := onDev sys fun s =>
  issueT s t gu 4 2 false (fun x => setFp x rd (fofInt (fmtOf single) (rmOf x) (getG x ra).toNat))

/-- R243: one-hot class. -/
def execFclass (t : TileId) (gu : Guard) (single : Bool) (rd ra : RegNo) (sys : State) : Host.Outcome State Fault Refusal := onDev sys fun s =>
  issueT s t gu 4 1 false (fun x =>
    setG x rd (BitVec.ofNat 64 (fclassOp (fmtOf single) (fpArg single (getG x ra)))))

/-- R244: ga × gb + gc with one rounding, occupancy 4. -/
def execFma (t : TileId) (gu : Guard) (single : Bool) (rd ra rb rc : RegNo) (sys : State) : Host.Outcome State Fault Refusal := onDev sys fun s =>
  issueT s t gu 4 4 false (fun x =>
    setFp x rd (fmaOp (fmtOf single) (rmOf x) (fpArg single (getG x ra)) (fpArg single (getG x rb))
      (fpArg single (getG x rc))))

/-- R244: a floating compare sets pd; CC 4 to 15 are reserved. -/
def execFcmp (t : TileId) (gu : Guard) (single : Bool) (pd : PredNo) (ra rb : RegNo) (cc : Fin 16) (sys : State) :
    Host.Outcome State Fault Refusal := onDev sys fun s =>
  issueT s t gu 4 1 (decide (4 ≤ cc.val)) (fun x =>
    let r := fcompare (fmtOf single) cc (fpArg single (getG x ra)) (fpArg single (getG x rb))
    accrueF (setP x pd r.1) r.2)

/-! ### Fetch, interrupts and core control (R182, R207, R215 to R218) -/

/-- What the error code found in a fetch word read from the instruction store (R213). -/
def istoreWord (x : Tile) (a : Nat) : Word := BitVec.ofNat 64 (leNat (mbytes 0 x.istore a 8))

/-- R207: the timer source is pending while `ctime`, which reads 0 until cabinet time is valid, is `tcmp` or later. -/
def timerDue (s : Dev) (t : Nat) (x : Tile) : Bool := decide (x.core.tcmp.toNat ≤ ctimeOf s t)

/-- R207: `ctime` has reached `tcmp`, so `ipend`[0] is set. -/
def execTimerInterruptPending (t : TileId) (sys : State) : Host.Outcome State Fault Refusal := onDev sys fun s =>
  let x := tileOf s t
  if timerDue s t x then setTile s t { x with core := { x.core with ipend := setBit x.core.ipend 0 true } } else s

/-- R207: the management controller asks the tile monitor to stop the partition. -/
def execQuiesceInterrupt (t : TileId) (sys : State) : Host.Outcome State Fault Refusal := onDev sys fun s =>
  modTile s t (fun x => { x with core := { x.core with ipend := setBit x.core.ipend 2 true } })

/-- R215: MSG is copied to `mbox` and `ipend`[1] is set. -/
def execTcbDoorbell (t : TileId) (msg : BitVec 32) (sys : State) : Host.Outcome State Fault Refusal := onDev sys fun s =>
  modTile s t (fun x => { x with core := { x.core with
    mbox := msg.zeroExtend 64, ipend := setBit x.core.ipend 1 true } })

/-- R215: RUN := 1; a halted core resumes at TCB_CORE_PC. -/
def execCoreResume (t : TileId) (sys : State) : Host.Outcome State Fault Refusal := onDev sys fun s =>
  modTile s t (fun x => if x.core.halted then resumeCore x else { x with core := { x.core with run := true } })

end Sys2Proof.Machine
end

