-- ==== Sys2Proof/Machine/Spindle.lean ====
section
/-! DEFINITION. Spindle mode (R277 to R289): the spindles' registers, the scalar instructions a spindle executes, its
own three, and entry, exit and the forced stop. -/

namespace Sys2Proof.Machine
open Sys2Proof

/-! ### Registers (R277, R278) -/

/-- t register `r` of a spindle: t0 reads zero. -/
def getT (x : Tile) (lane r : Nat) : Word :=
  if r = 0 then 0 else BitVec.ofNat 64 (elem (getV x (r / 8)) 64 (32 * (r % 8) + lane))

/-- One chunk of a vector register. -/
def setChunk (v : LvWord) (k : Nat) (w : Word) : LvWord :=
  (v &&& ~~~((0xFFFFFFFFFFFFFFFF : LvWord) <<< (64 * k))) ||| (w.zeroExtend 16384 <<< (64 * k))

/-- Write a t register; a write to t0 is discarded. -/
def setT (x : Tile) (lane r : Nat) (w : Word) : Tile :=
  if r = 0 then x
  else { x with lvu := { x.lvu with v := mmod 0 x.lvu.v (r / 8) (fun v => setChunk v (32 * (r % 8) + lane) w) } }

/-- A q predicate: q0 reads true. -/
def getQ (x : Tile) (lane q : Nat) : Bool := q == 0 || (getVm x q).getLsbD lane

/-- Write a q predicate; a write to q0 is discarded. -/
def setQ (x : Tile) (lane q : Nat) (b : Bool) : Tile :=
  if q = 0 then x
  else
    let m : LvMask := (1 : LvMask) <<< lane
    { x with lvu := { x.lvu with vm := mmod 0 x.lvu.vm q (fun v => if b then v ||| m else v &&& ~~~m) } }

/-- Write a spindle's state. -/
def setLane (x : Tile) (l : Nat) (z : SpinSt) : Tile :=
  { x with lvu := { x.lvu with lanes := mset SpinSt.reset x.lvu.lanes l z } }

/-- Does a spindle run (R284)? -/
def laneRuns (x : Tile) (l : Nat) : Bool := x.lvu.spin && (laneOf x l).st == 4

/-- The context a spindle's accesses are charged to. -/
def spinCtx (x : Tile) : Option Nat := some x.lvu.capCtx

/-- A spindle's floating flags wait for the exit (R281). -/
def accrueSp (x : Tile) (flags : Nat) : Tile := { x with lvu := { x.lvu with flags := x.lvu.flags ||| flags } }

/-- Fold a spindle's store into its own digest (R659). -/
def foldSpin (x : Tile) (lane : Nat) (r : FoldRec) : Tile :=
  if x.dig.armed && x.lvu.capUser then
    { x with dig := keepStore { x.dig with spin := mmod crcInit x.dig.spin lane (fun c => crc64 c (foldBytes r)) } r }
  else x

/-! ### How a spindle's instruction ends -/

/-- The end of a spindle's instruction. -/
inductive SpRes where
  /-- done: the next instruction follows -/
  | next (s : Dev)
  /-- a taken branch -/
  | jump (s : Dev) (pc : Nat)
  /-- a fault of R204's codes -/
  | fault (s : Dev) (code : Nat)
  | halt (s : Dev)
  /-- the access waits: the same instruction issues again -/
  | wait (s : Dev)

/-- R281: a spindle faults and halts; error 0x05 of R276 is raised if no error of the unit is recorded. -/
def spinFault (s : Dev) (t lane code : Nat) : Dev :=
  let x := tileOf s t
  let z := laneOf x lane
  let s1 := setTile s t (setLane x lane ⟨z.pc, 2, code⟩)
  if lvDropping x then s1 else lvError s1 t 5 (lane + 32 * code + 2 ^ 13 * (z.pc % 2 ^ 14)) (spinCtx x)

/-- Take the end of an instruction of `size` bytes. -/
def spinFinish (t lane size : Nat) : SpRes → Dev
  | .next s => modTile s t (fun x => setLane x lane { laneOf x lane with pc := ((laneOf x lane).pc + size) % 2 ^ 64 })
  | .jump s pc => modTile s t (fun x => setLane x lane { laneOf x lane with pc := pc })
  | .fault s code => spinFault s t lane code
  | .halt s => modTile s t (fun x => setLane x lane { laneOf x lane with
      st := 1, pc := ((laneOf x lane).pc + size) % 2 ^ 64 })
  | .wait s => s

/-- Run one instruction of a running spindle: the PC checks of R282, reserved encodings, the guard, the work. -/
def spinRun (s : Dev) (t lane size : Nat) (neg : Bool) (pred : Nat) (illegal : Bool) (body : Tile → SpRes) : Dev :=
  let x := tileOf s t
  if s.hold || !(laneRuns x lane) then s
  else
    let pc := (laneOf x lane).pc
    spinFinish t lane size
      (if 0x4000 ≤ pc then .fault s 4
       else if pc % size ≠ 0 ∨ pc % 4 ≠ 0 then .fault s 3
       else if illegal || decide (8 ≤ pred) then .fault s 1
       else if getQ x lane pred == neg then .next s
       else body x)

/-! ### Accesses (R281) -/

/-- The spindle's load of place `op`. -/
def spinLoad (s : Dev) (t lane op rd va : Nat) (x : Tile) : SpRes :=
  let n := loadSize op
  if 8 < va % 8 + n then .fault s 5
  else
    match vecAccess s (.spindle t lane) t x.lvu.capUser x.lvu.capCtx 0 va n 2 with
    | (s1, .ok off) =>
      let s2 := spadTouch s1 t off
      let y := tileOf s2 t
      if spadPoisoned y off n then .fault (tileErr s2 t 0x1003 1 (spinCtx x) va 0) 8
      else .next (setTile s2 t (setT y lane rd (loadExt op (leNat (spadGet y off n)))))
    | (s1, .fail c) => .fault s1 (if c = 2 then 6 else 7)
    | (s1, _) => .wait s1

/-- The spindle's store of place `op`. -/
def spinStore (s : Dev) (t lane op rs va : Nat) (x : Tile) : SpRes :=
  let n := storeSize op
  if 8 < va % 8 + n then .fault s 5
  else
    match vecAccess s (.spindle t lane) t x.lvu.capUser x.lvu.capCtx 1 va n 2 with
    | (s1, .ok off) =>
      let v := (getT x lane rs).toNat % 2 ^ (8 * n)
      let y := spadPut (tileOf s1 t) off (leBytes n v)
      .next (setTile s1 t (foldSpin y lane
        ⟨5, (2 ^ n - 1) * 2 ^ (va % 8), va / 8 * 8, BitVec.ofNat 64 (v * 2 ^ (8 * (va % 8)))⟩))
    | (s1, .fail c) => .fault s1 (if c = 2 then 6 else 7)
    | (s1, _) => .wait s1

/-! ### Its own three functions (R280) -/

/-- `sphalt`. -/
def spinHalt (s : Dev) (_ : Tile) : SpRes := .halt s
/-- `sid td`. -/
def spinId (s : Dev) (t lane td : Nat) (x : Tile) : SpRes := .next (setTile s t (setT x lane td (BitVec.ofNat 64 lane)))
/-- `sparrive ta`: an ARRIVE of 1 at the tile's own dowel ta[8:0]; every earlier store has been performed. -/
def spinArrive (s : Dev) (t lane ta : Nat) (x : Tile) : SpRes :=
  .next (sendDowel s (.spindle t) (buildOf s t) t (fld (getT x lane ta) 8 0) 0 1 none)

/-! ### The scalar subset (R279) -/

/-- An instruction that writes one t register. -/
def spT (s : Dev) (t lane rd : Nat) (v : Word) (x : Tile) : SpRes := .next (setTile s t (setT x lane rd v))

/-- A floating function that writes one t register and accrues flags. -/
def spF (s : Dev) (t lane rd : Nat) (r : Nat × Nat) (x : Tile) : SpRes :=
  .next (setTile s t (accrueSp (setT x lane rd (BitVec.ofNat 64 r.1)) r.2))

/-- A decoded instruction of the stream: bytes, whether it is reserved, what it does. -/
structure SpDec where
  size : Nat
  illegal : Bool
  body : Tile → SpRes

/-- The FP functions a spindle has (R243, R279): all but `fdiv` and `fsqrt`. -/
def spFp (s : Dev) (t lane rd ra rb fn : Nat) (single : Bool) (x : Tile) : SpRes :=
  let f := fmtOf single
  let rm := x.lvu.capRm
  let a := fpArg single (getT x lane ra)
  let b := fpArg single (getT x lane rb)
  let w := getT x lane ra
  match fn with
  | 0 => spF s t lane rd (faddOp f rm a b) x
  | 1 => spF s t lane rd (fsubOp f rm a b) x
  | 2 => spF s t lane rd (fmulOp f rm a b) x
  | 5 => spF s t lane rd (fminmaxOp f false a b) x
  | 6 => spF s t lane rd (fminmaxOp f true a b) x
  | 7 => spF s t lane rd (a % 2 ^ (if single then 31 else 63), 0) x
  | 8 => spF s t lane rd (a ^^^ 2 ^ (if single then 31 else 63), 0) x
  | 9 => spF s t lane rd (fcvtOp (fmtOf (!single)) f rm (fpArg (!single) w)) x
  | 10 => let r := ftoInt f rm a (-(2 ^ 63)) (2 ^ 63 - 1); spF s t lane rd (ofSigned 64 r.1, r.2) x
  | 11 => spF s t lane rd (fofInt f rm w.toInt) x
  | 12 => let r := ftoInt f rm a 0 (2 ^ 64 - 1); spF s t lane rd (ofSigned 64 r.1, r.2) x
  | 13 => spF s t lane rd (fofInt f rm w.toNat) x
  | _ => spF s t lane rd (fclassOp f a, 0) x

/-- Is an FP function outside a spindle's subset? Unary forms require RB to be zero. -/
def spFpIllegal (fn rb : Nat) : Bool :=
  fn == 3 || fn == 4 || decide (14 < fn) || (decide (7 ≤ fn) && decide (rb ≠ 0))

/-- Decode one word of the stream (R225 to R228, R279, R280); a field that no table names or marks zero is ignored (log entry
67, DEDUCED). -/
def spinDecode (s : Dev) (t lane : Nat) (w : BitVec 32) (imm32 : BitVec 32) : SpDec :=
  let op := fld w 26 21
  let rd := fld w 20 16
  let ra := fld w 15 11
  let rb := fld w 10 6
  let fn := fld w 5 0
  let imm11 := sext64 11 (fld w 10 0)
  let pd := fld w 20 17
  let ca := fld w 16 12
  let bad : SpDec := ⟨4, true, fun _ => .next s⟩
  let pcOf (x : Tile) : Nat := (laneOf x lane).pc
  let br (x : Tile) : Nat := (BitVec.ofNat 64 (pcOf x) + 4 * sext64 21 (fld w 20 0)).toNat
  let setPd (b : Tile → Bool) (fl : Tile → Nat) (x : Tile) : SpRes :=
    .next (setTile s t (accrueSp (setQ x lane pd (b x)) (fl x)))
  match op with
  | 0x01 => ⟨4, aluIllegal fn rb, fun x => spT s t lane rd (aluOp fn (getT x lane ra) (getT x lane rb)) x⟩
  | 0x02 => ⟨4, false, fun x => spT s t lane rd (getT x lane ra + imm11) x⟩
  | 0x03 => ⟨4, false, fun x => spT s t lane rd (getT x lane ra &&& imm11) x⟩
  | 0x04 => ⟨4, false, fun x => spT s t lane rd (getT x lane ra ||| imm11) x⟩
  | 0x05 => ⟨4, false, fun x => spT s t lane rd (getT x lane ra ^^^ imm11) x⟩
  | 0x06 =>
    let kind := fld w 10 9
    let wf := bit w 8
    ⟨4, kind == 3 || (wf && bit w 5) || fld w 7 6 != 0, fun x => spT s t lane rd (shiftOp kind wf (getT x lane ra) fn) x⟩
  | 0x08 =>
    let cc := fld w 6 3
    ⟨4, decide (8 ≤ cc) || fld w 2 0 != 0 || decide (8 ≤ pd),
      setPd (fun x => condOp cc (getT x lane ca) (getT x lane (fld w 11 7))) (fun _ => 0)⟩
  | 0x09 =>
    let cc := fld w 11 8
    ⟨4, decide (8 ≤ cc) || decide (8 ≤ pd), setPd (fun x => condOp cc (getT x lane ca) (sext64 8 (fld w 7 0))) (fun _ => 0)⟩
  | 0x0A =>
    let pa := fld w 16 13
    let pb := fld w 12 9
    let k := fld w 8 6
    ⟨4, decide (6 ≤ k) || fld w 5 0 != 0 || decide (8 ≤ pd) || decide (8 ≤ pa) || decide (8 ≤ pb),
      setPd (fun x => plogicOp k (getQ x lane pa) (getQ x lane pb)) (fun _ => 0)⟩
  | 0x0C => ⟨4, false, fun x => .jump s (br x)⟩
  | 0x0D => ⟨4, false, fun x => .jump (setTile s t (setT x lane 31 (BitVec.ofNat 64 (pcOf x + 4)))) (br x)⟩
  | 0x0E => ⟨4, fld w 10 0 != 0, fun x =>
      let target := (getT x lane ra).toNat
      if target % 4 ≠ 0 then .fault s 3
      else .jump (setTile s t (setT x lane rd (BitVec.ofNat 64 (pcOf x + 4)))) target⟩
  | 0x0F => ⟨4, fld w 20 0 != 0, fun _ => .next s⟩
  | 0x1C => ⟨4, spFpIllegal (fld w 5 1) rb, spFp s t lane rd ra rb (fld w 5 1) (bit w 0)⟩
  | 0x1D =>
    let single := bit w 0
    ⟨4, false, fun x => spF s t lane rd (fmaOp (fmtOf single) x.lvu.capRm (fpArg single (getT x lane ra))
      (fpArg single (getT x lane rb)) (fpArg single (getT x lane (fld w 5 1)))) x⟩
  | 0x1E =>
    let cc := fld w 6 3
    let single := bit w 2
    let r (x : Tile) := fcompare (fmtOf single) cc (fpArg single (getT x lane ca)) (fpArg single (getT x lane (fld w 11 7)))
    ⟨4, decide (4 ≤ cc) || fld w 1 0 != 0 || decide (8 ≤ pd), setPd (fun x => (r x).1) (fun x => (r x).2)⟩
  | 0x38 =>
    match fn with
    | 0 => ⟨4, false, spinHalt s⟩
    | 1 => ⟨4, false, spinId s t lane rd⟩
    | 2 => ⟨4, false, spinArrive s t lane ra⟩
    | _ => bad
  | 0x3E =>
    let lop := fld w 10 5
    let im := imm32.signExtend 64
    let zero := fld w 4 0 != 0
    match lop with
    | 0 => ⟨8, zero, fun x => spT s t lane rd im x⟩
    | 1 => ⟨8, zero, fun x => spT s t lane rd (imm32 ++ lo32 (getT x lane rd)) x⟩
    | 2 => ⟨8, zero, fun x => spT s t lane rd (getT x lane ra + im) x⟩
    | 3 => ⟨8, zero, fun x => spT s t lane rd (getT x lane ra &&& im) x⟩
    | 4 => ⟨8, zero, fun x => spT s t lane rd (getT x lane ra ||| im) x⟩
    | 5 => ⟨8, zero, fun x => spT s t lane rd (getT x lane ra ^^^ im) x⟩
    | _ =>
      if 8 ≤ lop ∧ lop ≤ 14 then ⟨8, zero, fun x => spinLoad s t lane (lop - 8) rd (getT x lane ra + im).toNat x⟩
      else if 16 ≤ lop ∧ lop ≤ 19 then ⟨8, zero, fun x => spinStore s t lane (lop - 16) rd (getT x lane ra + im).toNat x⟩
      else ⟨8, true, fun _ => .next s⟩
  | _ =>
    if 0x10 ≤ op ∧ op ≤ 0x16 then ⟨4, false, fun x => spinLoad s t lane (op - 0x10) rd (getT x lane ra + imm11).toNat x⟩
    else if 0x18 ≤ op ∧ op ≤ 0x1B then ⟨4, false, fun x => spinStore s t lane (op - 0x18) rd (getT x lane ra + imm11).toNat x⟩
    else bad

/-- The word of the spindle buffer at an address (R282). -/
def sbufWord (x : Tile) (a : Nat) : BitVec 32 := BitVec.ofNat 32 (leNat (mbytes 0 x.lvu.sbuf a 4))

/-- R279, R281: a spindle executes the instruction of the buffer at its PC. -/
def execSpindleInstruction (t : TileId) (lane : Fin 32) (sys : State) : Host.Outcome State Fault Refusal := onDev sys fun s =>
  let x := tileOf s t
  let pc := (laneOf x lane).pc
  let w := sbufWord x (pc / 4 * 4)
  let d := spinDecode s t lane w (sbufWord x (pc / 4 * 4 + 4))
  spinRun s t lane d.size (bit w 31) (fld w 30 27) d.illegal d.body

/-- R280: the spindle executes `sphalt`. -/
def execSphalt (t : TileId) (lane : Fin 32) (gu : Guard) (sys : State) : Host.Outcome State Fault Refusal := onDev sys fun s =>
  spinRun s t lane 4 gu.neg gu.pred false (spinHalt s)

/-- R280: the spindle executes `sid td`. -/
def execSid (t : TileId) (lane : Fin 32) (gu : Guard) (td : RegNo) (sys : State) : Host.Outcome State Fault Refusal := onDev sys fun s =>
  spinRun s t lane 4 gu.neg gu.pred false (spinId s t lane td)

/-- R280: the spindle executes `sparrive ta`. -/
def execSparrive (t : TileId) (lane : Fin 32) (gu : Guard) (ta : RegNo) (sys : State) : Host.Outcome State Fault Refusal := onDev sys fun s =>
  spinRun s t lane 4 gu.neg gu.pred false (spinArrive s t lane ta)

/-! ### Control from the scalar core (R283 to R286) -/

/-- R283: `spload ga, gb` is queued as a long-vector memory instruction; in spindle mode it is ILLEGAL. -/
def execSpload (t : TileId) (gu : Guard) (ra rb : RegNo) (sys : State) : Host.Outcome State Fault Refusal := onDev sys fun s =>
  lvIssue s t gu (fun _ => false) true (fun x => lvCapture x 0x38 0 0 0 0 0 (getG x ra) (getG x rb))

/-- Entry (R284): waits for the stores and the unit, is dropped after an error, captures context, mode and rounding. -/
def spinEntry (s : Dev) (ti : TileId) (gu : Guard) (lane : Tile → Nat → SpinSt → SpinSt) : Dev :=
  issue s ti gu 4 (fun x => x.lvu.spin) (fun x =>
    if !(storesDrained x && lvIdle x) then stallPlain s x
    else if lvDropping x then .done s x 1
    else
      let x1 : Tile := { x with lvu := { x.lvu with
        spin := true, stopped := false, flags := 0
        capCtx := fld x.core.ctx 7 0, capUser := isUser x, capRm := fld x.lvu.vcsr 2 0 } }
      .done s ((List.range 32).foldl (fun y l => setLane y l (lane x l (laneOf y l))) x1) 1)

/-- R284: every spindle runs from ga[13:0]. -/
def execSpenter (t : TileId) (gu : Guard) (ra : RegNo) (sys : State) : Host.Outcome State Fault Refusal := onDev sys fun s =>
  spinEntry s t gu (fun x _ _ => ⟨fld (getG x ra) 13 0, 4, 0⟩)

/-- R284: each spindle recorded STOPPED resumes at its recorded PC. -/
def execSpresume (t : TileId) (gu : Guard) (sys : State) : Host.Outcome State Fault Refusal := onDev sys fun s =>
  spinEntry s t gu (fun _ _ z => if z.st = 0 then { z with st := 4 } else z)

/-- Does any spindle still run (R285)? -/
def anyLaneRuns (x : Tile) : Bool := (List.range 32).any (laneRuns x)

/-- The exit (R285): flags accrue, the records keep next PC and state, the spindles' digests fold in lane order. (log entry 43, DEDUCED) -/
def spinExit (x : Tile) : Tile :=
  let x1 := accrueV x x.lvu.flags
  let x2 := (List.range 32).foldl (fun y l => setLane y l { laneOf y l with pc := (laneOf y l).pc % 2 ^ 14 }) x1
  let x3 := (List.range 32).foldl (fun y l =>
    foldLvu y x.lvu.capUser ⟨7, l, 0, mget crcInit x.dig.spin l ^^^ crcInit⟩ false) x2
  { x3 with lvu := { x3.lvu with spin := false, flags := 0 } }

/-- R285: `spexit gd`; dropped after an error it writes 0 (R276). -/
def execSpexit (t : TileId) (gu : Guard) (rd : RegNo) (sys : State) : Host.Outcome State Fault Refusal := onDev sys fun s =>
  issue s t gu 4 (fun _ => false) (fun x =>
    if lvDropping x || anyLaneRuns x then .done s (setG x rd 0) 1
    else .done s (setG (if x.lvu.spin then spinExit x else x) rd 1) 1)

/-- R286: every running spindle stops at its next instruction boundary, and the unit exits. -/
def spinStop (s : Dev) (t : Nat) : Dev :=
  let x := tileOf s t
  if !x.lvu.spin then s
  else
    let s1 := (List.range 32).foldl (fun s l => abandonWant s (.spindle t l)) s
    let x1 := (List.range 32).foldl (fun y l => if laneRuns y l then setLane y l ⟨(laneOf y l).pc, 0, 0⟩ else y) x
    let x2 := spinExit x1
    setTile s1 t { x2 with lvu := { x2.lvu with stopped := true } }

/-- R286: `spstop`; dropped after an error (R276). -/
def execSpstop (t : TileId) (gu : Guard) (sys : State) : Host.Outcome State Fault Refusal := onDev sys fun s =>
  issue s t gu 4 (fun _ => false) (fun x =>
    if lvDropping x then .done s x 1
    else let s1 := spinStop (setTile s t x) t; .done s1 (tileOf s1 t) 1)

/-- R286, R289: TCB_LVU_CTRL.SPSTOP; an error does not drop it. -/
def execTcbSpstop (t : TileId) (sys : State) : Host.Outcome State Fault Refusal := onDev sys fun s => spinStop s t

/-! ### The window onto the vector registers (R289) -/

/-- Does TCB_VREG_WIN act? -/
def vwinActs (x : Tile) : Bool := x.core.halted && lvIdle x && !x.lvu.spin

/-- The bytes the window shows: the selected register; a mask fills its first 256 bytes. -/
def vwinRead (x : Tile) (off n : Nat) : List Byte :=
  let r := x.lvu.vregSel
  let v : Nat := if r < 32 then (getV x r).toNat else if r < 40 then (getVm x (r - 32)).toNat else 0
  leBytes n (v >>> (8 * off))

/-- A write through the window. -/
def vwinWrite (x : Tile) (off n v : Nat) : Tile :=
  let r := x.lvu.vregSel
  if r < 32 then setV x r (putBytes (getV x r).toNat off n v)
  else if r < 40 then setVm x (r - 32) (putBytes (getVm x (r - 32)).toNat off n v % 2 ^ 2048)
  else x

/-- An access through the window: refused while the core runs or the unit is busy. -/
def vwinAccess (s : Dev) (t off n : Nat) (wr : Option Word) : Dev × List Byte :=
  let x := tileOf s t
  if !(vwinActs x) then (setTile s t (accessErr x), leBytes n 0)
  else match wr with
    | some v => (setTile s t (vwinWrite x off n v.toNat), [])
    | none => (s, vwinRead x off n)

/-- R289: an access of at most eight bytes that stays in the window; a read is answered. -/
def execVregWinAccess (t : TileId) (off : Fin 2048) (size : Fin 9) (wr : Option Word) (sys : State) :
    Host.Outcome State Fault Refusal := onDev sys fun s =>
  let n := min size.val (2048 - off.val)
  let r := vwinAccess s t off n wr
  match wr with | some _ => r.1 | none => send r.1 (.hostReply r.2 false)

end Sys2Proof.Machine
end

