-- ==== Sys2Proof/Machine/Walks.lean ====
section
/-! DEFINITION. Walks of the host's page tables, page faults and their service, invalidation, and the context and format
descriptors (R434 to R462). -/

namespace Sys2Proof.Machine
open Sys2Proof

/-! ### A waiting access fails or waits for a fault -/

/-- A waiting access fails with ACCESS in its unit (R200, R269, R281, R310, R418). -/
def failUnit (s : Dev) (w : XWant) : Dev :=
  let s1 := xltFail (abandonWant s w.unit) w.tag
  match w.unit with
  | .core t =>
    let x := landDue (tileOf s1 t)
    let sub := match x.core.wait with | .xlate _ k _ => k | _ => 0
    settle (setTile s1 t (enterException { x with core := { x.core with wait := .none } } 7 sub (BitVec.ofNat 64 w.va))) t
  | .lvu t => lvPop (lvError s1 t 1 w.va (some w.tag)) t
  | .spindle t lane => spinFault s1 t lane 7
  | .me t => match (tileOf s1 t).me.queue with | c :: _ => meFail s1 t c 0x21 w.va 0 | [] => s1
  | .te t ch => failAhead s1 t ch 0x42 w.va

/-- An access failed under R453, R454, R455 or R452 (ID 0x4001). -/
def failFault (s : Dev) (w : XWant) : Dev :=
  let s1 := { s with xlt := { s.xlt with priStats := incFld s.xlt.priStats 63 32 1 } }
  failUnit (raiseErr s1 (some (ctxPart s1 w.tag)) 0x4001 1 0xFFFF (some w.tag) w.va 0) w

/-- Put a want at a stage. -/
def stageWant (s : Dev) (w : XWant) (st : XStage) : Dev :=
  { s with xlt := { s.xlt with want := s.xlt.want.map (fun v => if v.unit = w.unit then { v with stage := st } else v) } }

/-- A unit learns that its access waits on a page fault; a core that is to halt abandons the wait (R200, R215, R417). -/
def markFault (s : Dev) (w : XWant) : Dev :=
  match w.unit with
  | .core t =>
    let s1 := modTile s t (fun x => match x.core.wait with
      | .xlate va k _ => { x with core := { x.core with wait := .xlate va k true } }
      | _ => x)
    if (tileOf s t).core.run then s1 else haltTile s1 t
  | .te t ch => teFaultWait s t ch
  | _ => s

/-- The requests that count against a function's allocation (R452, R455). -/
def fnReqs (s : Dev) (p f : Nat) : List PageReq := s.xlt.reqs.filter (fun r => r.port == p && r.fn == f)

/-- The lowest group index that is neither outstanding nor held (R450). -/
def freeIdx (l : List PageReq) : Nat := ((List.range 512).find? (fun i => !(l.any (fun r => r.idx == i)))).getD 0

/-- Send a page request (R450). -/
def sendRequest (s : Dev) (w : XWant) (p f idx : Nat) : Dev :=
  let r : PageReq := ⟨p, f, w.tag, ctxPasid s w.tag, w.va / 4096, w.write, w.exec, idx, false, xunitTile w.unit / 128, w.entry⟩
  let s1 := { s with xlt := { s.xlt with
    reqs := s.xlt.reqs ++ [r]
    priStats := incFld s.xlt.priStats 31 0 1
    ctx := mmod 0 s.xlt.ctx (32 * w.tag + 2) (fun v => incFld v 31 0 1) } }
  send s1 (.pageRequest p f r.pasid r.page idx w.write w.exec)

/-- R450 to R454: a walk met a page fault. -/
def pageFault (s : Dev) (w : XWant) : Dev :=
  let pf := ctxFn s w.tag
  let fs := fnOf s pf.1 pf.2
  let l := fnReqs s pf.1 pf.2
  if !fs.pri || fs.priRf || decide (4 ≤ w.succ) then failFault s w
  else match l.find? (fun r => r.pasid == ctxPasid s w.tag && r.page == w.va / 4096 && !r.timedOut) with
    | some r => markFault (stageWant s w (.req r.idx)) w
    | none =>
      if l.length < min 512 fs.priAlloc then
        let i := freeIdx l
        markFault (stageWant (sendRequest s w pf.1 pf.2 i) w (.req i)) w
      else markFault (stageWant s w .alloc) w

/-- The oldest fault that waits for the allocation is taken up again, and those behind it while they need it no longer: each
sends its request or fails (R452, R453). -/
def serveAllocs : (n : Nat) → Dev → (p f : Nat) → Dev
  | 0, s, _, _ => s
  | n + 1, s, p, f =>
    match s.xlt.want.find? (fun w => decide (w.stage = .alloc) && ctxFn s w.tag == (p, f)) with
    | some w =>
      let s1 := pageFault s w
      if s1.xlt.want.any (fun v => decide (v.unit = w.unit) && decide (v.stage = .alloc)) then s1 else serveAllocs n s1 p f
    | none => s

/-- A request freed, or a larger allocation, lets faults that wait for it send (R452). -/
def serveAlloc (s : Dev) (p f : Nat) : Dev := serveAllocs s.xlt.want.length s p f

/-! ### Walks (R437 to R439) -/

/-- A flag of a table entry; none where the format has no such flag (R436). -/
def entryFlag (s : Dev) (f k : Nat) (e : Word) : Option Bool :=
  let b := fmtPos s f k
  if b < 128 then none else some (bit e (b % 64) != decide (64 ≤ b % 128))

/-- The entry with a flag set. -/
def setFlag (s : Dev) (f k : Nat) (e : Word) : Word :=
  let b := fmtPos s f k
  if b < 128 then e else setBit e (b % 64) (decide (b % 128 < 64))

/-- The top level of a format (R437). -/
def topLevel (s : Dev) (f : Nat) : Nat := if bit (xfmtW s f 0) 0 then 4 else 3

/-- Is an address canonical under a format (R435, R437)? -/
def canonical (s : Dev) (f va : Nat) : Bool :=
  let n := if bit (xfmtW s f 0) 0 then 57 else 48
  let high := va / 2 ^ n
  if bit (xfmtW s f 0) 1 then high == (if va / 2 ^ (n - 1) % 2 = 1 then 2 ^ (64 - n) - 1 else 0) else high == 0

/-- The frame field of an entry as an address (R436). -/
def frameOf (s : Dev) (f : Nat) (e : Word) : Nat := fld e (fmtPfnHi s f) 12 * 4096

/-- The address of the entry a walk reads next (R437). -/
def walkAddr (k : Walk) : Nat := k.table + 8 * (k.va / 2 ^ (12 + 9 * k.level) % 512)

/-- The reads of a walk, and its updates. -/
def walkSrc (k : Walk) : HostSrc := .walk k.leaf k.tag (walkAddr k)
def casSrc (k : Walk) : HostSrc := .cas k.leaf k.tag (walkAddr k)

/-- A walk asks for its next entry (R438): through the host line cache where the port has it. -/
def askEntry (s : Dev) (k : Walk) : Dev :=
  let port := (ctxFn s k.tag).1
  hostRead (if (hportOf s port).cache then hostForget s (walkSrc k) else s) (walkSrc k) 0 port (walkAddr k) 8

/-- A count of a leaf's WALKS (R460). -/
def countWalk (s : Dev) (leaf : Nat) : Dev :=
  if leaf = 0 then { s with xlt := { s.xlt with statsA := incFld s.xlt.statsA 63 32 1 } }
  else { s with xlt := { s.xlt with statsB := incFld s.xlt.statsB 63 32 1 } }

/-- The walks of a leaf, in walker order. -/
def leafWalks (s : Dev) (leaf : Nat) : List Walk := s.xlt.walks.filter (fun k => k.leaf == leaf)

/-- R437, R443: a walker of a leaf takes the first waiting page that no walk serves yet; no walk of a tag starts while an
invalidation of it is pending (R448). -/
def execPageWalk (leaf : Fin 2) (sys : State) : Host.Outcome State Fault Refusal := onDev sys fun s =>
  let free (w : XWant) : Bool := decide (w.stage = .walk) && xunitTile w.unit / 128 == leaf.val &&
    !(s.xlt.walks.any (fun k => k.tag == w.tag && k.va / 4096 == w.va / 4096)) &&
    !(s.xlt.invQ.any (fun q => q.tag == w.tag))
  match s.xlt.want.find? free with
    | some w =>
      let f := ctxFmt s w.tag
      if 8 ≤ (leafWalks s leaf).length then s
      else if !(xltCheck s (xunitTile w.unit) w.tag) || fmtBad s f || !(canonical s f w.va) then failUnit s w
      else
        let k : Walk := ⟨w.unit, leaf, w.tag, w.va, topLevel s f, fld (ctxW s w.tag 1) 63 12 * 4096, w.write, w.exec, true, true⟩
        askEntry (countWalk { s with xlt := { s.xlt with walks := s.xlt.walks ++ [k] } } leaf) k
    | none => s

/-- The want a walk was started for, if it still waits. -/
def walkWant (s : Dev) (k : Walk) : Option XWant :=
  s.xlt.want.find? (fun w => decide (w.unit = k.unit) && w.tag == k.tag && w.va / 4096 == k.va / 4096 && decide (w.stage = .walk))

/-- A walk is over. -/
def dropWalk (s : Dev) (k : Walk) : Dev := { s with xlt := { s.xlt with walks := s.xlt.walks.erase k } }

/-- A walk moves to another state and asks for the entry it names. -/
def stepWalk (s : Dev) (k k1 : Walk) : Dev :=
  askEntry { s with xlt := { s.xlt with walks := s.xlt.walks.map (fun v => if v = k then k1 else v) } } k1

/-- Does a translation give a waiting access what it needs? -/
def servesWant (e : TlbEnt) (w : XWant) : Bool :=
  w.tag == e.tag && decide (e.va ≤ w.va) && decide (w.va < e.va + 2 ^ e.lg) && decide (w.stage = .walk) &&
    tlbHits e.tag false w.va (if w.write then 1 else if w.exec then 2 else 0) e

/-- A walk found a leaf: the caches are filled, a micro-TLB only if its tile still waits (R219), and the accesses it serves
go on (R443, R444). -/
def walkDone (s : Dev) (k : Walk) (e : TlbEnt) : Dev :=
  let s0 := fillLeaf (dropWalk s k) k.leaf e
  let s1 := if (walkWant s k).isSome then fillMicro s0 (xunitTile k.unit) e else s0
  let served := s1.xlt.want.filter (fun w => servesWant e w && xunitTile w.unit / 128 == k.leaf)
  let s2 := { s1 with xlt := { s1.xlt with want := s1.xlt.want.filter (fun w => !(served.contains w)) } }
  served.foldl (fun s w => match w.unit with
    | .core t => settle (modTile s t (fun x => match x.core.wait with
        | .xlate .. => { x with core := { x.core with wait := .none } }
        | _ => x)) t
    | _ => s) s2

/-- A fault's want with the place of the entry it faulted on (R457). -/
def atEntry (s : Dev) (k : Walk) (w : XWant) : Dev × XWant :=
  let v := { w with entry := walkAddr k }
  ({ s with xlt := { s.xlt with want := s.xlt.want.map (fun u => if u = w then v else u) } }, v)

/-- R437 to R439, R450: a walker uses the entry it has read; `cas` is the outcome of the compare-and-swap it needs, if it
needs one, and an entry that could not be read fails the access. -/
def walkEntry (s : Dev) (k : Walk) (e : Word) (cas : Bool) : Dev :=
  let f := ctxFmt s k.tag
  let l := k.level
  let fault (s : Dev) : Dev := match walkWant s k with
    | some w => let p := atEntry (dropWalk s k) k w; pageFault p.1 p.2
    | none => dropWalk s k
  let fail : Dev := match walkWant s k with | some w => failUnit (dropWalk s k) w | none => dropWalk s k
  let leafF := decide (l = 1 ∨ l = 2) && (entryFlag s f 6 e).getD false
  let big := leafF && bit (xfmtW s f 0) (if l = 1 then 2 else 3)
  let last := l == 0 || big
  let dev := (entryFlag s f 5 e).getD false
  let w := k.wOk && (entryFlag s f 1 e).getD true
  let x := k.xOk && (entryFlag s f 2 e).getD true
  let aOk := (entryFlag s f 3 e).getD true
  let dOk := !last || (entryFlag s f 4 e).getD true
  let path := (hportOf s (ctxFn s k.tag).1).cache || (fnOf s (ctxFn s k.tag).1 (ctxFn s k.tag).2).atomics
  let mode := if fmtAd s f = 1 ∧ !path then 2 else fmtAd s f
  let needs := !aOk || (k.write && !dOk)
  if (entryFlag s f 0 e) ≠ some true then fault s
  else if (leafF && !big) || (!last && dev) || (last && decide (frameOf s f e % 2 ^ (12 + 9 * l) ≠ 0)) then fail
  else if last && ((k.write && !w) || (k.exec && !x)) then fail
  else if mode = 2 ∧ needs then fault s
  else
    let new := if k.write && !dOk then setFlag s f 4 (setFlag s f 3 e) else setFlag s f 3 e
    let s1 := if mode = 1 ∧ needs ∧ !(hportOf s (ctxFn s k.tag).1).cache then send s (.hostCas (ctxFn s k.tag).1 (walkAddr k) e new) else s
    if mode = 1 ∧ needs ∧ !cas then
      stepWalk s1 k { k with level := topLevel s f, table := fld (ctxW s k.tag 1) 63 12 * 4096, wOk := true, xOk := true }
    else if last then
      let lg := 12 + 9 * l
      let b := k.va / 2 ^ lg * 2 ^ lg
      walkDone s1 k { tag := k.tag, seg := false, va := b, lg := lg, out := frameOf s f e, host := !dev, rd := true
                      wr := w, ex := x, dirty := mode = 0 || dOk || k.write }
    else stepWalk s1 k { k with level := l - 1, table := frameOf s f e, wOk := w, xOk := x }

/-- The entry a walk writes before it uses the one it has read, under AD_MODE 1 with a path (R439). -/
def walkUpdate (s : Dev) (k : Walk) (e : Word) : Option Word :=
  let f := ctxFmt s k.tag
  let l := k.level
  let last := l == 0 || (decide (l = 1 ∨ l = 2) && (entryFlag s f 6 e).getD false && bit (xfmtW s f 0) (if l = 1 then 2 else 3))
  let aOk := (entryFlag s f 3 e).getD true
  let dOk := !last || (entryFlag s f 4 e).getD true
  if (entryFlag s f 0 e) = some true ∧ fmtAd s f = 1 ∧ (!aOk || (k.write && !dOk)) then
    some (if k.write && !dOk then setFlag s f 4 (setFlag s f 3 e) else setFlag s f 3 e)
  else none

/-- The read of a walk's entry has failed, or brought poison (R486, R489). -/
def walkFails (s : Dev) (k : Walk) : Dev := match walkWant s k with | some v => failUnit (dropWalk s k) v | none => dropWalk s k

/-- A walk under CXL.cache whose entry has been returned (R438, R439): an update of it takes ownership of the line and compares
and swaps there, and the walk goes on with its outcome. -/
def walkCached (s : Dev) (k : Walk) : Dev :=
  let port := (ctxFn s k.tag).1
  let a := walkAddr k
  match hostGot s (walkSrc k) port a 8 with
  | none => if hostPending s (walkSrc k) then s else askEntry s k
  | some (_, true) => walkFails s k
  | some (bs, false) =>
    let e : Word := BitVec.ofNat 64 (leNat bs)
    let go (cas : Bool) : Dev := walkEntry (hostForget (hostForget s (walkSrc k)) (casSrc k)) k e cas
    match walkUpdate s k e with
    | none => go true
    | some new =>
      match hostGot s (casSrc k) port a 8 with
      | some (cur, _) => go (cur == bs)
      | none =>
        if hostPending s (casSrc k) then s
        else hlcIssue s port (a / 64) 3 (a % 64) (leBytes 8 new.toNat) (casSrc k) (some bs) false

/-- The entry a walk asked for returns, or its read has failed (R438, R489). Under CXL.cache the entry is the host line
cache's, whatever the operands say of it. -/
def walkAnswer (s : Dev) (leaf k : Nat) (entry : Option Word) (cas : Bool) : Dev :=
  match (leafWalks s leaf)[k]? with
    | some w =>
      match entry with
      | some e => if (hportOf s (ctxFn s w.tag).1).cache then walkCached s w else walkEntry s w e cas
      | none => walkFails s w
    | none => s

/-- R438: a table entry read returns. -/
def execPageWalkEntryRead (leaf : Fin 2) (k : Fin 8) (entry : Option Word) (cas : Bool) (sys : State) :
    Host.Outcome State Fault Refusal := onDev sys fun s => walkAnswer s leaf k entry cas

/-! ### Responses (R453 to R456) -/

/-- The accesses that wait on a request. -/
def reqWants (s : Dev) (r : PageReq) : List XWant :=
  s.xlt.want.filter (fun w => decide (w.stage = .req r.idx) && w.va / 4096 == r.page && ctxFn s w.tag == (r.port, r.fn))

/-- Take a request out and let the next fault send. -/
def freeReq (s : Dev) (r : PageReq) : Dev := serveAlloc { s with xlt := { s.xlt with reqs := s.xlt.reqs.erase r } } r.port r.fn

/-- Success: the accesses walk again (R453, R454). -/
def walkAgain (s : Dev) (w : XWant) : Dev :=
  let s1 := { s with xlt := { s.xlt with want := s.xlt.want.map (fun v =>
    if v.unit = w.unit then { v with stage := .walk, succ := v.succ + 1 } else v) } }
  match w.unit with
  | .core t => modTile s1 t (fun x => match x.core.wait with
      | .xlate va k _ => { x with core := { x.core with wait := .xlate va k false } }
      | _ => x)
  | .te t ch => modChan s1 t ch (fun c => if c.st = 2 then { c with st := 1 } else c)
  | _ => s1

/-- R453: a Page Request Group Response: code 0 Success, 1 Invalid Request, any other Response Failure. -/
def execPageGroupResponse (port : Fin 2) (fn : Fin 128) (idx : Fin 512) (pasid : BitVec 20) (code : Fin 16) (sys : State) :
    Host.Outcome State Fault Refusal := onDev sys fun s =>
  match (fnReqs s port fn).find? (fun r => r.idx == idx.val) with
    | some r =>
      if r.pasid ≠ pasid.toNat then s
      else if r.timedOut then freeReq s r
      else if code = 0 then freeReq ((reqWants s r).foldl walkAgain s) r
      else if code = 1 then freeReq ((reqWants s r).foldl failFault s) r
      else
        let s1 := modFn s port fn (fun f => { f with priRf := true })
        freeReq ((fnReqs s1 port fn).foldl (fun s q => (reqWants s q).foldl failFault s) s1) r
    | none => s

/-- R455: a request times out; its index stays held. -/
def execPriTimeout (port : Fin 2) (fn : Fin 128) (idx : Fin 512) (sys : State) : Host.Outcome State Fault Refusal := onDev sys fun s =>
  match (fnReqs s port fn).find? (fun r => r.idx == idx.val && !r.timedOut) with
    | some r =>
      let s1 := { s with xlt := { s.xlt with reqs := s.xlt.reqs.map (fun q => if q = r then { q with timedOut := true } else q) } }
      (reqWants s r).foldl failFault s1
    | none => s

/-- R452: clearing PRI Enable fails the accesses that wait and frees the indices. -/
def priDisable (s : Dev) (port fn : Nat) : Dev :=
  let s1 := modFn s port fn (fun f => { f with pri := false })
  let ws := s1.xlt.want.filter (fun w => decide (w.stage ≠ .walk) && ctxFn s1 w.tag == (port, fn))
  let s2 := ws.foldl failFault s1
  { s2 with xlt := { s2.xlt with reqs := s2.xlt.reqs.filter (fun r => !(r.port == port && r.fn == fn)) } }

/-- R452. -/
def execPriDisable (port : Fin 2) (fn : Fin 128) (sys : State) : Host.Outcome State Fault Refusal := onDev sys fun s => priDisable s port fn

/-! ### Invalidation (R446 to R449) -/

/-- The caches hold no entry of a tag (R448). -/
def dropTag (s : Dev) (tag : Nat) : Dev :=
  let keep (l : List TlbEnt) : List TlbEnt := l.filter (fun e => e.tag != tag)
  let s1 := { s with xlt := { s.xlt with
    ltlb := mset [] (mset [] s.xlt.ltlb 0 (keep (leafTlb s 0))) 1 (keep (leafTlb s 1))
    walks := s.xlt.walks.filter (fun k => k.tag != tag) } }
  s1.tiles.foldl (fun s e => modTile s e.1 (fun x => { x with utlb := keep x.utlb })) s1

/-- Translations a channel holds for blocks not begun are made again (R408, R448). -/
def dropBlocks (x : Tile) (tag : Nat) : Tile :=
  [0, 1, 2, 3].foldl (fun y ch =>
    let c := chanOf y ch
    match c.run with
    | some d => if d.user && d.tag == tag then setChan y ch { c with blks := c.blks.filter (·.asked), failAt := none } else y
    | none => y) x

/-- Queue an invalidation (R446). -/
def queueInv (s : Dev) (q : InvReq) : Dev :=
  dropTag { s with xlt := { s.xlt with invQ := s.xlt.invQ ++ [q] } } q.tag

/-- XLT_INV (R446, R460). -/
def xltInv (s : Dev) (v : Word) : Dev :=
  if !(bit v 63) then s
  else if 16 ≤ s.xlt.invQ.length then { s with xlt := { s.xlt with overrun := true } }
  else queueInv s ⟨fld v 7 0, bit v 25, fld v 24 17, fld v 16 8, none⟩

/-- R446: a write of XLT_INV. -/
def execXltInvWrite (v : Word) (sys : State) : Host.Outcome State Fault Refusal := onDev sys fun s => xltInv s v

/-- Held ATS requests queue their invalidations in arrival order while there is room (R446). -/
def pumpAts (s : Dev) : Dev :=
  match s.xlt.ats.find? (fun a => !a.toQueue.isEmpty) with
  | some a =>
    let now := a.toQueue.take (16 - s.xlt.invQ.length)
    let s1 := now.foldl (fun s t => queueInv s ⟨t, false, 0, 0, some a.id⟩) s
    { s1 with xlt := { s1.xlt with ats := s1.xlt.ats.map (fun b =>
      if b.id = a.id then { b with toQueue := b.toQueue.drop now.length } else b) } }
  | none => s

/-- Requests whose invalidations have all completed are answered (R447). -/
def answerAts (s : Dev) : Dev :=
  let done := s.xlt.ats.filter (fun a => a.left == 0)
  done.foldl (fun s a => send s (.invCompletion a.port a.fn a.id))
    { s with xlt := { s.xlt with ats := s.xlt.ats.filter (fun a => a.left != 0) } }

/-- R447: an ATS Invalidate Request: with a PASID the tags of the valid contexts that carry it, else every tag of the
function. -/
def execAtsInvalidateRequest (port : Fin 2) (fn : Fin 128) (pasid : Option (BitVec 20)) (sys : State) :
    Host.Outcome State Fault Refusal := onDev sys fun s =>
  let tags := (List.range 256).filter (fun n => ctxFn s n == (port.val, fn.val) && ctxValid s n &&
    (match pasid with | some p => ctxPasid s n == p.toNat | none => true))
  answerAts (pumpAts { s with xlt := { s.xlt with
    atsId := s.xlt.atsId + 1, ats := s.xlt.ats ++ [⟨s.xlt.atsId, port, fn, tags, tags.length⟩] } })

/-- Does a core wait for the data of a load it made under a tag? -/
def loadsUnder (x : Tile) (tag : Nat) : Bool :=
  match x.core.wait with | .load _ => isUser x && fld x.core.ctx 7 0 == tag | _ => false

/-- Are the accesses translated under a tag performed (R448): buffered stores, loads that wait, issued engine commands, blocks
in flight, updates of A and D? -/
def tagQuiet (s : Dev) (tag : Nat) : Bool :=
  !(s.tiles.any (fun e => e.2.member == ctxPart s tag + 1 &&
    (!(storesDrained e.2) || loadsUnder e.2 tag || (match e.2.me.run with | some (c, _) => c.user && c.tag == tag | none => false) ||
     [0, 1, 2, 3].any (fun ch => let c := chanOf e.2 ch
       c.blks.any (·.asked) && (match c.run with | some d => d.user && d.tag == tag | none => false))))) &&
    !((s.hlc.inq ++ s.hlc.wait).any (fun w => match w.src with | .cas _ k _ => k == tag | _ => false))

/-- R448, R449: the oldest invalidation completes once the accesses it covers are performed. -/
def execInvalidationComplete (sys : State) : Host.Outcome State Fault Refusal := onDev sys fun s =>
  match s.xlt.invQ with
    | q :: r =>
      if !(tagQuiet s q.tag) then s
      else
        let s1 := dropTag { s with xlt := { s.xlt with invQ := r, done := s.xlt.done + 1 } } q.tag
        let s2 := s1.tiles.foldl (fun s e => modTile s e.1 (fun x => dropBlocks x q.tag)) s1
        let s3 := if q.den then sendDowel s2 .iod (buildOf s2 q.dtile) q.dtile q.didx 0 1 none else s2
        match q.ats with
        | some i => answerAts (pumpAts { s3 with xlt := { s3.xlt with ats := s3.xlt.ats.map (fun a =>
            if a.id = i then { a with left := a.left - 1 } else a) } })
        | none => pumpAts s3
    | [] => s

/-! ### Descriptors (R433 to R435, R458, R473, R622) -/

/-- Clearing VALID of a context (R458). -/
def ctxInvalidate (s : Dev) (n : Nat) : Dev :=
  if !(ctxValid s n) then s
  else
    let pf := ctxFn s n
    let pasid := ctxPasid s n
    let ws := s.xlt.want.filter (fun w => w.tag == n && decide (w.stage ≠ .walk))
    let s1 := ws.foldl failUnit s
    let s2 := dropTag { s1 with xlt := { s1.xlt with
      ctx := mmod 0 s1.xlt.ctx (32 * n) (fun w => setBit w 0 false)
      stops := s1.xlt.stops ++ [(n, pf.1, pf.2, pasid)] } } n
    s2

/-- The bits of a descriptor word that hold fields (R433). -/
def ctxMask (k : Nat) (v : Word) : Word :=
  if k = 0 then v &&& 0x000FFFFF00001FFF
  else if k = 1 then v &&& 0xFFFFFFFFFFFFF000
  else if k < 8 then 0
  else match (k - 8) % 3 with
    | 2 => v &&& 0x000FFFFFFFFFF00F
    | _ => v &&& 0xFFFFFFFFFFFFF000

/-- Is a partition one a port serves (R473)? -/
def servedBy (s : Dev) (p port : Nat) : Bool := (partSt s p).valid && decide (pPort (partSt s p) = port)

/-- May an agent write a word of a descriptor (R434, R473)? -/
def ctxMayWrite (s : Dev) (agent : RegAgent) (n k : Nat) (v : Word) : Bool :=
  match agent with
  | .mgmt => true
  | .host port fn => fn == 0 &&
    (!(ctxValid s n) || servedBy s (ctxPart s n) port) &&
    (k != 0 || !(bit v 0) || servedBy s (fld v 7 1) port)
  | .tile _ => false

/-- A write of a word of XLT_CTXn. -/
def ctxWrite (s : Dev) (agent : RegAgent) (n k : Nat) (v : Word) : Dev :=
  if !(ctxMayWrite s agent n k v) then
    (match agent with | .host port _ => hostRefused s none port (0x040000 + 0x10000 + 0x100 * n + 8 * k) | _ => s)
  else if k = 2 then s
  else
    let st := (partSt s (fld v 7 1)).state
    if k = 0 ∧ bit v 0 ∧ !(decide (st = 1 ∨ st = 2)) then s
    else
      let s1 := if k = 0 ∧ !(bit v 0) then ctxInvalidate s n else s
      { s1 with xlt := { s1.xlt with ctx := mset 0 s1.xlt.ctx (32 * n + k) (ctxMask k v) } }

/-- R434, R473, R622: a write to a context descriptor. -/
def execXltCtxWrite (agent : RegAgent) (n : TileId) (k : Fin 32) (v : Word) (sys : State) : Host.Outcome State Fault Refusal := onDev sys fun s =>
  ctxWrite s agent n k v

/-- The bits of a format word that hold fields (R435). -/
def fmtMask (k : Nat) (v : Word) : Word :=
  match k with | 0 => v &&& 0x3F | 1 => v &&& 0x00FFFFFFFFFFFFFF | 2 => v &&& 0x3F | _ => 0

/-- Store a word of a format descriptor. -/
def putFmt (s : Dev) (f k : Nat) (v : Word) : Dev :=
  { s with xlt := { s.xlt with
      fmt := mset (if k = 2 then 51 else 0) s.xlt.fmt (4 * f + k) (fmtMask k v), fmtSet := mset false s.xlt.fmtSet f true } }

/-- A write of a word of XLT_FMTf (R435, R473). -/
def xfmtWrite (s : Dev) (agent : RegAgent) (f k : Nat) (v : Word) : Dev :=
  let used := (List.range 256).any (fun n => ctxValid s n && ctxFmt s n == f)
  match agent with
  | .tile _ => s
  | .host port fn =>
    if fn ≠ 0 then s
    else if used then hostRefused s none port (0x040000 + 0x100 + 0x20 * f + 8 * k)
    else putFmt s f k v
  | .mgmt => if used then s else putFmt s f k v

/-- R435: a write to a format descriptor. -/
def execXltFmtWrite (agent : RegAgent) (f k : Fin 4) (v : Word) (sys : State) : Host.Outcome State Fault Refusal := onDev sys fun s =>
  xfmtWrite s agent f k v

/-- R458: the Stop Marker of a cleared context, once none of its requests is outstanding or their timeouts have passed. -/
def execStopMarker (n : TileId) (sys : State) : Host.Outcome State Fault Refusal := onDev sys fun s =>
  match s.xlt.stops.find? (fun e => e.1 == n.val) with
    | some e =>
      if s.xlt.reqs.any (fun r => r.tag == n.val && !r.timedOut) then s
      else send { s with xlt := { s.xlt with stops := s.xlt.stops.erase e } } (.stopMarker e.2.1 e.2.2.1 e.2.2.2)
    | none => s

end Sys2Proof.Machine
end

