-- ==== Sys2Proof/Machine/HostCache.lean ====
section
/-! DEFINITION. The events of the host line cache (R501 to R510): requests that reach their slices, responses, replacement and
the eviction buffer, host snoops, locking and preload, and its errors. -/

namespace Sys2Proof.Machine
open Sys2Proof

/-! ### Errors of the cache (R508, R509) -/

/-- A line leaves the cache; a locked way stays locked to it (R507, R508). -/
def hlcDrop (h : HlcSt) (l : HLine) : HlcSt :=
  { h with lines := (if l.locked then h.lines.map (fun x => if x = l then { x with st := 0 } else x) else h.lines.erase l) }

/-- What the check of a line that is read finds: 1 corrected, 2 uncorrectable, 3 tag parity in its set, 4 tag parity of
its own tag. -/
def hlcEcc (s : Dev) (port line ecc : Nat) : Dev :=
  match hlcFind s port line with
  | none => s
  | some l =>
    match ecc with
    | 1 => raiseErr (ioInc s (hlcReg 5) 15 0 1) none 0x3001 0 (hlcSlice line) none (64 * line) 0
    | 2 =>
      if l.st = 3 then
        raiseErr (ioInc (modHlc s (fun h => { h with lines := h.lines.map (fun x => if x = l then { x with poison := true } else x) }))
          (hlcReg 5) 47 32 1) none 0x3003 1 (hlcSlice line) none (64 * line) 0
      else
        raiseErr (ioInc (modHlc s (fun h => hlcDrop h l)) (hlcReg 5) 31 16 1) none 0x3002 0 (hlcSlice line) none (64 * line) 0
    | 3 =>
      let clear (h : HlcSt) : HlcSt := { h with lines := h.lines.filterMap (fun x =>
        if sameSet x.line line && x.st != 3 then (if x.locked then some { x with st := 0 } else none) else some x) }
      raiseErr (ioInc (modHlc s clear) (hlcReg 5) 63 48 1) none 0x3004 0 (hlcSlice line) none (64 * line) 0
    | 4 =>
      if l.st = 3 then raiseErr (ioInc s (hlcReg 5) 63 48 1) none 0x3005 3 (hlcSlice line) none (64 * line) 0
      else
        let clear (h : HlcSt) : HlcSt := { h with lines := h.lines.filterMap (fun x =>
          if sameSet x.line line && x.st != 3 then (if x.locked then some { x with st := 0 } else none) else some x) }
        raiseErr (ioInc (modHlc s clear) (hlcReg 5) 63 48 1) none 0x3004 0 (hlcSlice line) none (64 * line) 0
    | _ => s

/-- An access that has reached its slice is taken. -/
def hlcTake (s : Dev) (w : HWait) : Dev := hlcReach (modHlc s (fun h => { h with inq := h.inq.erase w })) w

/-- Who makes an access: a tile (0), a walker (1), the work-queue engine or another unit (2). -/
def hlcClass (a : HostSrc) : Nat := if hostRank a < 256 then 0 else if hostRank a < 258 then 1 else 2

/-- The accesses of a line that reach its slice in one cycle, in the order they are taken (R502): tiles ascending, leaf A, leaf
B, the work-queue engine; those of one source as issued. A place with no such access, named twice, or behind an access of its
source that does not come is passed over. -/
def hlcPicks (q : List HWait) (port line : Nat) (tiles walkers others : List Nat) : List HWait :=
  let named (c : Nat) (l : List Nat) : List HWait :=
    (l.dedup.filterMap (fun i => q[i]?)).filter (fun w => hlcClass w.src == c && w.port == port && w.line == line)
  let l := named 0 tiles ++ named 1 walkers ++ named 2 others
  let ok := l.filter (fun p => q.all (fun w => decide (w.src ≠ p.src) || decide (p.ord ≤ w.ord) || l.contains w))
  ok.insertionSort (fun a b => hostRank a.src < hostRank b.src ∨ (hostRank a.src = hostRank b.src ∧ a.ord ≤ b.ord))

/-- R499, R502: accesses of the part reach the slice of a line in one cycle. The operands name those of tiles, of walkers and of
the rest by their places among those issued, and give what the check of the line finds: 1 corrected, 2 uncorrectable, 3 tag
parity, 4 tag parity of its own tag. Without CXL.cache accesses are uncached requests and do not come here (R496). -/
def execHlcRequest (port : Fin 2) (line : Fin 0x400000000000) (tiles walkers others : List Nat) (ecc : Fin 5) (sys : State) :
    Host.Outcome State Fault Refusal := onDev sys fun s =>
  match hlcPicks s.hlc.inq port line tiles walkers others with
  | [] => s
  | l => l.foldl hlcTake (hlcEcc s port line ecc)

/-! ### Responses, replacement and writeback -/

/-- Make room in a line's set (R504): none where every way is locked or the eviction buffer is full. -/
def hlcRoom (s : Dev) (line : Nat) : Option Dev :=
  let inSet := s.hlc.lines.filter (fun l => sameSet l.line line)
  if inSet.length < 16 then some s
  else match inSet.find? (fun l => !l.locked) with
    | none => none
    | some v =>
      if v.st = 3 then
        (if 32 ≤ s.hlc.evict.countP (fun l => hlcSlice l.line == hlcSlice line) then none
         else some (send (modHlc s (fun h => { h with lines := h.lines.erase v, evict := h.evict ++ [v] })) (.cxl v.port 3 (64 * v.line) [])))
      else some (send (modHlc s (fun h => { h with lines := h.lines.erase v })) (.cxl v.port 4 (64 * v.line) []))

/-- R501, R499, R486: the response to a line's request: its state, its bytes and their poison. -/
def execHlcFill (port : Fin 2) (line : Fin 0x400000000000) (st : Fin 4) (data : List Byte) (poison : Bool) (sys : State) :
    Host.Outcome State Fault Refusal := onDev sys fun s =>
  if !(s.hlc.reqs.contains (port.val, line.val)) || st == 0 then s
    else
      let old := hlcFind s port line
      let room := if old.isSome then some s else hlcRoom s line
      match room with
      | none => s
      | some s1 =>
        let base := match old with | some o => if data.isEmpty then o.data else data | none => data
        let l : HLine := ⟨port, line, st, (base ++ List.replicate 64 0).take 64, poison, (old.map (·.locked)).getD false⟩
        let first := s1.hlc.wait.find? (fun w => w.port == port.val && w.line == line.val)
        let lru := match first with | some w => w.kind == 1 && old.isNone | none => false
        let s2 := modHlc s1 (fun h =>
          let rest := h.lines.filter (fun x => !(isLine port line x))
          { h with reqs := h.reqs.erase (port.val, line.val), lines := if lru then l :: rest else rest ++ [l] })
        hlcSettle s2

/-- A line that a page request's faulting entry lies in has been taken away: the walker reads it again at once, without
ownership (R457). -/
def watchAgain (s : Dev) (port line : Nat) : Dev :=
  match s.xlt.reqs.find? (fun r => r.port == port && r.entry / 64 == line && !r.timedOut) with
  | some r => if (hportOf s port).cache then
      hlcReach (modHlc s (fun h => { h with ctr := h.ctr + 1 })) ⟨port, line, 0, 0, [], .watch r.leaf, s.hlc.ctr, none, false⟩ else s
  | none => s

/-- R503, R505: a host snoop: 0 takes a copy and leaves the line Shared, 1 invalidates it, 2 reads its current value. The
answer carries the bytes of a Modified line. A watched line that it takes away is read again (R457). -/
def execHostSnoop (port : Fin 2) (line : Fin 0x400000000000) (kind : Fin 3) (sys : State) : Host.Outcome State Fault Refusal := onDev sys fun s =>
  let dataOf (l : HLine) : List Word := (List.range 8).map (fun i => BitVec.ofNat 64 (leNat ((l.data.drop (8 * i)).take 8)))
  match hlcEvict s port line with
    | some v => send (modHlc s (fun h => { h with evict := h.evict.map (fun x => if x = v ∧ kind ≠ 2 then { x with st := 0 } else x) }))
        (.cxl port 8 (64 * line) (dataOf v))
    | none =>
      match hlcFind s port line with
      | some l =>
        let s1 := match kind with
          | 0 => modHlc s (fun h => { h with lines := h.lines.map (fun x => if x = l then { x with st := min x.st 1 } else x) })
          | 1 => modHlc s (fun h => hlcDrop h l)
          | _ => s
        let s2 := send s1 (.cxl port (8 + l.st) (64 * line) (if l.st = 3 then dataOf l else []))
        if kind = 1 then watchAgain s2 port line else s2
      | none => send s (.cxl port 8 (64 * line) [])

/-- R504, R505: a DirtyEvict completes; its entry is freed and the accesses that waited ask for the line again. -/
def execEvictionWritebackDone (port : Fin 2) (line : Fin 0x400000000000) (sys : State) : Host.Outcome State Fault Refusal := onDev sys fun s =>
  match hlcEvict s port line with
    | some v =>
      hlcSettle (modHlc s (fun h => { h with evict := h.evict.erase v }))
    | none => s

/-! ### Preload and locks (R506, R507) -/

/-- A write of HLC_PRELOAD_CTL; GO while BUSY is ignored (R527). -/
def hlcPreload (s : Dev) (v : Word) : Dev :=
  let a := ioGet s (hlcReg 1)
  let port := fld a 0 0
  if !(bit v 63) || s.hlc.preload.isSome then s
  else if !(hportOf s port).cache then ioSet s (hlcReg 3) (setBit (ioGet s (hlcReg 3)) 1 true)
  else if fld v 15 0 = 0 then s
  else
    modHlc (ioSet s (hlcReg 3) (setBit (ioGet s (hlcReg 3)) 1 false))
      (fun h => { h with preload := some (port, fld a 51 6, fld v 15 0, bit v 16) })

/-- R506: `some v` is the write of HLC_PRELOAD_CTL; `none` reads the next line of the preload in progress. -/
def execHlcPreload (v : Option Word) (sys : State) : Host.Outcome State Fault Refusal := onDev sys fun s =>
  match v with
    | some w => hlcPreload s w
    | none =>
      match s.hlc.preload with
      | some (port, line, left, lock) =>
        let s1 := hlcReach (modHlc s (fun h => { h with ctr := h.ctr + 1 }))
          ⟨port, line, if lock then 5 else 4, 0, [], .preload, s.hlc.ctr, none, false⟩
        modHlc s1 (fun h => { h with preload := if left ≤ 1 then none else some (port, line + 1, left - 1, lock) })
      | none => s

/-- Every way lock is freed; a locked way without its line is free (R507). -/
def hlcUnlock (s : Dev) : Dev :=
  modHlc s (fun h => { h with lines := (h.lines.filter (fun l => l.st != 0)).map (fun l => { l with locked := false }) })

/-- R507: HLC_CTRL.UNLOCK. -/
def execHlcUnlock (sys : State) : Host.Outcome State Fault Refusal := onDev sys fun s => hlcUnlock s

/-- R528: the lines of a port go when its link goes down; Modified lines are counted. -/
def hlcLinkLoss (s : Dev) (port : Nat) : Dev :=
  let gone := s.hlc.lines.filter (fun l => l.port == port)
  let dirty := gone.countP (fun l => l.st == 3) + s.hlc.evict.countP (fun l => l.port == port)
  let s1 := modHlc s (fun h => { h with
    lines := h.lines.filter (fun l => l.port != port)
    evict := h.evict.filter (fun l => l.port != port)
    reqs := h.reqs.filter (fun r => r.1 != port)
    inq := h.inq.filter (fun w => w.port != port)
    wait := h.wait.filter (fun w => w.port != port)
    got := h.got.filter (fun g => g.port != port)
    preload := match h.preload with | some (p, x) => if p = port then none else some (p, x) | none => none })
  let s2 := ioInc s1 (hlcReg 6) 31 0 dirty
  if dirty = 0 then s2 else raiseErr s2 none 0x3006 1 0xFFFF none 0 dirty

end Sys2Proof.Machine
end

