-- ==== Sys2Proof/Machine/Queues.lean ====
section
/-! DEFINITION. Work queues, work orders, the duplicate window, grain records and completion records (R511 to R526, R637 to
R655). -/

namespace Sys2Proof.Machine
open Sys2Proof

/-! ### Queues (R511, R525) -/

/-- A submission queue. -/
def wqOf (s : Dev) (q : Nat) : WqSt := mget WqSt.reset s.wqs q
/-- Change a submission queue. -/
def modWq (s : Dev) (q : Nat) (f : WqSt → WqSt) : Dev := { s with wqs := mmod WqSt.reset s.wqs q f }

/-- The entries of a ring from its size field: values above 12 act as 12 (R525). -/
def ringLen (w : Word) : Nat := 2 ^ (min 12 (fld w 3 0) + 4)
/-- The base of a ring or of the window store. -/
def ringBase (w : Word) : Nat := fld w 63 12 * 4096

/-- The doubleword count of the completion ring in use (R523). -/
def cqFull (k : WqSt) : Bool := decide ((k.cqTail - k.cqHead).toNat = ringLen k.cq)

/-! ### Doorbell and configuration (R512, R513) -/

/-- Why a doorbell is refused, 0 when it is not (R513). -/
def doorbellCode (s : Dev) (k : WqSt) (tail : BitVec 32) : Nat :=
  if !k.en || !k.owned || (partSt s k.part).state == 5 then 1
  else if s.coldRefuse then 2
  else if s.hold then 3
  else if (partSt s k.part).state = 4 then 4
  else if ringLen k.ring < (tail - k.head).toNat then 5
  else 0

/-- A write of WQ_DB (R513). -/
def doorbell (s : Dev) (q : Nat) (tail : BitVec 32) : Dev :=
  modWq s q (fun k =>
    match doorbellCode s k tail with
    | 0 => { k with tail := tail }
    | c => { k with refused := satAdd 16 k.refused 1, code := c })

/-- R513: a doorbell. -/
def execWqDoorbell (q : TileId) (tail : BitVec 32) (sys : State) : Host.Outcome State Fault Refusal := onDev sys fun s => doorbell s q tail

/-- R512: enabling a queue: counters at zero, an empty window. -/
def enableQueue (s : Dev) (q : Nat) : Dev :=
  modWq (hostForget s (.fetch q)) q (fun k => if k.en || !k.owned then k
    else { k with en := true, disabling := false, head := 0, tail := 0, cqTail := 0, marks := [], h := 0, waiting := [], fetched := [] })

/-- R512: a disable takes effect once no work order is dispatched; fetched descriptors are discarded. -/
def disableQueue (k : WqSt) : WqSt :=
  if !k.en then k
  else if k.disp.isSome then { k with disabling := true }
  else { k with en := false, disabling := false, fetched := [] }

/-- R512. -/
def execWqEnable (q : TileId) (sys : State) : Host.Outcome State Fault Refusal := onDev sys fun s => enableQueue s q
/-- R512. -/
def execWqDisable (q : TileId) (sys : State) : Host.Outcome State Fault Refusal := onDev sys fun s => modWq s q disableQueue
/-- R523: the host has consumed completion entries. -/
def execWqCqheadWrite (q : TileId) (v : BitVec 32) (sys : State) : Host.Outcome State Fault Refusal := onDev sys fun s =>
  modWq s q (fun k => { k with cqHead := v })

/-! ### Grain records (R650 to R655) -/

/-- The ranges of a partition's grants in ascending address order (R477, R610). -/
def grantsOf (s : Dev) (p : Nat) : List (Nat × Nat) :=
  ((List.range 4).filterMap (fun g => grantRange s (partSt s p) g)).insertionSort (fun a b => a.1 ≤ b.1)

/-- The device-physical address of an offset within the grants. -/
def grantAddr : List (Nat × Nat) → Nat → Option Nat
  | [], _ => none
  | (b, n) :: r, o => if o < n then some (b + o) else grantAddr r (o - n)

/-- The total size of the grants. -/
def grantSize (s : Dev) (p : Nat) : Nat := (grantsOf s p).foldl (fun a g => a + g.2) 0

/-- What the part read of a region of host memory: bytes and poison, or a failed read. -/
abbrev HostRegion := Option (List Byte × Bool)

/-- Entry `i` of a declaration list: kind, space, address, length, with the reserved fields (R650). -/
structure DeclEnt where
  kind : Nat
  space : Nat
  addr : Nat
  len : Nat
  bad : Bool

/-- Decode entry `i` of the list's words. -/
def declEnt (w : List Word) (i : Nat) : DeclEnt :=
  let g (k : Nat) : Word := w.getD (8 + 4 * i + k) 0
  ⟨fld (g 0) 7 0, fld (g 0) 15 8, (g 1).toNat, (g 2).toNat, fld (g 0) 63 16 != 0 || g 3 != 0⟩

/-- COUNT of the list. -/
def declCount (w : List Word) : Nat := fld (w.getD 0 0) 31 0

/-- Is an entry defective (R651)? -/
def declBad (s : Dev) (p : Nat) (e : DeclEnt) : Bool :=
  e.bad || decide (e.kind < 1) || decide (4 < e.kind) || decide (2 < e.space) || decide (e.len < 1) || decide (2 ^ 40 < e.len) ||
    (e.space == 1 && (decide (grantSize s p < e.addr + e.len) || s.knots.grade == 3)) ||
    (e.space == 2 && (decide (0x300000 < e.addr % 0x400000 + e.len) || decide (pTiles (partSt s p) ≤ e.addr / 0x400000)))

/-- Is a declaration list defective (R651)? Regions of host memory are judged as they are read. -/
def listBad (s : Dev) (p : Nat) (w : List Word) : Bool :=
  let n := declCount w
  n == 0 || decide (64 < n) || fld (w.getD 0 0) 63 32 != 0 || (List.range 7).any (fun k => w.getD (1 + k) 0 != 0) ||
    (List.range n).any (fun i => declBad s p (declEnt w i)) || !((List.range n).any (fun i => (declEnt w i).kind == 4))

/-- The bytes of a region and whether one is poisoned; `host` holds what was read of host memory. -/
def regionBytes (s : Dev) (p : Nat) (e : DeclEnt) (host : HostRegion) : Option (List Byte × Bool) :=
  match e.space with
  | 0 => host
  | 1 => some ((List.range e.len).map (fun i => match grantAddr (grantsOf s p) (e.addr + i) with
        | some a => (stackGet s a 1).headD 0 | none => 0),
      (List.range e.len).any (fun i => match grantAddr (grantsOf s p) (e.addr + i) with
        | some a => stackPoisoned s a 1 | none => false))
  | _ =>
    let x := tileOf s (tileOfRank (partSt s p) (e.addr / 0x400000))
    some (spadGet x (e.addr % 0x400000) e.len, spadPoisoned x (e.addr % 0x400000) e.len)

/-- The digests of a region's chunks of 1 MiB (R652). -/
def chunkDigests : (n : Nat) → List Byte → List Byte
  | 0, _ => []
  | n + 1, bs => sha384 (bs.take 0x100000) ++ chunkDigests n (bs.drop 0x100000)

/-- The entry digest of R652. -/
def entryDigest (e : DeclEnt) (bs : List Byte) : List Byte :=
  sha384 (BitVec.ofNat 8 e.kind :: (List.replicate 7 0 ++ leBytes 8 e.len ++ chunkDigests ((bs.length + 0xFFFFF) / 0x100000) bs))

/-- Hash the entries of a list that satisfy a test; the regions of host memory among them come in order. -/
def hashEntries (s : Dev) (p : Nat) (w : List Word) (want : DeclEnt → Bool) :
    List Nat → List HostRegion → GrainSt → GrainSt
  | [], _, g => g
  | i :: r, host, g =>
    let e := declEnt w i
    if !(want e) then hashEntries s p w want r host g
    else
      let rest := if e.space = 0 then host.drop 1 else host
      match regionBytes s p e (host.headD none) with
      | none => hashEntries s p w want r rest { g with defect := true }
      | some (bs, poison) =>
        hashEntries s p w want r rest { g with digests := mset [] g.digests i (entryDigest e bs), poison := g.poison || poison }

/-- ASCII "FLKGRAIN". -/
def grainMagic : List Byte := [0x46, 0x4C, 0x4B, 0x47, 0x52, 0x41, 0x49, 0x4E]

/-- DET_LISTEDp of the register space (R672). -/
def listedReg (p k : Nat) : Nat := 0x0D1000 + 0x40 * p + 8 * k

/-- The listed digest a partition was built with (R642). -/
def listedDigest (s : Dev) (p : Nat) : List Byte := (List.range 6).flatMap (fun k => leBytes 8 (ioGet s (listedReg p (k + 1))).toNat)

/-- The grain header (R652). -/
def grainHeader (s : Dev) (p : Nat) : List Byte :=
  let q := partSt s p
  grainMagic ++ leBytes 2 1 ++ [BitVec.ofNat 8 (b2n (pNative q)), 0] ++ leBytes 2 (pLevel q) ++
    [BitVec.ofNat 8 (pH q), BitVec.ofNat 8 (pW q)] ++ (if pNative q then listedDigest s p else List.replicate 48 0)

/-- The grain digest D (R652). -/
def grainDigest (s : Dev) (p : Nat) (w : List Word) (g : GrainSt) : List Byte :=
  sha384 (grainHeader s p ++ (List.range (declCount w)).flatMap (fun i => mget [] g.digests i))

/-- R653, R651: the declaration list and the program, weight and input regions are read and hashed before dispatch. -/
def grainInputs (s : Dev) (q : Nat) (list : Option (List Word)) (host : List HostRegion) : Dev :=
  let k := wqOf s q
  match k.fetched with
  | [] => s
  | o :: r =>
    if !(bit (o.d.getD 1 0) 8) || o.grain.checked then s
    else
      let w := list.getD []
      let bad := list.isNone || listBad s k.part w
      let g0 : GrainSt := { GrainSt.reset with entries := w, defect := bad, checked := true }
      let g := if bad then g0
        else hashEntries s k.part w (fun e => e.kind != 4) (List.range (declCount w)) host g0
      let s1 := modWq s q (fun k => { k with fetched := { o with grain := g } :: r })
      let s2 := if g.defect then raiseErr s1 (some k.part) 0x9003 4 0xFFFF none (o.d.getD 2 0).toNat 0 else s1
      if g.poison then raiseErr s2 (some k.part) 0x9004 1 0xFFFF (some (woCtx o)) 0 0 else s2

/-- R653. -/
def execGrainHashInputs (q : TileId) (list : Option (List Word)) (host : List HostRegion) (sys : State) :
    Host.Outcome State Fault Refusal := onDev sys fun s => grainInputs s q list host

/-! ### Completion (R517, R520 to R523) -/

/-- The words little-endian bytes spell, eight at a time. -/
def bytesWords (n : Nat) (bs : List Byte) : List Word := wordsOfBytes n bs

/-- A record proper (R521): the 31 words from 0x08 on. -/
def recordProper (s : Dev) (p : Nat) (o : WorkOrder) (status : Nat) (r0 r1 : Word) (dig : Option (List Byte)) : List Word :=
  let q := partSt s p
  let head : List Word :=
    [BitVec.ofNat 64 o.seq,
     BitVec.ofNat 64 (status % 2 ^ 16 + 2 ^ 16 * b2n dig.isSome + 2 ^ 17 * b2n (pNative q) + 2 ^ 32 * pLevel q),
     BitVec.ofNat 64 o.tDisp, BitVec.ofNat 64 (stamp s), r0, r1,
     (match o.charged with | some i => BitVec.ofNat 64 i | none => BitVec.allOnes 64), 0]
  match dig with
  | none => head ++ List.replicate 23 0
  | some d =>
    let signed := (head ++ bytesWords 6 d).flatMap (fun w => leBytes 8 w.toNat)
    let sig := Config.attestSignature (leNat (sha384 signed))
    head ++ bytesWords 6 d ++ (List.range 12).map (fun i => BitVec.ofNat 64 (sig / 2 ^ (64 * i))) ++ List.replicate 5 0

/-- Write a record proper to the window store (R517, R520). (log entry 49, DEDUCED) -/
def windowStore (s : Dev) (q : Nat) (k : WqSt) (seq : Nat) (rec0 : List Word) : Dev :=
  let port := pPort (partSt s k.part)
  let a := ringBase k.win + 256 * (seq % 1024)
  hostPut s (.record q none seq) port a (rec0.flatMap (fun w => leBytes 8 w.toNat)) false (.hostWrite port a rec0)

/-- DET_GRAIN_STATS (R671). -/
def grainStats : Nat := 0x0D0020

/-- A work order completes, counted where it asked for a grain record (R671): the window entry is complete, its record and one copy for each counted duplicate wait for the
completion ring (R517, R520, R523). -/
def completeOrder (s : Dev) (q : Nat) (o : WorkOrder) (status : Nat) (r0 r1 : Word) (dig : Option (List Byte)) (window : Bool) :
    Dev :=
  let k := wqOf s q
  let rp := recordProper s k.part o status r0 r1 dig
  let irq := bit (o.d.getD 1 0) 9
  let s0 := if bit (o.d.getD 1 0) 8 then (if dig.isSome then ioInc s grainStats 31 0 1 else ioInc s grainStats 63 32 1) else s
  if !window then modWq s0 q (fun k => { k with waiting := k.waiting ++ [⟨false, rp, irq⟩] })
  else
    let e := mget WinEnt.reset k.marks o.seq
    let s1 := windowStore s0 q k o.seq rp
    modWq s1 q (fun k => { k with
      marks := mset WinEnt.reset k.marks o.seq ⟨true, true, 0, rp⟩
      waiting := k.waiting ++ (⟨false, rp, irq⟩ : CqRec) :: List.replicate e.dups ⟨true, rp, false⟩ })

/-- The lowest sequence number in the window (R516). -/
def winLow (h : Nat) : Nat := if 1024 ≤ h then h - 1023 else 1

/-- A work order just fetched. -/
def newOrder (d : List Word) : WorkOrder := ⟨(d.getD 0 0).toNat, d, 0, none, false, false, GrainSt.reset⟩

/-- The checks of R515 on a new descriptor: 0 accepted, or the status it completes with. -/
def descCheck (s : Dev) (k : WqSt) (d : List Word) : Nat :=
  let c := d.getD 1 0
  if fld c 63 11 ≠ 0 ∨ (bit c 8 = (d.getD 2 0 == 0)) then 3
  else if !(ctxValid s (fld c 7 0)) || ctxPart s (fld c 7 0) != k.part then 4
  else 0

/-- An accepted sequence number is checked and held for dispatch (R515, R516). -/
def acceptOrder (s : Dev) (q : Nat) (d : List Word) (h : Nat) : Dev :=
  let o := newOrder d
  let s1 := modWq s q (fun k => { k with
    h := h, marks := mset WinEnt.reset (k.marks.filter (fun e => decide (winLow h ≤ e.1))) o.seq ⟨true, false, 0, []⟩ })
  match descCheck s1 (wqOf s1 q) d with
  | 0 => modWq s1 q (fun k => { k with fetched := k.fetched ++ [o] })
  | c => completeOrder s1 q o c 0 0 none true

/-- A fetched descriptor is judged (R516, R517). -/
def judge (s : Dev) (q : Nat) (d : List Word) : Dev :=
  let k := wqOf s q
  let o := newOrder d
  let e := mget WinEnt.reset k.marks o.seq
  if o.seq = 0 then completeOrder s q o 6 0 0 none false
  else if k.h < o.seq then acceptOrder s q d o.seq
  else if o.seq < winLow k.h then completeOrder s q o 5 0 0 none false
  else if e.accepted then
    modWq s q (fun k => { k with
      dups := satAdd 32 k.dups 1
      marks := if e.complete then k.marks else mset WinEnt.reset k.marks o.seq { e with dups := e.dups + 1 }
      waiting := if e.complete then k.waiting ++ [⟨true, e.proper, bit (o.d.getD 1 0) 9⟩] else k.waiting })
  else acceptOrder s q d k.h

/-- May a queue fetch its next descriptor (R513, R515)? -/
def mayFetch (s : Dev) (k : WqSt) : Bool :=
  !(s.hold || !k.en || k.disabling || k.head == k.tail || decide (4 ≤ k.fetched.length) || (partSt s k.part).state != 2)

/-- The next descriptor of a ring has been read; a read that failed fails the work order (R515, R489). -/
def descTaken (s : Dev) (q : Nat) (ans : Option (List Word)) : Dev :=
  let s1 := modWq s q (fun k => { k with head := k.head + 1 })
  match ans with
  | some d => judge s1 q ((List.range 16).map (fun i => d.getD i 0))
  | none => completeOrder s1 q (newOrder []) 2 0 0 none false

/-- The next descriptor of a ring is read (R515): over the link, or through the host line cache, which first asks for its lines
and then gives what they hold (R496). -/
def descFetch (s : Dev) (q : Nat) (ans : Option (List Word)) : Dev :=
  let k := wqOf s q
  let port := pPort (partSt s k.part)
  let a := ringBase k.ring + 128 * (k.head.toNat % ringLen k.ring)
  if !(mayFetch s k) then s
  else if !(hportOf s port).cache || ans.isNone then descTaken (hostRead (if ans.isNone then hostForget s (.fetch q) else s) (.fetch q) 0 port a 128) q ans
  else match hostGot s (.fetch q) port a 128 with
    | some (v, poison) => descTaken (hostForget s (.fetch q)) q (if poison then none else some (wordsOfBytes 16 v))
    | none => if hostPending s (.fetch q) then s else hostRead (hostForget s (.fetch q)) (.fetch q) 0 port a 128

/-- R515: a descriptor is fetched. -/
def execDescriptorFetch (q : TileId) (ans : Option (List Word)) (sys : State) : Host.Outcome State Fault Refusal := onDev sys fun s =>
  descFetch s q ans

/-! ### Dispatch (R518) -/

/-- A message to a tile's mailbox (R215). -/
def ringTile (s : Dev) (t : Nat) (msg : Nat) : Dev :=
  modTile s t (fun x => { x with core := { x.core with mbox := BitVec.ofNat 64 msg, ipend := setBit x.core.ipend 1 true } })

/-- R518: the oldest fetched work order is dispatched; a NOP completes, and one whose context has gone completes with CTX
(R621). -/
def execWorkOrderDispatch (q : TileId) (sys : State) : Host.Outcome State Fault Refusal := onDev sys fun s =>
  let k := wqOf s q
  match k.fetched with
    | [] => s
    | o :: r =>
      let c := o.d.getD 1 0
      let ctx := fld c 7 0
      if s.hold || k.disp.isSome || k.disabling || (partSt s k.part).state != 2 || cqFull k || !k.waiting.isEmpty ||
          (bit c 8 && !o.grain.checked) then s
      else
        let s1 := modWq s q (fun k => { k with fetched := r })
        if !(ctxValid s ctx) || ctxPart s ctx != k.part then completeOrder s1 q o 4 0 0 none true
        else if bit c 10 then completeOrder s1 q o 0 0 0 none true
        else
          let s2 := modWq s1 q (fun k => { k with
            disp := some { o with tDisp := stamp s, charged := none }, order := o.d, doneBusy := false })
          ringTile (ioSet s2 (0x0D3000 + 8 * k.part) 0) (tileOfRank (partSt s k.part) 0) (0x57510000 + q.val)

/-! ### The end of a work order (R519, R520) -/

/-- Does a tile hold engine work captured under a context (R519)? -/
def engineWork (x : Tile) (ctx : Nat) : Bool :=
  (x.me.queue.any (fun c => c.tag == ctx)) || (match x.me.run with | some (c, _) => c.tag == ctx | none => false) ||
    x.lvu.queue.any (fun e => e.ctx == ctx) || (x.lvu.spin && x.lvu.capCtx == ctx) ||
    [0, 1, 2, 3].any (fun ch => let c := chanOf x ch
      (match c.run with | some d => d.tag == ctx | none => false) || c.queue.any (fun d => d.tag == ctx))

/-- Zero the drawers of a context with RESIDENT = 0 (R520 step 4, R361). -/
def zeroContext (s : Dev) (p ctx : Nat) : Dev :=
  (membersOf (partSt s p)).foldl (fun s t => modTile s t (fun x =>
    (List.range 6).foldl (fun x d =>
      let o := drawerOwn x d
      if bit o 5 && fld o 13 6 == ctx && !(bit o 4) then wantZero x d else x) x)) s

/-- The status a dispatched work order completes with (R522, R740, R528): RESET, then LINK, then ERROR, then the
monitor's. -/
def finalStatus (o : WorkOrder) (st : Nat) : Nat :=
  if o.reset then 7 else if o.link then 9 else if o.charged.isSome || o.grain.poison then 2 else st

/-- A disable that waited for the dispatched work order takes effect (R512). -/
def settleDisable (k : WqSt) : WqSt := if k.disabling then { k with en := false, disabling := false, fetched := [] } else k

/-- The dispatched work order completes with a status (R520 steps 1 to 5, R654, R655). -/
def finishDone (s : Dev) (q st : Nat) : Dev :=
  let k := wqOf s q
  match k.disp with
  | none => s
  | some o0 =>
    let o := { o0 with link := o0.link || (hportOf s (pPort (partSt s k.part))).lost }
    let c := o.d.getD 1 0
    let status := finalStatus o st
    let grain := bit c 8
    let valid := grain && !o.grain.defect && !o.grain.poison && (status == 0 || status == 1)
    let dig := if valid then some (grainDigest s k.part o.grain.entries o.grain) else none
    let s1 := completeOrder s q o status k.res0 k.res1 dig true
    let s3 := zeroContext s1 k.part (fld c 7 0)
    modWq s3 q (fun k => settleDisable { k with disp := none, doneSt := none })

/-- The four digests of each rank of a partition, as the work-order checkpoint folds them (R659, R662). -/
def rankDigests (s : Dev) (p : Nat) : List Word :=
  (membersOf (partSt s p)).flatMap (fun t =>
    let d := (tileOf s t).dig
    let te := crc64 crcInit ([0, 1, 2, 3].flatMap (fun ch => leBytes 8 (mget crcInit d.chan ch).toNat))
    [d.core ^^^ crcInit, d.lvu ^^^ crcInit, d.me ^^^ crcInit, te ^^^ crcInit])

/-- The partition digest (R662). -/
def partDigest (l : List Word) : Word := crc64 crcInit (l.flatMap (fun w => leBytes 8 w.toNat)) ^^^ crcInit

/-- A work-order checkpoint, marked as errored or not: sent to the twin, and the completion waits for its compare (R662,
R665). -/
def woCheckpoint (s : Dev) (q : Nat) (errored : Bool) : Dev :=
  let p := s.bm.part
  let l := rankDigests s p
  let i := s.bm.wo
  sendPeer { s with bm := { s.bm with wo := i + 1, woPend := s.bm.woPend ++ [(i, q, partDigest l, l, s.time)] } } (s.lny.slot ^^^ 1)
    (.bookmatch 4 (BitVec.ofNat 64 i :: BitVec.ofNat 64 (b2n errored) :: partDigest l :: l))

/-- A dispatched work order completes with RESET, LINK or ERROR without the monitor (R528, R619, R756): the twin is sent its
checkpoint marked as errored, unless it has had one, and no compare is waited for (R665). -/
def endOrder (s : Dev) (q : Nat) (f : WorkOrder → WorkOrder) : Dev :=
  let s1 := modWq s q (fun k => { k with disp := k.disp.map f, res0 := 0, res1 := 0 })
  let sent := s1.bm.woPend.any (fun c => c.2.1 == q)
  let s2 := if s1.bm.st = 2 ∧ s1.bm.part = (wqOf s1 q).part ∧ (wqOf s1 q).disp.isSome ∧ !sent then woCheckpoint s1 q true else s1
  finishDone { s2 with bm := { s2.bm with woPend := s2.bm.woPend.filter (fun c => c.2.1 != q) } } q 2

/-- May an agent write WQ_DONEq (R519)? -/
def mayEnd (s : Dev) (agent : RegAgent) (k : WqSt) : Bool :=
  match agent with
  | .mgmt => true
  | .host port fn => fn == 0 && port.val == s.ctrlPort
  | .tile t => k.owned && (tileOf s t).member == k.part + 1 && !(isUser (tileOf s t))

/-- Will a work order complete with ERROR, RESET or LINK (R665)? -/
def orderErrs (o : WorkOrder) : Bool := o.charged.isSome || o.link || o.reset || o.grain.poison

/-- Does the grain record of an order still need output regions of host memory (R653)? -/
def needsOutputs (o : WorkOrder) : Bool :=
  bit (o.d.getD 1 0) 8 && !o.grain.defect && o.charged.isNone &&
    (List.range (declCount o.grain.entries)).any (fun i => (declEnt o.grain.entries i).kind == 4 && (declEnt o.grain.entries i).space == 0)

/-- An accepted order goes on: its output entries are hashed, then it completes or waits for its checkpoint (R520, R653, R662). -/
def endAccepted (s : Dev) (q : Nat) (host : List HostRegion) : Dev :=
  let k := wqOf s q
  match k.disp, k.doneSt with
  | some o, some st =>
    let g := if bit (o.d.getD 1 0) 8 && !o.grain.defect && o.charged.isNone then
        hashEntries s k.part o.grain.entries (fun e => e.kind == 4) (List.range (declCount o.grain.entries)) host o.grain
      else o.grain
    let s1 := modWq s q (fun k => { k with disp := some { o with grain := g } })
    let s2 := if g.poison && !o.grain.poison then raiseErr s1 (some k.part) 0x9004 1 0xFFFF (some (woCtx o)) 0 0 else s1
    if s2.bm.st = 2 ∧ s2.bm.part = k.part then woCheckpoint s2 q (((wqOf s2 q).disp.map orderErrs).getD false) else finishDone s2 q st
  | _, _ => s

/-- A write of WQ_DONEq (R519, R520). `host` holds what was read of the output regions in host memory; `none` is a write that
brings nothing: the accepted order then waits, where it needs such regions, for a WQ_DONE_WRITE that brings them. -/
def wqDone (s : Dev) (agent : RegAgent) (q : Nat) (v : Word) (host : Option (List HostRegion)) : Dev :=
  let k := wqOf s q
  match k.disp with
  | none => if mayEnd s agent k then s else raiseErr s (if k.owned then some k.part else none) 0x2006 4 0 none (0x080000 + 0x100 * q + 0x88) 0
  | some o =>
    if !(mayEnd s agent k) then raiseErr s (some k.part) 0x2006 4 0 none (0x080000 + 0x100 * q + 0x88) 0
    else if k.doneSt.isSome then
      match host with
      | some h => if s.bm.woPend.any (fun c => c.2.1 == q) then s else endAccepted s q h
      | none => s
    else if (membersOf (partSt s k.part)).any (fun t => engineWork (tileOf s t) (woCtx o)) then modWq s q (fun k => { k with doneBusy := true })
    else
      let st := match fld v 15 0 with | 0 => 0 | 8 => 8 | _ => 1
      let s1 := modWq s q (fun k => { k with doneSt := some st, doneBusy := false })
      match host with
      | some h => endAccepted s1 q h
      | none => if needsOutputs o then s1 else endAccepted s1 q []

/-- R519. -/
def execWqDoneWrite (agent : RegAgent) (q : TileId) (v : Word) (host : List HostRegion) (sys : State) :
    Host.Outcome State Fault Refusal := onDev sys fun s => wqDone s agent q v (some host)

/-! ### Completion records (R523, R524) -/

/-- Is the error record a completion record names still to be written (R747)? -/
def awaitsError (s : Dev) (k : WqSt) (r : CqRec) : Bool :=
  let i := r.proper.getD 6 0
  let ring := mget RingSt.reset s.rings k.part
  bit ring.w1 0 && !ring.held && ring.queue.any (fun e => BitVec.ofNat 64 e.index == i)

/-- The oldest waiting record is written when the ring has space and the link is up (log entry 51, DEDUCED); its MSI-X message follows when the record is visible (R523,
R524). -/
def completionWrite (s : Dev) (q : Nat) : Dev :=
  let k := wqOf s q
  match k.waiting with
    | [] => s
    | r :: rest =>
      if !k.en || cqFull k || awaitsError s k r || !(hportOf s (pPort (partSt s k.part))).dlUp then s
      else
        let n := ringLen k.cq
        let i := k.cqTail.toNat % n
        let phase := 1 - k.cqTail.toNat / n % 2
        let port := pPort (partSt s k.part)
        let w : Word := BitVec.ofNat 64 (phase + 2 * b2n r.dup + 2 ^ 16 * i)
        let a := ringBase k.cq + 256 * i
        let msix := if r.irq then some (port, pFunc (partSt s k.part), queueIndex s k.part q) else none
        hostPut (modWq s q (fun k => { k with cqTail := k.cqTail + 1, waiting := rest })) (.record q msix (2 ^ 64 + k.cqTail.toNat)) port a
          ((w :: r.proper).flatMap (fun v => leBytes 8 v.toNat)) false (.hostWrite port a (w :: r.proper))

/-- R523: the oldest waiting record of a queue. -/
def execCompletionRecordWrite (q : TileId) (sys : State) : Host.Outcome State Fault Refusal := onDev sys fun s => completionWrite s q

end Sys2Proof.Machine
end

