-- ==== Sys2Proof/Machine/Bookmatch.lean ====
section
/-! DEFINITION. Bookmatch (R656 to R668): pairing with the twin, checkpoints and their compare, divergence, and its end. -/

namespace Sys2Proof.Machine
open Sys2Proof

/-- The twin's slot (R576). -/
def twinSlot (s : Dev) : Nat := s.lny.slot ^^^ 1
/-- Change the bookmatch state. -/
def modBm (s : Dev) (f : BmSt → BmSt) : Dev := { s with bm := f s.bm }
/-- Change the digests of every member tile of a partition. -/
def modDigs (s : Dev) (p : Nat) (f : Digests → Digests) : Dev :=
  (membersOf (partSt s p)).foldl (fun s t => modTile s t (fun x => { x with dig := f x.dig })) s

/-- Take the oldest bookmatch message of some kinds. -/
def takeBm (s : Dev) (kinds : List Nat) : Option (Nat × List Word × Dev) :=
  match takeCtl s (fun e => match e.2 with | .bookmatch k _ => kinds.contains k && e.1 == twinSlot s | _ => false) with
  | some ((_, .bookmatch k d), s1) => some (k, d, s1)
  | _ => none

/-! ### Start (R656, R657) -/

/-- HELLO of a partition: its number, the twin's, H, W, mode, level, the listed digest in native mode. -/
def helloOf (s : Dev) : List Word :=
  let q := partSt s s.bm.part
  let n (k : Nat) : Word := BitVec.ofNat 64 k
  [n s.bm.part, n s.bm.twinPart, n (pH q), n (pW q), n (b2n (pNative q)), n (pLevel q)] ++
    (if pNative q then (List.range 6).map (fun k => ioGet s (listedReg s.bm.part (k + 1))) else [])

/-- The local check of a start: 0, or the REASON (R656). -/
def bmLocal (s : Dev) (p : Nat) : Nat :=
  if (partSt s p).state ≠ 2 ∨ s.wqs.any (fun e => e.2.owned && e.2.part == p && e.2.disp.isSome) then 1
  else if (lportOf s 12).st ≠ 2 ∧ (lportOf s 13).st ≠ 2 then 2 else 0

/-- The check of the twin's HELLO against this part's: 0, or the REASON. -/
def bmCheck (mine theirs : List Word) : Nat :=
  let g (l : List Word) (k : Nat) : Word := l.getD k 0
  if g mine 2 ≠ g theirs 2 ∨ g mine 3 ≠ g theirs 3 then 3
  else if g mine 4 ≠ g theirs 4 ∨ g mine 5 ≠ g theirs 5 then 4
  else if mine.drop 6 ≠ theirs.drop 6 then 5 else 0

/-- A HELLO held that mirrors this part's own is checked and answered (R657 step 2). -/
def bmAnswer (s : Dev) : Dev :=
  match s.bm.hello with
  | none => s
  | some h =>
    if s.bm.st ≠ 1 ∨ s.bm.readySent ∨ h.getD 0 0 ≠ BitVec.ofNat 64 s.bm.twinPart ∨ h.getD 1 0 ≠ BitVec.ofNat 64 s.bm.part then s
    else
      let c := if bmLocal s s.bm.part ≠ 0 then bmLocal s s.bm.part else bmCheck (helloOf s) h
      let s1 := sendPeer s (twinSlot s) (.bookmatch 1 [BitVec.ofNat 64 c])
      if c = 0 then modBm s1 (fun b => { b with readySent := true, hello := none })
      else modBm s1 (fun b => { b with st := 5, reason := c, hello := none })

/-- A write of START (R656, R657); a part that waits or is active keeps its bookmatch. (log entry 50, DEDUCED) -/
def bmStart (s : Dev) (p twin : Nat) : Dev :=
  if s.bm.st = 1 ∨ s.bm.st = 2 then s
  else
    let s1 := modBm s (fun b => { b with part := p, twinPart := twin, reason := 0, readySent := false })
    match bmLocal s1 p with
    | 0 =>
      let s2 := modBm s1 (fun b => { b with st := 1, sentAt := s.time })
      bmAnswer (sendPeer s2 (twinSlot s) (.bookmatch 0 (helloOf s2)))
    | c => modBm s1 (fun b => { b with st := 5, reason := c })

/-- R657 step 1: START of DET_BM_CTL. -/
def execBmStart (part twin : Fin 128) (sys : State) : Host.Outcome State Fault Refusal := onDev sys fun s => bmStart s part twin

/-- R657: a HELLO arrives and is held until it mirrors this part's own. -/
def execBmHello (sys : State) : Host.Outcome State Fault Refusal := onDev sys fun s =>
  match takeBm s [0] with
    | some (_, d, s1) => bmAnswer (modBm s1 (fun b => { b with hello := some d }))
    | none => s

/-- R656: the twin's HELLO has not come within 100 ms. -/
def execBmHelloTimeout (sys : State) : Host.Outcome State Fault Refusal := onDev sys fun s =>
  if s.bm.st = 1 ∧ !s.bm.readySent ∧ s.bm.sentAt + 100000000 ≤ s.time then modBm s (fun b => { b with st := 5, reason := 6 }) else s

/-- Arm (R657 step 3). -/
def bmArm (s : Dev) : Dev :=
  let s1 := modDigs s s.bm.part (fun d => { Digests.reset with armed := true, hist := d.hist })
  modBm s1 (fun b => { b with st := 2, woDone := 0, wo := 0, woPend := [], early := [], inc := (ltxOf s (twinSlot s)).inc })

/-- R657 step 3: READY or a refusal arrives. -/
def execBmReady (sys : State) : Host.Outcome State Fault Refusal := onDev sys fun s =>
  match takeBm s [1] with
    | some (_, d, s1) =>
      let c := (d.getD 0 0).toNat
      if s1.bm.st ≠ 1 then s1
      else if c ≠ 0 then modBm s1 (fun b => { b with st := 5, reason := c })
      else
        let s2 := if s1.bm.readySent then s1 else sendPeer s1 (twinSlot s1) (.bookmatch 1 [0])
        bmArm s2
    | none => s

/-! ### The end (R668) -/

/-- The digests stop; pending compares are dropped and the orders that waited for one complete with their own status. -/
def bmQuiet (s : Dev) : Dev :=
  let s1 := modDigs s s.bm.part (fun d => { d with armed := false, pending := [] })
  let ps := s1.bm.woPend
  let s2 := modBm s1 (fun b => { b with woPend := [], early := [] })
  ps.foldl (fun s e => finishDone s e.2.1 (((wqOf s e.2.1).doneSt).getD 0)) s2

/-- Bookmatch ends on this part: END is sent, a notice recorded (R668, ID 0x9002). -/
def bmEnd (s : Dev) (st : Nat) (tell : Bool) : Dev :=
  if s.bm.st = 1 ∨ s.bm.st = 2 then
    let s1 := if tell then sendPeer s (twinSlot s) (.bookmatch 2 []) else s
    modBm (bmQuiet (raiseErr s1 (some s.bm.part) 0x9002 4 0xFFFF none 0 0)) (fun b => { b with st := st })
  else s

/-- R668: STOP of DET_BM_CTL. -/
def execBmStop (sys : State) : Host.Outcome State Fault Refusal := onDev sys fun s => bmEnd s 0 true

/-- R668: the twin has ended, its ports have left routing, or its incarnation has changed. -/
def execBmLost (sys : State) : Host.Outcome State Fault Refusal := onDev sys fun s =>
  match takeBm s [2] with
    | some (_, _, s1) => bmEnd s1 4 false
    | none =>
      if (!(inRouting s 12) && !(inRouting s 13)) || (s.bm.st == 2 && s.bm.inc != (ltxOf s (twinSlot s)).inc) then bmEnd s 4 true else s

/-- A partition's reset, repair, retirement or teardown ends its bookmatch (R668). -/
def bmPartEnd (s : Dev) (p : Nat) : Dev := if s.bm.part = p then bmEnd s 0 true else s

/-! ### Compare (R663 to R666) -/

/-- R664: a divergence: kind 0 core, 1 work order, 2 TIMEOUT, 3 TWIN_ERROR; rank and checkpoint index. -/
def bmDiverge (s : Dev) (kind rank idx : Nat) : Dev :=
  let p := s.bm.part
  let t := tileOfRank (partSt s p) rank
  let hist := (tileOf s t).dig.hist
  let s1 := ioSet s 0x0D0018 (BitVec.ofNat 64 (t + 2 ^ 8 * rank + 2 ^ 16 * kind + 2 ^ 32 * (idx % 2 ^ 32)))
  let s2 := (List.range 64).foldl (fun s i =>
    let r := hist.getD i ⟨0, 0, 0, 0⟩
    ioSet (ioSet s (0x0D0400 + 16 * i) (BitVec.ofNat 64 (r.typ + 2 ^ 8 * r.idx + 2 ^ 16 * (r.addr % 2 ^ 48)))) (0x0D0408 + 16 * i) r.val) s1
  let ctx := ((s.wqs.find? (fun e => e.2.owned && e.2.part == p && e.2.disp.isSome)).bind (fun e => e.2.disp)).map woCtx
  let s3 := raiseErr s2 (some p) 0x9001 1 0xFFFF ctx 0 (idx + 2 ^ 32 * kind)
  modBm (bmQuiet s3) (fun b => { b with st := 3 })

/-- The lowest rank whose four digests differ (R664). -/
def rankDiffers (a b : List Word) : Nat := (((List.range (a.length / 4)).find? (fun r => (a.drop (4 * r)).take 4 != (b.drop (4 * r)).take 4)).getD 0)

/-- How an early counterpart compares: none while the local checkpoint has not come; else whether it fails, with kind,
rank and index. -/
def bmJudge (s : Dev) (e : Nat × List Word) : Option (Bool × Nat × Nat × Nat) :=
  if e.1 = 3 then
    let rank := (e.2.getD 0 0).toNat
    let idx := (e.2.getD 1 0).toNat
    ((tileOf s (tileOfRank (partSt s s.bm.part) rank)).dig.pending.find? (fun c => c.1 == idx)).map (fun c => (c.2.1 != e.2.getD 2 0, 0, rank, idx))
  else
    let idx := (e.2.getD 0 0).toNat
    let bad := e.2.getD 1 0 != 0
    (s.bm.woPend.find? (fun c => c.1 == idx)).map (fun c =>
      let l := e.2.drop 3
      (bad || c.2.2.1 != e.2.getD 2 0, if bad then 3 else 1, rankDiffers c.2.2.2.1 l, idx))

/-- A compare that succeeded completes its checkpoint. -/
def bmAgree (s : Dev) (e : Nat × List Word) : Dev :=
  let s0 := modBm s (fun b => { b with early := b.early.erase e })
  if e.1 = 3 then
    let t := tileOfRank (partSt s s.bm.part) (e.2.getD 0 0).toNat
    modTile s0 t (fun x => { x with dig := { x.dig with pending := x.dig.pending.filter (fun c => c.1 != (e.2.getD 1 0).toNat) } })
  else match s.bm.woPend.find? (fun c => c.1 == (e.2.getD 0 0).toNat) with
    | some c =>
      let s1 := modBm s0 (fun b => { b with woDone := BitVec.ofNat 32 (satAdd 32 b.woDone.toNat 1), woPend := b.woPend.erase c })
      finishDone s1 c.2.1 (((wqOf s1 c.2.1).doneSt).getD 0)
    | none => s0

/-- Every counterpart that has arrived joins those that wait. -/
def bmGather : (n : Nat) → Dev → Dev
  | 0, s => s
  | n + 1, s => match takeBm s [3, 4] with
    | some (k, d, s1) => bmGather n (modBm s1 (fun b => { b with early := b.early ++ [(k, d)] }))
    | none => s

/-- The order in which failed compares of one cycle decide (R663): lowest work-order index, then lowest rank. -/
def bmFirst (l : List (Nat × Nat × Nat)) : Option (Nat × Nat × Nat) :=
  let wo := l.filter (fun e => e.1 == 1 || e.1 == 3)
  if wo.isEmpty then (l.insertionSort (fun a b => a.2.1 ≤ b.2.1)).head? else (wo.insertionSort (fun a b => a.2.2 ≤ b.2.2)).head?

/-- R663: the checkpoints whose counterparts have come are compared. -/
def execCheckpointCompare (sys : State) : Host.Outcome State Fault Refusal := onDev sys fun s =>
  if s.bm.st ≠ 2 then s
    else
      let s1 := bmGather s.lny.ctl.length s
      let judged := s1.bm.early.filterMap (fun e => (bmJudge s1 e).map (fun j => (e, j)))
      match bmFirst ((judged.filter (fun j => j.2.1)).map (fun j => j.2.2)) with
      | some (kind, rank, idx) => bmDiverge s1 kind rank idx
      | none => judged.foldl (fun s j => bmAgree s j.1) s1

/-- DET_BM_TMO in ns: 10 ms at reset, 0 acts as 1 (R669). -/
def bmTmo (s : Dev) : Nat := max 1 (fld (ioGet s 0x0D0010 ^^^ 10) 15 0) * 1000000

/-- R666: the counterpart of a checkpoint is missing at the timeout: of the core of a rank, or of the oldest work-order
checkpoint. -/
def execBmCheckpointTimeout (rank : Option TileId) (sys : State) : Host.Outcome State Fault Refusal := onDev sys fun s =>
  if s.bm.st ≠ 2 then s
    else match rank with
    | some r =>
      match (tileOf s (tileOfRank (partSt s s.bm.part) r)).dig.pending with
      | c :: _ => if r.val < pTiles (partSt s s.bm.part) ∧ c.2.2 + bmTmo s ≤ s.time then bmDiverge s 2 r c.1 else s
      | [] => s
    | none => match s.bm.woPend with
      | c :: _ => if c.2.2.2.2 + bmTmo s ≤ s.time then bmDiverge s 2 0 c.1 else s
      | [] => s

end Sys2Proof.Machine
end

