-- ==== Sys2Proof/Machine/Rings.lean ====
section
/-! DEFINITION. The error rings (R745 to R751), the error registers (R759) and AER messages (R752). -/

namespace Sys2Proof.Machine
open Sys2Proof

/-- A partition's ring. -/
def ringOf (s : Dev) (p : Nat) : RingSt := mget RingSt.reset s.rings p

/-- The 64 bytes of a record (R746), after its ring word's PHASE and LOST; `dropped` is the count it carries. -/
def recordWords (s : Dev) (e : ErrRec) (phase : Nat) (dropped : Nat) : List Word :=
  let flags := b2n e.ctx.isSome + 2 * b2n e.queue.isSome + 4 * b2n e.esc + 8 * b2n e.summary
  [BitVec.ofNat 64 (phase + 2 * b2n (dropped != 0) + 2 ^ 32 * (e.index % 2 ^ 32)),
   BitVec.ofNat 64 (e.id + 2 ^ 16 * e.cls + 2 ^ 24 * flags + 2 ^ 32 * e.ctx.getD 0 + 2 ^ 40 * e.queue.getD 0 + 2 ^ 48 * (e.unit % 2 ^ 16)),
   BitVec.ofNat 64 e.time, BitVec.ofNat 64 e.seq, BitVec.ofNat 64 e.addr, BitVec.ofNat 64 e.detail,
   BitVec.ofNat 64 (e.count + 2 ^ 32 * s.lny.inc.toNat), BitVec.ofNat 64 dropped]

/-- The records a ring holds: 2^SIZE (R745, R759). -/
def ringSlots (r : RingSt) : Nat := 2 ^ (6 + min 10 (fld r.w0 3 0))

/-- Is a ring full (R749)? -/
def ringFull (r : RingSt) : Bool := decide ((r.tail - r.head).toNat = ringSlots r)

/-- The oldest record that waits is written, or dropped where the ring is full (R747, R749). A disabled ring keeps it; where
the link is down, records are held until the ring is enabled again (ch. 22, seams). -/
def ringRecord (s : Dev) (p : Nat) : Dev :=
  let r := ringOf s p
  let port := pPort (partSt s p)
  match r.queue with
  | [] => s
  | e :: rest =>
    if !(bit r.w1 0) || r.held then s
    else if !(hportOf s port).dlUp then modRing s p (fun r => { ringHold r with held := true })
    else if ringFull r then modRing s p (fun r => { r with queue := rest, w1 := incFld r.w1 47 32 1 })
    else
      let n := ringSlots r
      let d := fld r.w1 47 32
      let words := recordWords s e (1 - r.tail.toNat / n % 2) d
      let a := fld r.w0 63 12 * 4096 + 64 * (r.tail.toNat % n)
      hostPut (modRing s p (fun r => { r with
          queue := rest, tail := r.tail + 1, w1 := setFld r.w1 47 32 0
          msiPend := r.msiPend || (bit r.w1 1 && decide (1 ≤ e.cls)) }))
        (.ring p) port a (words.flatMap (fun w => leBytes 8 w.toNat)) false (.hostWrite port a words)

/-- R747: a record is written to its partition's ring. -/
def execErrorRingRecord (p : Fin 128) (sys : State) : Host.Outcome State Fault Refusal := onDev sys fun s => ringRecord s p

/-- Write every record that waits. -/
def ringRecords : (n : Nat) → Dev → (p : Nat) → Dev
  | 0, s, _ => s
  | n + 1, s, p => ringRecords n (ringRecord s p) p

/-- R749: enabling a ring starts its counters again and writes the held records. -/
def ringEnable (s : Dev) (p : Nat) : Dev :=
  if bit (ringOf s p).w1 0 then s
  else
    let s1 := modRing s p (fun r => { r with w1 := setBit r.w1 0 true, tail := 0, head := 0, held := false })
    ringRecords (ringOf s1 p).queue.length s1 p

/-- R749. -/
def execErrorRingEnable (p : Fin 128) (sys : State) : Host.Outcome State Fault Refusal := onDev sys fun s => ringEnable s p

/-- The four words of ERR_RINGp as written (R745, R759): base and size only while EN is 0. -/
def ringWrite (s : Dev) (p k : Nat) (v : Word) : Dev :=
  let r := ringOf s p
  match k with
  | 0 => if bit r.w1 0 then s else modRing s p (fun r => { r with w0 := v &&& 0xFFFFFFFFFFFFF00F })
  | 1 =>
    let en := bit v 0
    let s1 := modRing s p (fun r => { r with
      w1 := setFld (setBit (BitVec.ofNat 64 (fld v 13 0)) 0 (bit r.w1 0)) 47 32 (fld r.w1 47 32) })
    if en then ringEnable s1 p else if bit r.w1 0 then modRing s1 p ringOff else s1
  | 3 => modRing s p (fun r => { r with head := v.truncate 32 })
  | _ => s

/-- The four words of ERR_RINGp as read. -/
def ringRead (r : RingSt) (k : Nat) : Word :=
  match k with
  | 0 => r.w0
  | 1 => r.w1
  | 2 => r.tail.zeroExtend 64
  | _ => r.head.zeroExtend 64

/-- A summary record of corrected errors (R748). -/
def summaryOf (s : Dev) (p : Option Nat) (key n : Nat) : ErrRec :=
  { part := p, index := 0, id := key / 65536, cls := 0, ctx := none, queue := none, esc := false, summary := true
    unit := key % 65536, time := stamp s, seq := 0, addr := 0, detail := 0, count := n }

/-- The summaries of a partition's window enter its ring while CORR_EN is 1; a new window starts (R748). -/
def ringSummary (s : Dev) (p : Nat) : Dev :=
  let r := ringOf s p
  let s1 := modRing s p (fun r => { r with corr := [] })
  if !(bit r.w1 2) then s1
  else r.corr.foldl (fun s e => modRing s p (fun q => ringPush q { summaryOf s (some p) e.1 e.2 with index := q.index })) s1

/-- The summaries of the last 100 ms enter stream 2 of the management log (R748). -/
def logSummary (s : Dev) : Dev :=
  { s with corrLog := [], logPend := s.logPend ++ s.corrLog.map (fun e => summaryOf s none e.1 e.2) }

/-- R748: the end of a 1 ms window of the rings, or of a 100 ms window of the management log. -/
def execCorrectedSummaryWindow (log : Bool) (sys : State) : Host.Outcome State Fault Refusal := onDev sys fun s =>
  if log then logSummary s else s.rings.foldl (fun s e => ringSummary s e.1) s

/-- R751: the ring's MSI-X message, at most one in 10 µs, once its records are visible (R483). -/
def execErrorRingMsix (p : Fin 128) (sys : State) : Host.Outcome State Fault Refusal := onDev sys fun s =>
  let r := ringOf s p
  let due := match r.msiAt with | some t => decide (t + 10000 ≤ s.time) | none => true
  if r.msiPend && due && !(hostPending s (.ring p)) then
      sendMsix (modRing s p (fun r => { r with msiPend := false, msiAt := some s.time })) (pPort (partSt s p)) (pFunc (partSt s p)) (fld r.w1 13 3)
    else s

/-! ### AER (R752) -/

/-- AER errors: 0 link error, 1 Poisoned TLP, 2 Completion Timeout, 3 Unsupported Request, 4 Completer Abort, 5
Uncorrectable Internal Error. -/
def aer (s : Dev) (port fn kind : Nat) (hdr : List Word) : Dev := send s (.aer port fn kind hdr)

/-- The header log of an internal error: the record's first 16 bytes. -/
def aerHeader (s : Dev) (e : ErrRec) : List Word := (recordWords s e 0 0).take 2

/-- The record last created for a partition. -/
def lastRec (s : Dev) (p : Nat) : Option ErrRec := s.logPend.reverse.find? (fun e => e.part == some p)

/-- A class-2 error is reported on the function of its partition. -/
def aerPart (s : Dev) (p : Nat) : Dev :=
  match lastRec s p with
  | some e => aer s (pPort (partSt s p)) (pFunc (partSt s p)) 5 (aerHeader s e)
  | none => s

end Sys2Proof.Machine
end

