-- ==== Sys2Proof/Machine/Partitions.lean ====
section
/-! DEFINITION. Partitions (R608 to R621, R635): the commands and their checks, build, reset and teardown. -/

namespace Sys2Proof.Machine
open Sys2Proof

/-! ### What a request names (R635) -/

/-- PART_REQi. -/
def reqReg (i : Nat) : Nat := 0x0C0040 + 8 * i
/-- The request as a definition. -/
def reqPart (s : Dev) : PartSt :=
  { PartSt.reset with w := (List.range 10).foldl (fun m i => mset 0 m i (ioGet s (reqReg i))) [] }
/-- PART of the request. -/
def reqNum (s : Dev) : Nat := fld (ioGet s (reqReg 0)) 6 0
/-- The clamp channels a definition names. -/
def defClamps (q : PartSt) : List Nat := (List.range 16).filter (fun c => bit (defW q 1) c)
/-- The queues a definition names. -/
def defQueues (q : PartSt) : List Nat := (List.range 256).filter (fun i => bit (defW q (2 + i / 64)) (i % 64))
/-- The Lenys weight. -/
def defLweight (q : PartSt) : Nat := fld (defW q 1) 23 16

/-- A grant of a definition: set, offset and size in bytes, exclusive (R610). -/
structure GrantDef where
  set : Nat
  off : Nat
  len : Nat
  excl : Bool

/-- Grant `g` of a definition, where present. -/
def grantDef (q : PartSt) (g : Nat) : Option GrantDef :=
  let w := defW q (6 + g)
  if bit w 0 then some ⟨fld w 7 1, fld w 24 8 * 0x200000, fld w 41 25 * 0x200000, bit w 42⟩ else none
/-- The grants of a definition with their numbers. -/
def grantDefs (q : PartSt) : List (Nat × GrantDef) := (List.range 4).filterMap (fun g => (grantDef q g).map (fun d => (g, d)))

/-- The partitions that are defined. -/
def definedParts (s : Dev) : List Nat := (s.parts.filter (fun e => e.2.valid)).map (·.1)

/-! ### The checks of a BUILD (R614) -/

/-- Does a shape break R608, or is a reserved bit set (R635)? -/
def shapeBad (q : PartSt) : Bool :=
  decide (16 < pRow0 q + pH q) || decide (16 < pCol0 q + pW q) || decide (pTiles q < 2) || fld (defW q 0) 47 33 != 0 ||
    fld (defW q 1) 63 32 != 0 || (List.range 4).any (fun g => fld (defW q (6 + g)) 63 43 != 0)

/-- Is a host function there and enabled (R471)? -/
def fnExists (s : Dev) (port fn : Nat) : Bool :=
  fn == 0 || ((hportOf s port).vfEn && decide (fn ≤ (hportOf s port).numVfs))

/-- The first offending resource: a clamp channel, a queue, the function, the Lenys weight, the tile monitor (R614, R628). -/
def resourceBad (s : Dev) (p : Nat) (q : PartSt) : Option Nat :=
  match (defClamps q).find? (fun c => (clampOf s c).valid) with
  | some c => some c
  | none => match (defQueues q).find? (fun i => (wqOf s i).owned) with
    | some i => some i
    | none =>
      if !(fnExists s (pPort q) (pFunc q)) || (definedParts s).any (fun r => r != p && pPort (partSt s r) == pPort q && pFunc (partSt s r) == pFunc q)
      then some (pFunc q)
      else if defLweight q = 0 then some 0
      else if !s.mgmt.tmOk then some 0xFF else none

/-- Do two grants share memory? -/
def grantsMeet (a b : GrantDef) : Bool := a.set == b.set && (a.excl || b.excl || (decide (a.off < b.off + b.len) && decide (b.off < a.off + a.len)))

/-- The first grant that breaks R610. -/
def grantBad (s : Dev) (p : Nat) (q : PartSt) : Option Nat :=
  let others := ((definedParts s).filter (fun r => decide (r ≠ p))).flatMap (fun r => (grantDefs (partSt s r)).map (·.2))
  ((grantDefs q).find? (fun e =>
    let d := e.2
    s.knots.grade == 3 || !(setValid s d.set) || d.len == 0 || decide (setSize s d.set < d.off + d.len) ||
      (d.excl && !(d.off == 0 && d.len == setSize s d.set)) || others.any (grantsMeet d) ||
      ((grantDefs q).any (fun f => decide (f.1 < e.1) && grantsMeet d f.2)))).map (·.1)

/-- Does the management firmware run (R713, R714)? (log entry 33, DEDUCED) -/
def fwUp (s : Dev) : Bool := s.mgmt.stage != 14 && decide (2 ≤ s.mgmt.stage)

/-- The numerics levels the firmware implements (R342, R614). (log entry 31, DEDUCED) -/
def levelOk (n : Nat) : Bool := n == 1

/-- The check of a BUILD: its code and DETAIL (R614). -/
def buildCheck (s : Dev) : Nat × Nat :=
  let q := reqPart s
  let p := reqNum s
  if shapeBad q then (2, 0)
  else if (partSt s p).state ≠ 0 then (3, 0)
  else match (membersOf q).find? (fun t => (tileOf s t).member != 0) with
    | some t => (5, t)
    | none => match (membersOf q).find? (fun t => physOf s t == 0x1FF) with
      | some t => (6, t)
      | none => match resourceBad s p q with
        | some d => (7, d)
        | none => match grantBad s p q with
          | some g => (8, g)
          | none => if levelOk (pLevel q) then (0, 0) else (9, 0)

/-! ### Holds (R615) -/

/-- The partitions that a field repair is rebuilding. -/
def repairParts (s : Dev) : List Nat := s.knots.jobs.flatMap (fun j => j.parts)
/-- The logical tiles held by field repairs. -/
def heldTiles (s : Dev) : List Nat :=
  s.knots.jobs.map (fun j => j.col / 16 * 128 + j.lrow * 16 + j.col % 16) ++ (repairParts s).flatMap (fun p => membersOf (partSt s p))

/-- Does a released grant that is still being zeroed meet a grant? -/
def zeroingMeets (s : Dev) (d : GrantDef) : Bool :=
  let a := setBase s d.set + d.off
  s.zeroing.any (fun z => decide (z.2.1 < a + d.len) && decide (a < z.2.1 + z.2.2))

/-- Is a command on a definition held? -/
def commandHeld (s : Dev) (q : PartSt) : Bool :=
  let held := repairParts s
  (membersOf q).any (fun t => (heldTiles s).contains t) ||
    (defClamps q).any (fun c => (clampOf s c).valid && held.contains (clampOf s c).part) ||
    (grantDefs q).any (fun e => zeroingMeets s e.2 ||
      held.any (fun p => (grantDefs (partSt s p)).any (fun f => grantsMeet e.2 f.2)))

/-! ### Stopping (R619, R621) -/

/-- What started a reset: 0 software, 1 a partition-fatal error or a field repair, 2 a function-level reset, 3 a host-port
self-reset. -/
abbrev StopKind := Nat

/-- Registered waits on a partition's dowels end broken (R385). -/
def breakWaits (s : Dev) (p : Nat) : Dev :=
  let ms := membersOf (partSt s p)
  let gone := s.waiters.filter (fun w => ms.contains w.tile)
  (gone.filter (fun w => w.peer.isSome)).foldl (fun s w => wakeOne s w false)
    { s with waiters := s.waiters.filter (fun w => !(ms.contains w.tile)) }

/-- The slots named in a partition's bindings (R593). -/
def boundSlots (s : Dev) (p : Nat) : List Nat :=
  (((List.range 2048).filter (fun i => bit (bindW s i 0) 0 && fld (bindW s i 0) 8 2 == p)).map (fun i => fld (bindW s i 0) 16 9)).dedup

/-- Build notices to every part named in the bindings (R593). -/
def buildNotices (s : Dev) (p : Nat) : Dev :=
  (boundSlots s p).foldl (fun s d => sendPeer s d (.buildNotice p (partSt s p).build)) s

/-- The writes of the members that are under way are performed or refused: stores to other tiles and to stacked memory (R619
step 5). -/
def finishWrites (s : Dev) (ms : List Nat) : Dev :=
  let s1 := (s.mesh.filter (fun m => ms.contains m.src)).foldl storeArrives
    { s with mesh := s.mesh.filter (fun m => !(ms.contains m.src)) }
  (s1.hbm.inq.filter (fun q => ms.contains q.tile)).foldl (fun s q => stackPut s q.addr q.data)
    (modHbm s1 (fun h => { h with inq := h.inq.filter (fun q => !(ms.contains q.tile)) }))

/-- The members' writes under way end, their cores and engines are reset and the build number goes up (R619 steps 5 and
6). -/
def resetMembers (s : Dev) (p : Nat) : Dev :=
  let ms := membersOf (partSt s p)
  modPart (ms.foldl resetTile (finishWrites s ms)) p (fun q => { q with build := q.build + 1 })

/-- Dispatched work orders complete with RESET (R619 step 1, R621 step 1). -/
def endOrders (s : Dev) (p : Nat) : Dev :=
  (queuesOf s p).foldl (fun s q => endOrder s q (fun w => { w with reset := true })) s

/-- Members halt, barriers are aborted, waits broken and peers told (R619 steps 2 to 4). -/
def quiesce (s : Dev) (p : Nat) : Dev :=
  let s1 := (membersOf (partSt s p)).foldl haltTile s
  buildNotices (breakWaits (clampAbort s1 p) p) p

/-- The contexts of a partition (R622). -/
def ctxsOf (s : Dev) (p : Nat) : List Nat := (List.range 256).filter (fun n => ctxValid s n && ctxPart s n == p)
/-- Every context of a partition becomes invalid (R619 step 7, R621 step 7). -/
def dropContexts (s : Dev) (p : Nat) : Dev := (ctxsOf s p).foldl ctxInvalidate s

/-- A drawer is released: RESIDENT and CTX_V cleared, zeroed unless clean (R361, R619 step 7, R621 step 8). (log entry 45, DEDUCED) -/
def releaseDrawer (x : Tile) (d : Nat) : Tile :=
  wantZero (modDr x (fun r => { r with own := mset 7 r.own d (setFld (drawerOwn x d) 5 4 0) })) d
/-- A drawer as a build leaves it: the three ports own it, PRIVATE, RESIDENT and CTX_V clear (R617 step 3). -/
def buildDrawer (x : Tile) (d : Nat) : Tile :=
  wantZero (modDr x (fun r => { r with own := mset 7 r.own d (setFld (drawerOwn x d) 5 0 7) })) d

/-- Does a drawer keep its ownership in a reset by software (R617 step 3)? -/
def drawerStays (s : Dev) (p : Nat) (x : Tile) (d : Nat) : Bool :=
  let o := drawerOwn x d
  bit o 4 && bit o 5 && ctxValid s (fld o 13 6) && ctxPart s (fld o 13 6) == p

/-- The drawers of a partition are released, but those that stay in a software reset. -/
def releaseDrawers (s : Dev) (p : Nat) (kind : StopKind) : Dev :=
  (membersOf (partSt s p)).foldl (fun s t => modTile s t (fun x =>
    (List.range 6).foldl (fun x d => if kind = 0 && drawerStays s p x d then x else releaseDrawer x d) x)) s

/-- The drawers of a partition as a build or rebuild leaves them (R617 step 3). -/
def buildDrawers (s : Dev) (p : Nat) (new : Bool) : Dev :=
  (membersOf (partSt s p)).foldl (fun s t => modTile s t (fun x =>
    (List.range 6).foldl (fun x d => if !new && drawerStays s p x d then x else buildDrawer x d) x)) s

/-- A queue at its reset values that keeps its owner: a host-port self-reset leaves the queues empty (R492, R770). -/
def emptyQueue (k : WqSt) : WqSt :=
  { WqSt.reset with owned := k.owned, part := k.part, port := k.port, func := k.func }

/-- A queue that a build takes or a teardown frees is disabled; its configuration stays (R617 step 5, R619 step 9). -/
def idleQueue (k : WqSt) : WqSt :=
  { k with en := false, disabling := false, head := 0, tail := 0, cqTail := 0, marks := [], h := 0, waiting := [],
           fetched := [], disp := none, doneSt := none }

/-- R621: a partition stops and is cleared. -/
def stopPart (s : Dev) (p : Nat) (kind : StopKind) : Dev :=
  let s1 := endOrders (modPart s p (fun q => { q with state := if kind = 1 then 3 else 1 })) p
  let s2 := resetMembers (quiesce (bmPartEnd s1 p) p) p
  let s3 := if kind < 2 then s2 else dropContexts s2 p
  let s4 := releaseDrawers s3 p kind
  if kind = 3 then (queuesOf s4 p).foldl (fun s q => modWq s q emptyQueue) s4 else s4

/-! ### Building (R617, R546, R642) -/

/-- FW_BUILD, the placement and the column entries under SHA-384 (R642). -/
def listedWord (s : Dev) (q : PartSt) : Word :=
  BitVec.ofNat 64 (s.mgmt.mfVersion.toNat + 2 ^ 32 * (pRow0 q + 2 ^ 4 * pCol0 q + 2 ^ 8 * (pH q - 1) + 2 ^ 12 * (pW q - 1)) +
    2 ^ 48 + 2 ^ 49 * b2n (pNative q))
/-- The column entries, as the image of R32 holds them. -/
def colBytes (s : Dev) : List Byte := (List.range 32).flatMap (fun i => leBytes 8 (colOf s.knots.eff i).toNat)
/-- The listed digest (R642). -/
def listedHash (s : Dev) (q : PartSt) : List Byte :=
  sha384 (leBytes 4 s.mgmt.mfVersion.toNat ++ leBytes 2 (fld (listedWord s q) 47 32) ++ colBytes s)
/-- DET_LISTEDp is written (R642, R643, R672). -/
def writeListed (s : Dev) (p : Nat) : Dev :=
  let q := partSt s p
  let d := wordsOfBytes 6 (listedHash s q)
  (List.range 6).foldl (fun s k => ioSet s (listedReg p (k + 1)) (d.getD k 0)) (ioSet s (listedReg p 0) (listedWord s q))

/-- The partitions that hold a grant in a set. -/
def setHolders (s : Dev) (k : Nat) : List Nat :=
  (definedParts s).filter (fun p => (grantDefs (partSt s p)).any (fun e => e.2.set == k))
/-- Does a set hold a pseudo-channel that is mapped out (R546)? -/
def rehashPending (s : Dev) (k : Nat) : Bool := setValid s k && (setList s k).any (pcOut s)
/-- A set leaves out its mapped-out pseudo-channels; one left with none becomes invalid (R546). (log entry 52, DEDUCED) -/
def rehash (s : Dev) (k : Nat) : Dev :=
  let l := (setList s k).filter (fun pc => !(pcOut s pc))
  let mask (i : Nat) : Word := l.foldl (fun w pc => if pc / 64 = i then setBit w (pc % 64) true else w) 0
  let s1 := (List.range 3).foldl (fun s i => ioSet s (0x0A1000 + 0x20 * k + 8 + 8 * i) (mask i)) s
  if l.isEmpty then ioSet s1 (0x0A1000 + 0x20 * k) (setBit (setW s1 k 0) 0 false) else s1
/-- The sets whose holders are all among the partitions that are rebuilt are re-hashed (R41, R546). -/
def rehashCovered (s : Dev) (g : List Nat) : Dev :=
  (List.range 128).foldl (fun s k =>
    let h := setHolders s k
    if rehashPending s k && h.all (fun p => g.contains p) then rehash s k else s) s

/-- A member tile of a build (R617 steps 2 to 4): reset, its dowels' tables empty, stores zeroed, the tile monitor loaded. -/
def buildTile (s : Dev) (p : Nat) (t : Nat) : Dev :=
  let q := partSt s p
  let s1 := resetTile s t
  let s2 := { s1 with
    dowels := mclear s1.dowels (dowelKey t 0) 512
    waiters := s1.waiters.filter (fun w => w.tile != t) }
  modTile s2 t (fun x => { x with
    member := p + 1
    dwl := .reset
    dig := .reset
    lvu := { x.lvu with nlvl := pLevel q, sbuf := [] }
    dr := { x.dr with corr := [] }
    istore := mwrite 0 [] 0 s.mgmt.tmBody
    istPoison := [] })

/-- The channels and queues a definition names become the partition's (R617 step 5); a rebuild keeps its queues. -/
def assignResources (s : Dev) (p : Nat) (new : Bool) : Dev :=
  let q := partSt s p
  let s1 := (defClamps q).foldl (fun s c => modClamp s c (fun _ =>
    if new then { ClampSt.reset with part := p, valid := true, group := (clampOf s c).group }
    else { clampOf s c with part := p, valid := true, cab := false })) s
  let s2 := if new then (defQueues q).foldl (fun s i => modWq s i (fun k =>
      { idleQueue k with owned := true, part := p, port := pPort q, func := pFunc q })) s1 else s1
  ioSet s2 (0x0A2000 + 8 * p) (BitVec.ofNat 64 (max 1 (fld (defW q 1) 31 24)) ^^^ 1)

/-- R617: a partition is built, or built again to its definition. -/
def buildPart (s : Dev) (p : Nat) (new : Bool) : Dev :=
  let s1 := modPart s p (fun q => { q with build := q.build + 1, state := 1, valid := true })
  let s2 := (membersOf (partSt s1 p)).foldl (fun s t => buildTile s p t) s1
  let s3 := buildDrawers s2 p new
  writeListed (assignResources s3 p new) p

/-- R617 steps 6 and 7: the partitions of a rebuild go on together. -/
def releaseParts (s : Dev) (g : List Nat) : Dev :=
  let s1 := rehashCovered s g
  g.foldl (fun s p =>
    let s2 := (membersOf (partSt s p)).foldl (fun s t => modTile s t resumeCore) s
    modPart s2 p (fun q => { q with state := 2 })) s1

/-- Partitions that have been stopped and cleared are rebuilt. -/
def rebuildNow (s : Dev) (g : List Nat) : Dev := releaseParts (g.foldl (fun s p => buildPart s p false) s) g

/-- R617, R738, R753: partitions are rebuilt after error `id` (0: a reset that is no error). Without a verified tile monitor
they cannot be: while the management firmware starts again they wait, and once it runs a partition-fatal error becomes
part-fatal. -/
def rebuildFor (s : Dev) (g : List Nat) (id : Nat) : Dev :=
  if s.mgmt.tmOk then rebuildNow s g
  else if fwUp s && id != 0 && !(g.isEmpty) then raiseErr s none id 3 0xFFFF none 0 0
  else { s with rebuild := s.rebuild ++ g.map (fun p => (p, id)) }

/-- The rebuild after a reset that is no error, or after a repair. -/
def rebuildParts (s : Dev) (g : List Nat) : Dev := rebuildFor s g 0

/-- The partitions that waited for the firmware are rebuilt, those still stopped (R705, R738). -/
def rebuildWaiting (s : Dev) : Dev :=
  s.rebuild.foldl (fun s e => if (partSt s e.1).valid && ((partSt s e.1).state == 3 || (partSt s e.1).state == 1) then rebuildFor s [e.1] e.2 else s)
    { s with rebuild := [] }

/-! ### Teardown (R619, R620) -/

/-- A completion record that waits is written before its queue is released (R619, R523). -/
def flushQueue : (n : Nat) → Dev → (q : Nat) → Dev
  | 0, s, _ => s
  | n + 1, s, q => flushQueue n (completionWrite s q) q

/-- A binding of the partition is cleared (R619 step 4). -/
def clearBindings (s : Dev) (p : Nat) : Dev :=
  ((List.range 2048).filter (fun i => bit (bindW s i 0) 0 && fld (bindW s i 0) 8 2 == p)).foldl (fun s i =>
    ioSet (ioSet s (bindBase + 0x10 * i) 0) (bindBase + 0x10 * i + 8) 0) s

/-- The granted ranges start to be zeroed (R619 step 8). -/
def releaseGrants (s : Dev) (p : Nat) : Dev :=
  { s with zeroing := s.zeroing ++ (grantDefs (partSt s p)).map (fun e => (e.2.set, setBase s e.2.set + e.2.off, e.2.len)) }

/-- R619, R620: a partition is removed; a dead tile stays in no partition. -/
def teardown (s : Dev) (p : Nat) : Dev :=
  let qs := queuesOf s p
  let ms := membersOf (partSt s p)
  let s1 := endOrders (modPart s p (fun q => { q with state := 5 })) p
  let s2 := qs.foldl (fun s q => flushQueue (wqOf s q).waiting.length s q) s1
  let s3 := resetMembers (clearBindings (quiesce (bmPartEnd s2 p) p) p) p
  let s4 := releaseGrants (releaseDrawers (dropContexts s3 p) p 1) p
  let s5 := (clampsOf s4 p).foldl (fun s c => modClamp s c (fun k => { ClampSt.reset with cab := k.cab, group := k.group })) s4
  let s6 := qs.foldl (fun s q => modWq s q (fun k => { idleQueue k with owned := false, part := 0, port := 0, func := 0 })) s5
  let s7 := ms.foldl (fun s t => modTile s t (fun x => { x with member := 0 })) s6
  let s8 := (List.range 7).foldl (fun s k => ioSet s (listedReg p k) 0) (modRing s7 p ringOff)
  modPart s8 p (fun q => { q with state := 0, valid := false, fatals := [] })

/-! ### Commands (R613 to R616) -/

/-- The partition a command acts on. -/
def cmdPart (s : Dev) (v : Word) : Nat := if fld v 1 0 = 1 then reqNum s else fld v 8 2

/-- The definition a command's hold is judged by: the request of a BUILD, else the partition's own. -/
def cmdDef (s : Dev) (v : Word) : PartSt := if fld v 1 0 = 1 then reqPart s else partSt s (fld v 8 2)

/-- Is a command held (R615)? A request whose shape is wrong is not: it fails. -/
def cmdHeld (s : Dev) (v : Word) : Bool :=
  let q := cmdDef s v
  if fld v 1 0 = 1 then !(shapeBad q) && commandHeld s q else q.valid && commandHeld s q

/-- The command's check and effect: state, code and DETAIL. A RESET over a dead tile fails as its rebuild would (R47). (log entry 30, DEDUCED) -/
def cmdRun (s : Dev) (v : Word) : Dev × Nat × Nat :=
  let p := cmdPart s v
  match fld v 1 0 with
  | 1 =>
    match buildCheck s with
    | (0, _) =>
      let d := reqPart s
      (releaseParts (buildPart (modPart s p (fun q => { d with build := q.build })) p true) [p], 0, 0)
    | (c, d) => (s, c, d)
  | 2 =>
    if (partSt s p).state = 0 then (s, 4, 0)
    else match (membersOf (partSt s p)).find? (fun t => physOf s t == 0x1FF) with
      | some t => (s, 6, t)
      | none => if s.mgmt.tmOk then (rebuildParts (stopPart s p 0) [p], 0, 0) else (s, 7, 0xFF)
  | _ =>
    if (partSt s p).state = 0 then (s, 4, 0)
    else if !(bit v 9) && (queuesOf s p).any (fun q => (wqOf s q).disp.isSome) then (s, 10, 0)
    else (teardown s p, 0, 0)

/-- The command in progress runs and BUSY falls; the ARRIVE of R616 is applied. -/
def cmdFinish (s : Dev) : Dev :=
  let v := s.partCmd.held
  let r := cmdRun s v
  let s1 := { r.1 with partCmd := ⟨false, s.partCmd.part, r.2.1, r.2.2 % 256, 0⟩ }
  if bit v 10 then sendDowel s1 .iod (buildOf s1 (fld v 27 20)) (fld v 27 20) (fld v 19 11) 0 1 none else s1

/-- A write of PART_CMD (R613, R615). -/
def partCommand (s : Dev) (v : Word) : Dev :=
  if !(bit v 63) || fld v 1 0 == 0 then s
  else if s.partCmd.busy then { s with partCmd := { s.partCmd with code := 1 } }
  else
    let s1 := { s with partCmd := { s.partCmd with busy := true, part := cmdPart s v, held := v } }
    if cmdHeld s v then s1 else cmdFinish s1

/-- R617: PART_CMD with OP BUILD; the request lies in PART_REQ0 to PART_REQ9. -/
def execPartBuild (v : Word) (sys : State) : Host.Outcome State Fault Refusal := onDev sys fun s => partCommand s (setBit (setFld v 1 0 1) 63 true)
/-- R621: PART_CMD with OP RESET. -/
def execPartReset (v : Word) (sys : State) : Host.Outcome State Fault Refusal := onDev sys fun s => partCommand s (setBit (setFld v 1 0 2) 63 true)
/-- R619: PART_CMD with OP TEARDOWN. -/
def execPartTeardown (v : Word) (sys : State) : Host.Outcome State Fault Refusal := onDev sys fun s => partCommand s (setBit (setFld v 1 0 3) 63 true)

/-- R615: a held command is checked and executed once its hold has ended. -/
def execPartCmdHoldEnd (sys : State) : Host.Outcome State Fault Refusal := onDev sys fun s =>
  if s.partCmd.busy && !(cmdHeld s s.partCmd.held) then cmdFinish s else s

/-- The bytes of a range read zero and hold no poison (R619 step 8). -/
def zeroRange (s : Dev) (k a n : Nat) : Dev :=
  let inRange (key : Nat) : Bool :=
    let pc := key / 2 ^ 31
    let loc := key % 2 ^ 31
    let l := setList s k
    let r := loc / 256
    let f := (r % 65536) ^^^ (r / 65536 % 65536)
    let m := l.length
    let i := (l.takeWhile (fun x => decide (x ≠ pc))).length
    let addr := setBase s k + (r * m + (i + m - f % m) % m) * 256 + loc % 256
    l.contains pc && decide (a ≤ addr) && decide (addr < a + n)
  { s with stack := s.stack.filter (fun e => !(inRange e.1))
           stackPoison := s.stackPoison.filter (fun e => !(inRange (64 * e.1))) }

/-- R619 step 8: the oldest released grant has been zeroed and is no longer held. -/
def execGrantZeroingDone (sys : State) : Host.Outcome State Fault Refusal := onDev sys fun s =>
  match s.zeroing with
    | (k, a, n) :: r => zeroRange { s with zeroing := r } k a n
    | [] => s

end Sys2Proof.Machine
end

