-- ==== Sys2Proof/Machine/Knots.lean ====
section
/-! DEFINITION. The knot map, field repair, and partition-fatal errors (R25 to R48, R753, R754, R774, R775). -/

namespace Sys2Proof.Machine
open Sys2Proof

/-! ### Failed tiles (R42, R43, R46, R775) -/

/-- The logical tile of a column and logical row. -/
def colTile (col lrow : Nat) : Nat := col / 16 * 128 + lrow * 16 + col % 16

/-- A partition that holds a dead tile is retired (R46, ID 0xA002). -/
def retirePart (s : Dev) (p : Nat) : Dev :=
  let s1 := modPart (raiseErr s (some p) 0xA002 2 0xFFFF none 0 0) p (fun q => { q with state := 4 })
  modKnots (aerPart s1 p) (fun k => { k with jobs := k.jobs.map (fun j => { j with parts := j.parts.filter (fun r => decide (r ≠ p)) }) })

/-- R46 step 2: every partition that contains a dead logical tile is retired, and those stopped for it. -/
def retireTile (s : Dev) (t : Nat) (parts : List Nat) : Dev :=
  ((((partOf (tileOf s t)).toList ++ parts).dedup).filter (fun p => (partSt s p).valid)).foldl retirePart s

/-- The entry of a dead tile is queued, and its commit retires the partitions, or it acts at once (R43, R46, R48). -/
def tileDies (s : Dev) (col failed lrow : Nat) (spare : Option Nat) (parts : List Nat) : Dev :=
  let s1 := addEntry s (.tileDead col failed lrow spare)
  if fullLayer s then retireTile s1 (colTile col lrow) parts
  else modKnots s1 (fun k => { k with jobs := k.jobs ++ [⟨col, failed, 9, lrow, parts, 3⟩] })

/-- A physical tile has failed and its partitions are stopped (R42, R43, R46, R56, R775): the spare goes under self-test, or
the tile dies. A later failure in a column whose spare is being taken waits until the first one's entry is made. -/
def failTile (s0 : Dev) (phys : Nat) (parts : List Nat) : Dev :=
  let s := modKnots s0 (fun k => { k with due := k.due.filter (fun u => u != phys), unc := k.unc.filter (fun e => e.1 != phys) })
  let col := physCol phys
  let row := physRow phys
  let w := colOf s.knots.eff col
  let v := colSlot w row
  if v = 14 ∨ s.knots.jobs.any (fun j => j.col == col && j.failed == row) then s
  else if s.knots.jobs.any (fun j => j.col == col && j.stage ≤ 1) then
    (if v = 15 ∧ s.knots.jobs.any (fun j => j.col == col && j.stage == 0) then s
     else modKnots s (fun q => { q with jobs := q.jobs ++ [⟨col, row, 9, v, parts, 4⟩] }))
  else if v = 15 then addEntry s (.spareDead col row)
  else match spareRow w with
    | some k =>
      if colSpare w = 0 && !(s.knots.jobs.any (fun j => j.col == col)) && !(fullLayer s) then
        modKnots s (fun q => { q with jobs := q.jobs ++ [⟨col, row, k, v, parts, 0⟩] })
      else tileDies s col row v none parts
    | none => tileDies s col row v none parts

/-- R56: the failures of a column that waited for the first one's entry are handled in order. -/
def wakeColumn (s : Dev) (col : Nat) : Dev :=
  (s.knots.jobs.filter (fun j => j.col == col && j.stage == 4)).foldl (fun s j => failTile s (physNum col j.failed) j.parts)
    (modKnots s (fun k => { k with jobs := k.jobs.filter (fun j => !(j.col == col && j.stage == 4)) }))

/-! ### Partition-fatal errors (R753, R754) -/

/-- The UNIT of a tile's record. -/
def tileUnit (s : Dev) (phys : Option Nat) : Nat :=
  match phys with
  | some p => let v := colSlot (colOf s.knots.eff (physCol p)) (physRow p); if v < 8 then colTile (physCol p) v else 0xFFFF
  | none => 0xFFFF

/-- R753, R754, R738: the error is recorded, the partition stopped and cleared; a tile it names is repaired or retired, otherwise
the partition is rebuilt, unless it is the eighth in a second. While a part-fatal self-reset is under way the error goes to
the management log only (ch. 22, seams). -/
def partFatal (s : Dev) (p id : Nat) (phys : Option Nat) : Dev :=
  let q := partSt s p
  let recent := q.fatals.filter (fun t => decide (s.time < t + 1000000000)) ++ [s.time]
  let eighth := decide (8 ≤ recent.length)
  let s1 := raiseErr s (some p) id 2 (tileUnit s phys) none 0 (if eighth then 2 ^ 63 else 0)
  if s.pf.phase ≠ 0 then logOnly s p id 2 (tileUnit s phys) 0
  else if q.state = 2 then
    let s2 := stopPart (aerPart (modPart s1 p (fun q => { q with fatals := recent })) p) p 1
    match phys with
    | some t => failTile s2 t (if eighth then [] else [p])
    | none => if eighth then s2 else rebuildFor s2 [p] id
  else match phys with
    | some t => failTile s1 t (if q.state = 3 && (repairParts s).contains p then [p] else [])
    | none => s1

/-- R753, R738, R743: an error of class 2 strikes a partition, or one of class 1 whose containment could not be carried out;
it may name a physical tile. An identifier the catalogue does not have, or has in another class, is no such error. -/
def execPartitionFatal (p : Fin 128) (id : BitVec 16) (phys : Option (Fin 288)) (sys : State) : Host.Outcome State Fault Refusal := onDev sys fun s =>
  if (partSt s p).valid && (catClass id.toNat == some 1 || catClass id.toNat == some 2) && id.toNat != 0xA002 then partFatal s p id.toNat (phys.map (·.val)) else s

/-- A failed tile, with the identifier of what found it: its partition stops, or a notice is recorded (R42, R108, R84). -/
def tileFailure (s : Dev) (phys id : Nat) : Dev :=
  let t := tileUnit s (some phys)
  let m := if t = 0xFFFF then 0 else (tileOf s t).member
  if m = 0 then failTile (raiseErr s none id 4 t none 0 0) phys []
  else partFatal s (m - 1) id (some phys)

/-- R744: a tile that has reported three uncorrectable errors in distinct words within 1 s is attributed, and is a failed
tile. -/
def attributeTile (s : Dev) (t : Nat) : Dev :=
  if s.knots.due.contains (physOf s t) then tileFailure s (physOf s t) 0x100C else s

/-- R42, R46: a physical tile is found failed. -/
def execTileFailure (phys : Fin 288) (sys : State) : Host.Outcome State Fault Refusal := onDev sys fun s => tileFailure s phys 0x100C

/-- R43: the self-test of a spare ends. The management firmware runs the repair: while it does not, the repair waits (R39,
R705). -/
def execSpareSelfTestDone (col : Fin 32) (pass : Bool) (sys : State) : Host.Outcome State Fault Refusal := onDev sys fun s =>
  match if fwUp s then s.knots.jobs.find? (fun j => j.col == col.val && j.stage == 0) else none with
    | some j =>
      if pass && !(fullLayer s) then
        addEntry (modKnots s (fun k => { k with jobs := k.jobs.map (fun i => if i = j then { i with stage := 1 } else i) }))
          (.tileMove j.col j.failed j.spare j.lrow)
      else
        wakeColumn (tileDies (modKnots s (fun k => { k with jobs := k.jobs.erase j })) j.col j.failed j.lrow
          (if pass then none else some j.spare) j.parts) col
    | none => s

/-- A field repair was committed (ID 0xA001): recorded for the partitions it stopped, else in the management log. -/
def repairNotice (s : Dev) (parts : List Nat) : Dev :=
  match parts with
  | [] => raiseErr s none 0xA001 4 0xFFFF none 0 0
  | _ => parts.foldl (fun s p => raiseErr s (some p) 0xA001 4 0xFFFF none 0 0) s

/-- Every drawer of a tile that has moved to its spare waits for zeroing (R42 step 5). -/
def dirtyTile (x : Tile) : Tile :=
  { x with dr := { x.dr with clean := 0, zeroing := 0x3F, zeroRun := none, poison := [], wbPend := [] } }

/-- Do two repair-list entries draw on the same spares: of a bank, an instruction store, a half of a link (R28)? -/
def sameSpares (v w : Word) : Bool := fld v 3 0 == fld w 3 0 && fld v 13 5 == fld w 13 5 && fld v 19 14 == fld w 19 14
/-- How many of the spares a repair needs are in use in a repair list. -/
def sparesTaken (l : List Word) (w : Word) : Nat := l.countP (fun v => sameSpares v w)

/-- Are the spare rows or columns a repair needs all in use (R774)? -/
def sparesGone (s : Dev) (w : Word) : Bool :=
  let k := fld w 3 0
  let n := sparesTaken s.knots.eff.repairs w
  (k == 1 && decide (8 ≤ n)) || ((k == 2 || k == 3) && decide (4 ≤ n))

/-- R44, R42 step 4, R774: the oldest entry's flash write completes; a row or column that no spare is left for makes its
tile a failed tile instead. -/
def execFieldEntryCommit (sys : State) : Host.Outcome State Fault Refusal := onDev sys fun s =>
  match if fwUp s then s.knots.flashPend else [] with
    | [] => s
    | e :: r =>
      let s0 := modKnots s (fun k => { k with flashPend := r })
      let s1 := commitEntry s0 e
      match e with
      | .tileMove col _ _ lrow =>
        wakeColumn (modTile (modKnots s1 (fun k => { k with jobs := k.jobs.map (fun j => if j.col = col ∧ j.stage = 1 then { j with stage := 2 } else j) }))
          (colTile col lrow) dirtyTile) col
      | .tileDead col failed lrow _ =>
        let mine (j : RepairJob) : Bool := j.col == col && j.failed == failed && j.stage == 3
        retireTile (modKnots s1 (fun k => { k with jobs := k.jobs.filter (fun j => !(mine j)) })) (colTile col lrow)
          ((s1.knots.jobs.filter mine).flatMap (·.parts))
      | .repair w => if sparesGone s0 w then tileFailure s0 (fld w 13 5) 0x100C else repairNotice s1 []
      | _ => s1

/-- The repair of a tile ends when its drawers are zero: partitions that wait for no other repair are rebuilt together (R42). -/
def repairDone (s : Dev) (j : RepairJob) : Dev :=
  let s1 := modKnots s (fun k => { k with jobs := k.jobs.erase j })
  let go := j.parts.filter (fun p => !((repairParts s1).contains p))
  repairNotice (rebuildParts s1 go) j.parts

/-- R362, R42: the zeroing of a drawer ends: it is clean; with the last drawer of a repaired tile its partitions are
rebuilt. -/
def drawerZeroed (s : Dev) (t : Nat) : Dev :=
  match (tileOf s t).dr.zeroRun with
    | some d =>
      let m : BitVec 6 := (1 : BitVec 6) <<< d
      let s1 := modTile s t (fun x => modDr x (fun r => { r with
        zeroRun := none, zeroing := r.zeroing &&& ~~~m, clean := r.clean ||| m }))
      match s1.knots.jobs.find? (fun j => colTile j.col j.lrow == t && j.stage == 2) with
      | some j => if (tileOf s1 t).dr.zeroing = 0 then repairDone s1 j else s1
      | none => s1
    | none => s

/-! ### Links of the mesh (R30, R37, R83, R84) -/

/-- A link leaves service unless it has already (R30, ID 0x1102). -/
def takeLink (s : Dev) (unit : Nat) (axis bridge : Bool) : Dev :=
  let w := linkOut unit axis bridge
  let pend := s.knots.flashPend.any (fun e => decide (e = .repair w))
  if pend || s.knots.eff.repairs.contains w then s
  else addEntry (raiseErr s none 0x1102 0 0xFFFF none 0 (fld w 19 5)) (.repair w)

/-- Does a link of R37's names exist: a row link to the next column, a column link to the next physical row, an attach
link, a bridge link? -/
def linkExists (unit : Nat) (axis bridge : Bool) : Bool :=
  if bridge then decide (unit < 32) && !axis
  else if axis then decide (unit < 288) && decide (physRow unit < 8)
  else decide (288 ≤ unit) || decide (unit % 16 < 15)

/-- The bridge links out of service (R30, R62). -/
def bridgeOut (s : Dev) : Nat := s.knots.eff.repairs.countP (fun w => fld w 3 0 == 7 && bit w 16)

/-- R30: a mesh link, an attach link or a bridge link leaves service, named as in R37. -/
def execMeshLinkOut (unit : Fin 356) (axis bridge : Bool) (sys : State) : Host.Outcome State Fault Refusal := onDev sys fun s =>
  if linkExists unit axis bridge then takeLink s unit axis bridge else s

/-- R83: a flit fails its check and is replayed by the router of a physical tile (ID 0x1101; R57: a disabled position routes,
and its UNIT is none). -/
def execFlitReplay (phys : Fin 288) (sys : State) : Host.Outcome State Fault Refusal := onDev sys fun s =>
  raiseErr s none 0x1101 0 (tileUnit s (some phys)) none 0 0

/-- The links of a router (R37, R62, R63, R64): UNIT, axis, bridge. -/
def routerLinks (phys : Nat) : List (Nat × Bool × Bool) :=
  let leaf := phys / 144
  let r := physRow phys
  let c := phys % 16
  let edge := if leaf = 0 then r else 8 - r
  (if c = 0 then [] else [(phys - 1, false, false)]) ++ (if c = 15 then [] else [(phys, false, false)]) ++
  (if r = 0 then [] else [(phys - 16, true, false)]) ++ (if r = 8 then [] else [(phys, true, false)]) ++
  (if edge = 0 then [(288 + 34 * leaf + c, false, false)] else []) ++
  (if c = 0 then [(288 + 34 * leaf + 16 + edge, false, false)] else []) ++
  (if c = 15 then [(288 + 34 * leaf + 25 + edge, false, false)] else []) ++
  (if edge = 8 then [(2 * c, false, true), (2 * c + 1, false, true)] else [])

/-- R84: a router fails; its links leave service and its tile is a failed tile (ID 0x100E). -/
def execRouterFailure (phys : Fin 288) (sys : State) : Host.Outcome State Fault Refusal := onDev sys fun s =>
  tileFailure ((routerLinks phys).foldl (fun s l => takeLink s l.1 l.2.1 l.2.2) s) phys 0x100E

/-! ### Defects that self-test finds (R28, R31, R36, R37, R717) -/

/-- The repair lists a defect is judged by: committed and volatile entries, and those on their way to flash. -/
def repairsAll (s : Dev) : List Word :=
  s.knots.eff.repairs ++ s.knots.flashPend.filterMap (fun e => match e with | .repair w => some w | _ => none)

/-- The folded channels of a physical tile, those on their way to flash among them (R35). -/
def foldsAll (s : Dev) (phys : Nat) : List Nat :=
  (List.range 4).filter (fun c => (mget 0 s.knots.eff.func phys).testBit c || s.knots.flashPend.contains (.fold phys c))

/-- The repair-list entry of a defect (R36, R37); a channel has none. -/
def defectWord (d : Defect) : Option Word :=
  match d with
  | .spadRow p b w => some (repairWord 1 p b w)
  | .spadCol p b c => some (repairWord 2 p b c)
  | .istRow p w => some (repairWord 3 p 0 w)
  | .meshWire u axis half i => some (repairWord 4 u ((if axis then 1 else 0) + (if half then 2 else 0)) i.toNat)
  | .bridgeWire u half i => some (repairWord 5 u (if half then 2 else 0) i.toNat)
  | .fold _ _ => none

/-- The physical tile a defect lies in. -/
def defectTile (d : Defect) : Option Nat :=
  match d with
  | .spadRow p _ _ => some p
  | .spadCol p _ _ => some p
  | .istRow p _ => some p
  | .fold p _ => some p
  | _ => none

/-- The link a defect lies in: UNIT, axis, bridge. -/
def defectLink (d : Defect) : Option (Nat × Bool × Bool) :=
  match d with
  | .meshWire u axis _ _ => some (u, axis, false)
  | .bridgeWire u _ _ => some (u, false, true)
  | _ => none

/-- Is a defect already in the map or on its way into it? -/
def defectKnown (s : Dev) (d : Defect) : Bool :=
  match d, defectWord d, defectTile d with
  | .fold p c, _, _ => (foldsAll s p).contains c.val || colSlot (colOf s.knots.eff (physCol p)) (physRow p) == 14
  | _, some w, t => (repairsAll s).contains w || (match t with | some p => colSlot (colOf s.knots.eff (physCol p)) (physRow p) == 14 | none => false)
  | _, none, _ => true

/-- R30, R31, R36, R774: a defect takes a spare; a ninth wire of a half takes its link out of service, a third fold makes
the tile a failed tile; with the field layer full an SRAM defect does (R48). -/
def foundDefect (s : Dev) (d : Defect) : Dev :=
  if defectKnown s d then s
  else match d with
    | .fold p c => if (foldsAll s p).length < 2 ∧ fullLayer s = false then addEntry s (.fold p c) else failTile s p []
    | _ => match defectWord d, defectLink d, defectTile d with
      | some w, some (u, axis, bridge), _ =>
        if !(linkExists u axis bridge) then s
        else if sparesTaken (repairsAll s) w < 8 then addEntry s (.repair w) else takeLink s u axis bridge
      | some w, none, some p => if fullLayer s then failTile (addEntry s (.repair w)) p [] else addEntry s (.repair w)
      | _, _, _ => s

end Sys2Proof.Machine
end

