-- ==== Sys2Proof/Machine/Attribute.lean ====
section
/-! DEFINITION. The steps in which a tile's uncorrectable errors are attributed (R744): the patrol scrubber's slot (R369) and
the completion of a matrix-engine command (R295, R313, R315). -/

namespace Sys2Proof.Machine
open Sys2Proof

/-- R369: the next word of a bank is read in the bank's slot or, outside a metronome partition, in a free cycle;
`ecc` is 0 for a good word, 1 corrected, 2 uncorrectable. A tile that R744 attributes is then a failed tile. -/
def execScrubSlot (t : TileId) (bank : Fin 24) (free : Bool) (ecc : Fin 3) (sys : State) : Host.Outcome State Fault Refusal := onDev sys fun s =>
  let x := tileOf s t
  if (free && tileMetro s t) || x.dr.scrubDone.getLsbD bank then s
    else
      let w := bankWord bank (mget 0 x.dr.scrubPos bank)
      let s1 := if ecc = 1 then spadCorrected s t w 0
        else if ecc = 2 then spadUe s t w 0
        else spadTouch s t (64 * w)
      attributeTile (modTile s1 t (fun y => modDr y (fun r => scrubStep r bank))) t

/-- Corrected errors of the accumulators and scale buffers, each counted (R315). -/
def meCorrected (s : Dev) (t n : Nat) : Dev :=
  (List.range n).foldl (fun s _ => metroInc (tileErr (modTile s t (fun y =>
    { y with me := { y.me with stats := incFld y.me.stats 47 32 1 } })) t 0x1006 0 none 0 0) t 31 16) s

/-- R295, R304, R313, R315: the running command completes; `corr` counts the corrected errors it met, `ue` names an
uncorrectable accumulator (0 to 3) or scale buffer (4, 5) and the entry in it. A tile that R744 attributes is then a failed
tile. -/
def execMeCommandComplete (t : TileId) (corr : Nat) (ue : Option (Fin 6 × Fin 4096)) (sys : State) : Host.Outcome State Fault Refusal := onDev sys fun s =>
  let x := tileOf s t
  match x.me.run with
    | none => s
    | some (c, pages) =>
      let reads := meReads c
      let inj := x.inject.contains 0x1007 && !(reads.isEmpty)
      let s1 := if inj then setTile s t { x with inject := x.inject.erase 0x1007 } else s
      let s0 := if reads.isEmpty then s1 else meCorrected s1 t corr
      let hit : Option (Nat × Nat) := if inj then reads.head?.map (fun k => (k, 0))
        else ue.bind (fun k => if reads.contains k.1.val then some (k.1.val, k.2.val) else none)
      match hit with
      | some (k, e) =>
        attributeTile (tileUncorr (meFail s0 t c 0x26 (if k < 4 then k else 4 + (k - 4)) (if inj then 2 ^ 62 else 0)) t (65536 + 4096 * k + e)) t
      | none =>
        let rows := (meRows c).filter (fun r => !r.2.2)
        let s2 := match rows with | r :: _ => spadTouch s0 t (meOff pages r.1) | [] => s0
        attributeTile (match mePoison (tileOf s2 t) pages rows with
        | some a => meFail s2 t c 0x23 a 0
        | none => meDone s2 t c pages) t

end Sys2Proof.Machine
end

