-- ==== Sys2Proof/Machine/HostPorts.lean ====
section
/-! DEFINITION. The host ports (R463 to R495): training, loss of the link, self-resets, configuration space. -/

namespace Sys2Proof.Machine
open Sys2Proof

/-! ### Reads that fail (R489, R491) -/

/-- A load that waits fails with ACCESS on its first part that satisfies a test (R188, R489). -/
def loadFault (s : Dev) (t : Nat) (f : Target → Bool) : Dev :=
  match (tileOf s t).core.wait with
  | .load l =>
    match l.parts.zipIdx.find? (fun p => f p.1.1) with
    | some (p, k) => modTile s t (fun x => enterException (landDue { x with core := { x.core with wait := .none } }) 7 k (BitVec.ofNat 64 p.2.1))
    | none => s
  | _ => s

/-- Does a channel's oldest block still read host memory? -/
def readsHost (c : TeChan) : Bool :=
  match c.blks with | k :: _ => k.asked && k.sent.isNone && k.src.any (fun p => isHost p.1) | [] => false

/-- Does a channel's oldest block wait for host memory to show its writes (R409, R482)? -/
def writesHost (s : Dev) (t ch : Nat) (c : TeChan) : Bool :=
  match c.blks with | k :: _ => k.sent.isSome && hostPending s (.block t ch k.b) | [] => false

/-- The reads a tile has outstanding on host memory fail, and the blocks whose writes to it are not visible (R491). -/
def failTileReads (s : Dev) (t : Nat) : Dev :=
  let s1 := settle (loadFault s t isHost) t
  [0, 1, 2, 3].foldl (fun s ch =>
    let c := chanOf (tileOf s t) ch
    match c.run, c.blks with
    | some d, k :: _ =>
      if (c.st == 1 || c.st == 2) && readsHost c then teFail s t ch 0x44 (rowAddr d false k.b 0)
      else if (c.st == 1 || c.st == 2) && writesHost s t ch c then teFail s t ch 0x44 (rowAddr d true k.b 0) else s
    | _, _ => s) s1

/-- The partitions a port serves (R463). -/
def portParts (s : Dev) (n : Nat) : List Nat := (definedParts s).filter (fun p => pPort (partSt s p) == n)

/-- Every read the part has outstanding on a port fails (R491 step 1). -/
def failPortReads (s : Dev) (n : Nat) : Dev :=
  let s1 := (portParts s n).foldl (fun s p => (membersOf (partSt s p)).foldl failTileReads s) s
  (s1.xlt.walks.filter (fun k => (ctxFn s1 k.tag).1 == n)).foldl (fun s k =>
    match walkWant s k with | some v => failUnit (dropWalk s k) v | none => dropWalk s k) s1

/-! ### Loss of the link (R491, R528) -/

/-- Dispatched work orders of a port's partitions will complete with LINK (R528). -/
def linkOrders (s : Dev) (n : Nat) : Dev :=
  (portParts s n).foldl (fun s p => (queuesOf s p).foldl (fun s q =>
    modWq s q (fun k => { k with disp := k.disp.map (fun w => { w with link := true }) })) s) s

/-- A record of a port for each partition it serves, or in the management log if it serves none. -/
def portErr (s : Dev) (n id cls : Nat) : Dev :=
  match portParts s n with
  | [] => raiseErr s none id cls n none 0 0
  | l => l.foldl (fun s p => raiseErr s (some p) id cls n none 0 0) s

/-- R491: the data link of a port goes down: outstanding reads fail, writes not yet visible are lost, and the down timer
starts. -/
def linkDown (s : Dev) (n : Nat) : Dev :=
  if !(hportOf s n).dlUp then s
  else
    let s1 := linkOrders (hlcLinkLoss (failPortReads s n) n) n
    modHport (portErr s1 n 0x2004 1) n (fun h => { h with
      dlUp := false, rate := 0, width := 0, flit := false, cxl := 0, cache := false, lost := true, down := some s.time
      uncov := [], cov := []
      stats := incFld h.stats 15 0 1 })

/-- R491. -/
def execDataLinkDown (port : Fin 2) (sys : State) : Host.Outcome State Fault Refusal := onDev sys fun s => linkDown s port

/-! ### Training (R465 to R467, R488, R718) -/

/-- MAX_RATE and MAX_WIDTH of a port (R494). -/
def maxRate (h : HPort) : Nat := fld h.ctl 3 1
def maxWidth (h : HPort) : Nat := fld h.ctl 8 4

/-- R466, R467: a port that may drive its lanes trains; both ends support what the operands name. A rate or width the port
is capped below is not reached; Device Readiness Status follows once the part is ready. -/
def execHostLinkTraining (port : Fin 2) (rate : Fin 7) (width : Fin 17) (flit cache : Bool) (cxl : Fin 4) (sys : State) :
    Host.Outcome State Fault Refusal := onDev sys fun s =>
  let h := hportOf s port
  let wOk := width.val == 1 || width.val == 2 || width.val == 4 || width.val == 8 || width.val == 16
  if h.linkDis || h.perst || h.dlUp || rate.val == 0 || !wOk || decide (maxRate h < rate.val) || decide (maxWidth h < width.val) then s
    else
      let c := if bit h.ctl 0 && decide (3 ≤ rate.val) then cxl.val else 0
      let s1 := modHport (setLock s (11 + port.val) true) port (fun h => { h with
        dlUp := true, rate := rate, width := width, flit := flit || rate == 6, cxl := c, cache := cache && c != 0, down := none, lost := false })
      if h.ready then send s1 (.drs port) else s1

/-- The widest width within a cap (R466). -/
def widthUnder (w cap : Nat) : Nat := (([16, 8, 4, 2].find? (fun k => decide (k ≤ w ∧ k ≤ cap))).getD 1)

/-- R494, R466: RETRAIN of MGC_HPORTn_CTL: the link enters Recovery, its data link stays up, and its rate and width fall to
the caps where they stand above them. -/
def hportRetrain (s : Dev) (n : Nat) : Dev :=
  if (hportOf s n).dlUp then modHport s n (fun h => { h with
    stats := incFld h.stats 31 16 1, rate := min h.rate (max 1 (maxRate h)), width := widthUnder h.width (maxWidth h) }) else s

/-- R494. -/
def execHportRetrain (port : Fin 2) (sys : State) : Host.Outcome State Fault Refusal := onDev sys fun s => hportRetrain s port

/-! ### Self-reset (R492, R493) and function-level reset (R490) -/

/-- The page requests, invalidations and markers of a port or function are abandoned (R461, R492). -/
def dropXlt (s : Dev) (f : Nat → Nat → Bool) : Dev :=
  { s with xlt := { s.xlt with
    reqs := s.xlt.reqs.filter (fun r => !(f r.port r.fn))
    ats := s.xlt.ats.filter (fun a => !(f a.port a.fn))
    stops := s.xlt.stops.filter (fun e => !(f e.2.1 e.2.2.1)) } }

/-- Stop, clear and rebuild the partitions of a list, but a retired one and one that a repair will rebuild stay stopped;
`again` says which may be rebuilt. -/
def resetParts (s : Dev) (l : List Nat) (kind : StopKind) (again : Nat → Bool) : Dev :=
  let s1 := l.foldl (fun s p =>
    let old := (partSt s p).state
    let s2 := stopPart s p kind
    if old = 2 then (if again p then s2 else modPart s2 p (fun q => { q with state := 3 }))
    else modPart s2 p (fun q => { q with state := old })) s
  rebuildParts s1 (l.filter (fun p => (partSt s p).state == 2 && again p))

/-- A port self-reset records 0x2005 for each partition, whose ring the host enables again, and counts under R754. -/
def selfResetRecord (s : Dev) (n p : Nat) : Dev :=
  let recent := (partSt s p).fatals.filter (fun t => decide (s.time < t + 1000000000)) ++ [s.time]
  let s1 := modPart s p (fun q => { q with fatals := recent })
  raiseErr (modRing s1 p ringOff) (some p) 0x2005 2 n none 0 (if 8 ≤ recent.length then 2 ^ 63 else 0)

/-- R492: port `n` resets itself and every partition it serves. -/
def portSelfReset (s : Dev) (n : Nat) : Dev :=
  let s0 := linkDown s n
  let l := portParts s0 n
  let s1 := l.foldl (fun s p => selfResetRecord s n p) s0
  let s2 := resetParts s1 l 3 (fun p => decide ((partSt s1 p).fatals.length < 8))
  let s3 := dropXlt s2 (fun p _ => p == n)
  modHport s3 n (fun h => { HPort.reset with
    stats := incFld h.stats 47 32 1, perst := h.perst, linkDis := h.linkDis, ready := h.ready })

/-- R492: the down timer reaches 2 ms. -/
def execDownTimerExpiry (port : Fin 2) (sys : State) : Host.Outcome State Fault Refusal := onDev sys fun s =>
  if (hportOf s port).down.isSome then portSelfReset s port else s
/-- R492: a Hot Reset arrives. -/
def execHotReset (port : Fin 2) (sys : State) : Host.Outcome State Fault Refusal := onDev sys fun s =>
  if (hportOf s port).dlUp then portSelfReset s port else s
/-- R492: Link Disable is set. -/
def execLinkDisable (port : Fin 2) (sys : State) : Host.Outcome State Fault Refusal := onDev sys fun s =>
  if (hportOf s port).dlUp then portSelfReset s port else s
/-- R492, R495: PERSTn_N falls. -/
def execPerstAssert (port : Fin 2) (sys : State) : Host.Outcome State Fault Refusal := onDev sys fun s =>
  if (hportOf s port).perst then s else portSelfReset (modHport s port (fun h => { h with perst := true })) port
/-- R465: PERSTn_N rises. -/
def execPerstDeassert (port : Fin 2) (sys : State) : Host.Outcome State Fault Refusal := onDev sys fun s =>
  modHport s port (fun h => { h with perst := false })

/-- The partition bound to a function (R471). -/
def boundPart (s : Dev) (port fn : Nat) : Option Nat := (portParts s port).find? (fun p => pFunc (partSt s p) == fn)

/-- R490: a function-level reset. (log entry 53, DEDUCED) -/
def flr (s : Dev) (port fn : Nat) : Dev :=
  let s1 := dropXlt (priDisable s port fn) (fun p f => p == port && f == fn)
  let s2 := match boundPart s1 port fn with
    | some p => resetParts s1 [p] 2 (fun _ => true)
    | none => s1
  modFn s2 port fn (fun _ => FnSt.reset)

/-- R490. -/
def execFunctionLevelReset (port : Fin 2) (fn : Fin 128) (sys : State) : Host.Outcome State Fault Refusal := onDev sys fun s =>
  if fnExists s port fn then flr s port fn else s

/-! ### Configuration requests (R447, R452, R471, R474, R487 to R489) -/

/-- An access that waited for a line is made over the link: a write as it stands, a read again (R468, R496). -/
def uncachedAgain (s : Dev) (w : HWait) : Dev :=
  let a := 64 * w.line + w.off
  match w.cmp with
  | some c => send s (.hostCas w.port a (BitVec.ofNat 64 (leNat c)) (BitVec.ofNat 64 (leNat w.data)))
  | none =>
    if hlcOwns w.kind then hostPut s w.src w.port a w.data w.poison (.hostBytes w.port a w.data w.poison false)
    else if w.kind ≤ 1 then hostRead s w.src w.kind w.port (64 * w.line) 64
    else s

/-- The cache protocol of a port is disabled after training: its Modified lines are written back and every line goes; what
waited for a line goes over the link. -/
def cacheOff (s : Dev) (n : Nat) : Dev :=
  if !(hportOf s n).cache then s
  else
    let lines := s.hlc.lines.filter (fun l => l.port == n && l.st == 3)
    let left := (s.hlc.wait ++ s.hlc.inq).filter (fun w => w.port == n)
    let s1 := lines.foldl (fun s l => send s (.hostBytes n (64 * l.line) l.data l.poison false)) s
    let s2 := modHlc s1 (fun h => { h with
      lines := h.lines.filter (fun l => l.port != n), reqs := h.reqs.filter (fun r => r.1 != n), wait := h.wait.filter (fun w => w.port != n)
      inq := h.inq.filter (fun w => w.port != n), got := h.got.filter (fun g => g.port != n) })
    left.foldl uncachedAgain (modHport s2 n (fun h => { h with cache := false }))

/-- Change a function's configuration fields. -/
def cfgFn (s : Dev) (port fn : Nat) (v : Nat) (f : FnSt → Nat → FnSt) : Dev := modFn s port fn (fun x => f x v)

/-- Whether BAR4 is implemented: not on FK256-N (R477). -/
def hasBar4 (s : Dev) : Bool := s.knots.grade != 3

/-- The pending MSI-X messages of a function that are no longer masked are sent (R769). (log entry 55, DEDUCED) -/
def releaseMsix (s : Dev) (port fn : Nat) : Dev :=
  (fnOf s port fn).pba.foldl (fun s e =>
    let f := fnOf s port fn
    if f.msixEn && !f.msixMask && !(bit (mget (msixReset (2 * e.1 + 1)) f.msix (2 * e.1 + 1)) 32) then
      send (modFn s port fn (fun f => { f with pba := mset false f.pba e.1 false })) (.msix port fn e.1)
    else s) s

/-- A write of a configuration field, numbered as in log entry 18, PRESUMED. -/
def cfgWrite (s : Dev) (port fn field v : Nat) : Dev :=
  let b := v % 2 == 1
  match field with
  | 0 => cfgFn s port fn v (fun x _ => { x with memEn := b })
  | 1 => cfgFn s port fn v (fun x _ => { x with master := b })
  | 2 => cfgFn s port fn v (fun x _ => { x with relaxed := b })
  | 3 => cfgFn s port fn v (fun x _ => { x with atomics := b })
  | 4 => cfgFn s port fn v (fun x v => { x with ctoVal := v % 16 })
  | 5 => cfgFn s port fn v (fun x _ => { x with ctoDis := b })
  | 6 => cfgFn s port fn v (fun x _ => { x with pasid := b })
  | 7 => cfgFn s port fn v (fun x _ => { x with ats := b })
  | 8 => if b then cfgFn s port fn v (fun x _ => { x with pri := true }) else priDisable s port fn
  | 9 => serveAlloc (cfgFn s port fn v (fun x v => { x with priAlloc := v % 2 ^ 32 })) port fn
  | 10 => cfgFn s port fn v (fun x _ => { x with priRf := x.priRf && !b })
  | 11 => releaseMsix (cfgFn s port fn v (fun x _ => { x with msixEn := b })) port fn
  | 12 => releaseMsix (cfgFn s port fn v (fun x _ => { x with msixMask := b })) port fn
  | 13 => cfgFn s port fn v (fun x v => { x with bar0 := BitVec.ofNat 64 (v / 2 ^ 26 * 2 ^ 26) })
  | 14 => cfgFn s port fn v (fun x v => { x with bar2 := BitVec.ofNat 64 (v / 2 ^ 30 * 2 ^ 30) })
  | 15 => if hasBar4 s then cfgFn s port fn v (fun x v => { x with bar4 := BitVec.ofNat 64 (v / 2 ^ (30 + x.bar4lg) * 2 ^ (30 + x.bar4lg)) }) else s
  | 16 => if hasBar4 s then cfgFn s port fn v (fun x v => { x with bar4lg := min v 8 }) else s
  | 17 => if fn = 0 then modHport s port (fun h => { h with vfEn := b }) else s
  | 18 => if fn = 0 then modHport s port (fun h => { h with vfMem := b }) else s
  | 19 => if fn = 0 ∧ !(hportOf s port).vfEn then modHport s port (fun h => { h with numVfs := min v 127 }) else s
  | 20 => if fn = 0 then modHport s port (fun h => { h with ari := b }) else s
  | 21 => if fn = 0 ∧ !b then cacheOff s port else s
  | 22 => if b then flr s port fn else s
  | _ => s

/-- The low bits of BAR2 and BAR4: a 64-bit memory BAR with the Prefetchable bit (R470, R474; their places are the PCIe
specification's, log entry 18, PRESUMED). BAR0 is 64-bit and not prefetchable. -/
def barFlags : Nat := 0xC

/-- What a configuration field reads as. -/
def cfgRead (s : Dev) (port fn field : Nat) : Nat :=
  let x := fnOf s port fn
  let h := hportOf s port
  match field with
  | 0 => b2n x.memEn
  | 1 => b2n x.master
  | 2 => b2n x.relaxed
  | 3 => b2n x.atomics
  | 4 => x.ctoVal
  | 5 => b2n x.ctoDis
  | 6 => b2n x.pasid
  | 7 => b2n x.ats
  | 8 => b2n x.pri
  | 9 => x.priAlloc
  | 10 => b2n x.priRf
  | 11 => b2n x.msixEn
  | 12 => b2n x.msixMask
  | 13 => x.bar0.toNat + 4
  | 14 => x.bar2.toNat + barFlags
  | 15 => if hasBar4 s then x.bar4.toNat + barFlags else 0
  | 16 => if hasBar4 s then x.bar4lg else 0
  | 17 => b2n h.vfEn
  | 18 => b2n h.vfMem
  | 19 => h.numVfs
  | 20 => b2n h.ari
  | 21 => b2n h.cache
  | 23 => 0x120000
  | 24 => 127
  | _ => 0

/-- Can a configuration request reach a function (R471)? Without ARI only VFs 1 to 7 are reached. -/
def cfgReaches (s : Dev) (port fn : Nat) : Bool := fnExists s port fn && (decide (fn < 8) || (hportOf s port).ari)

/-- R487, R488: a configuration request is served, or answered with Request Retry Status (1) before the configuration space
is ready; one to no function is unsupported (2). -/
def execConfigRequest (port : Fin 2) (fn : Fin 128) (field : Fin 32) (v : Option (BitVec 64)) (sys : State) :
    Host.Outcome State Fault Refusal := onDev sys fun s =>
  if !(hportOf s port).dlUp then s
    else if !(hportOf s port).ready then send s (.cfgReply 1 0)
    else if !(cfgReaches s port fn) then send s (.cfgReply 2 0)
    else match v with
    | some w => send (cfgWrite s port fn field w.toNat) (.cfgReply 0 0)
    | none => send s (.cfgReply 0 (cfgRead s port fn field))

/-- R482: a zero-length read is issued on a port without CXL.cache; its completion commits the writes sent before it. -/
def execFlushRead (port : Fin 2) (sys : State) : Host.Outcome State Fault Refusal := onDev sys fun s =>
  if (hportOf s port).dlUp && !(hportOf s port).cache then coverWrites (send s (.hostRead port 0 0)) port else s

end Sys2Proof.Machine
end

