-- ==== Sys2Proof/Machine/Hbm.lean ====
section
/-! DEFINITION. The stacked-memory controllers (R529 to R565): acceptance, command slots, refresh, scrub, failing rows,
mapped-out pseudo-channels, training and zero fill, interleave sets. -/

namespace Sys2Proof.Machine
open Sys2Proof

/-- Does the part carry stacks (R560)? -/
def hasHbm (s : Dev) : Bool := s.knots.grade != 3
/-- The stack of a pseudo-channel (R530). -/
def pcStack (pc : Nat) : Nat := pc / 32
/-- Does a stack answer: powered, trained and filled (R556, R558)? -/
def stackReady (s : Dev) (k : Nat) : Bool := mget false s.hbm.trained k && !(mget false s.hbm.init k)

/-! ### Addresses back from pseudo-channels -/

/-- The device-physical address of a local offset of a pseudo-channel, in the set that holds it (R535). -/
def stackAddr (s : Dev) (pc loc : Nat) : Option Nat :=
  ((List.range 128).find? (fun k => setValid s k && (setList s k).contains pc)).map (fun k =>
    let l := setList s k
    let m := l.length
    let r := loc / 256
    let f := (r % 65536) ^^^ (r / 65536 % 65536)
    let i := (l.takeWhile (fun x => decide (x ≠ pc))).length
    setBase s k + (r * m + (i + m - f % m) % m) * 256 + loc % 256)

/-- The partition in whose grants an address lies (R610). -/
def grantOwner (s : Dev) (a : Nat) : Option Nat := (definedParts s).find? (fun p => inGrants s (partSt s p) a 1)

/-- What the check code of a unit finds: 1 a corrected symbol, 2 an uncorrectable error (R532, R551). Poison in a grant is
charged to every context of its partition (R739). -/
def unitEcc (s : Dev) (pc loc : Nat) (ecc : Nat) : Dev :=
  let a := stackAddr s pc loc
  let part := a.bind (grantOwner s)
  match ecc with
  | 1 =>
    let key := (pc * 64 + Config.hbmBank loc % 64) * 2 ^ 18 + Config.hbmRow loc % 2 ^ 18
    let c := mget 0 s.hbm.rowCorr key + 1
    let s1 := raiseErr (ioInc (modHbm s (fun h => { h with rowCorr := mset 0 h.rowCorr key c, wb := h.wb ++ [(pc, loc / 64)] }))
      regHbmEcc 31 0 1) part 0x5001 0 pc none (a.getD 0) 0
    if c = 8 then failRow s1 pc loc else s1
  | 2 => hbmUe s part (if part.isSome then some anyCtx else none) pc loc (a.getD 0) 0
  | _ => s

/-- The 64-byte units of a pseudo-channel. -/
def pcUnits (s : Dev) : Nat := pcCap s / 64

/-- Patrol scrub at a pseudo-channel writes back a corrected unit, or reads the next one with what its check finds (R555,
R759). -/
def patrolStep (s : Dev) (pc : Nat) (ecc : Nat) : Dev :=
  match s.hbm.wb.find? (fun w => w.1 == pc) with
    | some w => modHbm s (fun h => { h with wb := h.wb.erase w })
    | none =>
      let u := mget 0 s.hbm.scrubPos pc
      let loc := 64 * u
      let inj := s.hbm.inject.contains pc
      let s1 := if inj then
          let a := stackAddr s pc loc
          let part := a.bind (grantOwner s)
          hbmUe (modHbm s (fun h => { h with inject := h.inject.erase pc })) part (if part.isSome then some anyCtx else none) pc loc (a.getD 0) (2 ^ 62)
        else unitEcc s pc loc ecc
      if u + 1 < pcUnits s then modHbm s1 (fun h => { h with scrubPos := mset 0 h.scrubPos pc (u + 1) })
      else modHbm s1 (fun h => { h with
        scrubPos := mset 0 h.scrubPos pc 0, scrubPass := mmod 0 h.scrubPass pc (fun n => (n + 1) % 2 ^ 32) })

/-! ### Acceptance and command slots (R539 to R542) -/

/-- The oldest write that goes to a pseudo-channel. -/
def nextWrite (s : Dev) (pc : Nat) : Option HbmReq :=
  s.hbm.inq.find? (fun q => match stackAt s q.addr with | some k => k / 2 ^ 31 == pc | none => false)

/-- R539: the oldest write of a tile that waits at a pseudo-channel is accepted and visible to later reads. -/
def execMemoryWriteAccept (pc : Fin 192) (sys : State) : Host.Outcome State Fault Refusal := onDev sys fun s =>
  match nextWrite s pc with
    | some q =>
      let loc := ((stackAt s q.addr).getD 0) % 2 ^ 31
      let x := tileOf s q.tile
      let s1 := stackTouch s false (partOf x) (coreCtx x) q.addr q.data.length
      modHbm (stackPut s1 q.addr q.data) (fun h => { h with
        inq := h.inq.erase q, queue := mmod [] h.queue pc (fun l => l ++ [loc]) })
    | none => s

/-- Is a bank closed by a row copy (R552)? -/
def bankClosed (s : Dev) (pc loc : Nat) : Bool := s.hbm.copying.any (fun r => r.1 == pc && r.2.1 == Config.hbmBank loc % 64)

/-- Does the present command slot of a pseudo-channel belong to patrol scrub: its number mod 100 is 50, or a refresh took that
slot (R542)? -/
def scrubTurn (s : Dev) (pc : Nat) : Bool := mget 0 s.hbm.slots pc == 50 || mget false s.hbm.scrubDue pc

/-- The slot passes; scrub's claim is kept where it did not get its slot (R542). -/
def passSlot (s : Dev) (pc : Nat) (owed : Bool) : Dev :=
  modHbm s (fun h => { h with slots := mmod 0 h.slots pc (fun n => (n + 1) % 100), scrubDue := mset false h.scrubDue pc owed })

/-- R540, R542, R532: a command slot: scrub's guaranteed one is scrub's; in any other the oldest accepted write is issued, or a
unit is read with what its check finds. -/
def execHbmCommandSlot (pc : Fin 192) (loc : Fin 0x80000000) (ecc : Fin 3) (sys : State) : Host.Outcome State Fault Refusal := onDev sys fun s =>
  if !(hasHbm s) || pcOut s pc then s
    else if scrubTurn s pc then patrolStep (passSlot s pc false) pc ecc
    else
      let s1 := passSlot s pc false
      match mget [] s1.hbm.queue pc with
      | w :: r => if bankClosed s1 pc w then s1 else modHbm s1 (fun h => { h with queue := mset [] h.queue pc r })
      | [] => if decide (pcCap s ≤ loc.val) || bankClosed s1 pc loc then s1 else unitEcc s1 pc loc ecc

/-! ### Refresh (R548 to R550) -/

/-- R548, R550, R540: a refresh that is due is issued: it takes a command slot, before scrub too, and changes nothing else. -/
def execRefresh (pc : Fin 192) (sys : State) : Host.Outcome State Fault Refusal := onDev sys fun s =>
  if !(hasHbm s) || pcOut s pc then s else passSlot s pc (scrubTurn s pc)

/-- The rate a temperature asks for, and the threshold of a rate (R548). -/
def rateFor (temp : Nat) : Nat := if 95 ≤ temp then 2 else if 85 ≤ temp then 1 else 0
def rateFloor (rate : Nat) : Nat := if rate = 2 then 95 else 85

/-- Is a set under fixed 4× refresh (R549)? -/
def setFixed (s : Dev) (k : Nat) : Bool := (setHolders s k).any (fun p => pMetro (partSt s p))
/-- Is a stack under fixed refresh: a pseudo-channel of it lies in such a set? -/
def stackFixed (s : Dev) (st : Nat) : Bool :=
  (List.range 128).any (fun k => setValid s k && setFixed s k && (setList s k).any (fun pc => pcStack pc == st))

/-- Since when a stack is cool enough for the next lower rate, after a temperature (R548). -/
def coolSince (s : Dev) (stack rate temp : Nat) : Option Nat :=
  if rateFor temp < rate ∧ temp + 3 ≤ rateFloor rate then some ((mget none s.hbm.cool stack).getD (slotTime s)) else none

/-- R548: the stack reports a temperature: the rate rises at once, and falls one step once it has stayed 3 °C below the
threshold for 10 ms. -/
def execRefreshRateChange (stack : Fin 6) (temp : Fin 256) (sys : State) : Host.Outcome State Fault Refusal := onDev sys fun s =>
  if !(hasHbm s) then s
    else
      let r := mget 0 s.hbm.rate stack
      let cool := coolSince s stack r temp
      let falls := match cool with | some t => decide (t + 10000000 ≤ slotTime s) | none => false
      let r1 := if falls then r - 1 else max r (rateFor temp)
      modHbm s (fun h => { h with
        temp := mset 0 h.temp stack temp, rate := mset 0 h.rate stack r1
        cool := mset none h.cool stack (if falls then none else cool) })

/-! ### Scrub (R555) -/

/-- Does a pseudo-channel lie in a set under fixed refresh (R549)? -/
def pcFixed (s : Dev) (pc : Nat) : Bool := (List.range 128).any (fun k => setValid s k && setFixed s k && (setList s k).contains pc)

/-- R542, R555, R759: patrol scrub has a slot: its guaranteed one, or, but in a set under R549, one no other traffic wants. -/
def execHbmScrubSlot (pc : Fin 192) (ecc : Fin 3) (sys : State) : Host.Outcome State Fault Refusal := onDev sys fun s =>
  if !(hasHbm s) || pcOut s pc || (pcFixed s pc && !(scrubTurn s pc)) then s else patrolStep (passSlot s pc false) pc ecc

/-! ### Failing rows and pseudo-channels (R545, R551 to R554) -/

/-- R545: the management controller maps a pseudo-channel out. -/
def execPcMapOut (pc : Fin 192) (sys : State) : Host.Outcome State Fault Refusal := onDev sys fun s => if hasHbm s then mapOut s pc else s

/-- The repair-list entry of a memory row (R36, R551). -/
def hbmRepair (r : Nat × Nat × Nat) : Word := setFld (setFld (setFld (setBit (BitVec.ofNat 64 6) 4 true) 13 5 r.1) 19 14 r.2.1) 37 20 r.2.2

/-- The spare rows of a bank in use (R551): committed, on their way to flash, or being copied to. -/
def sparesUsed (s : Dev) (pc bank : Nat) : Nat :=
  let hit (w : Word) : Bool := fld w 3 0 == 6 && fld w 13 5 == pc && fld w 19 14 == bank
  s.knots.eff.repairs.countP hit + s.knots.flashPend.countP (fun e => match e with | .repair w => hit w | _ => false) +
    s.hbm.copying.countP (fun r => r.1 == pc && r.2.1 == bank)

/-- R552, R554: the oldest failing row's bank closes and the row is copied to the lowest free spare; with no spare left the
pseudo-channel is mapped out. `late` latency-critical requests are extended (R541). -/
def execRowRemap (late : Fin 17) (sys : State) : Host.Outcome State Fault Refusal := onDev sys fun s =>
  match s.hbm.rowsBad.find? (fun r => !(s.hbm.copying.any (fun c => c.1 == r.1 && c.2.1 == r.2.1))) with
    | some r =>
      let s1 := modHbm s (fun h => { h with rowsBad := h.rowsBad.erase r })
      if 4 ≤ sparesUsed s r.1 r.2.1 || fullLayer s then mapOut s1 r.1
      else ioInc (modHbm s1 (fun h => { h with copying := h.copying ++ [r] })) regHbmLat 31 0 late
    | none => s

/-- R552, R551: the copy completes, the row is redirected and the bank opens; the remap is recorded (ID 0x5004). -/
def execRowRemapDone (sys : State) : Host.Outcome State Fault Refusal := onDev sys fun s =>
  match s.hbm.copying with
    | r :: rest =>
      let s1 := modHbm s (fun h => { h with copying := rest, unmade := h.unmade ++ [r] })
      addEntry (raiseErr (ioInc s1 regHbmRemap 15 0 1) none 0x5004 0 r.1 none 0 0) (.repair (hbmRepair r))
    | [] => s

/-- Does a pseudo-channel's window of these 32 ms stand open (R733)? -/
def memWindow (s : Dev) (pc : Nat) : Bool :=
  let a := pc % 32 * 1000000 + 500000
  let t := slotTime s % 32000000
  decide (a ≤ t) && decide (t < a + 2000)

/-- R557, R733: a recalibration window of a pseudo-channel; it is counted, and `late` requests are extended (R541). -/
def execMemoryRecalWindow (pc : Fin 192) (late : Fin 17) (sys : State) : Host.Outcome State Fault Refusal := onDev sys fun s =>
  if !(hasHbm s) || !(mget false s.hbm.trained (pcStack pc)) || !(memWindow s pc) then s else ioInc (ioInc s 0x000818 31 16 1) regHbmLat 31 0 late

/-! ### Training and zero fill (R553, R556, R558) -/

/-- R556, R553: a powered stack is trained: pseudo-channels that fail are mapped out, remapped rows become permanent, and
zero fill starts. -/
def execStackTraining (stack : Fin 6) (fails : List (Fin 192)) (sys : State) : Host.Outcome State Fault Refusal := onDev sys fun s =>
  if !(hasHbm s) || !(mget false s.hbm.powered stack) || mget false s.hbm.trained stack then s
    else
      let s1 := (fails.filter (fun pc => pcStack pc.val == stack.val)).foldl (fun s pc => mapOut s pc) (setLock s (5 + stack.val) true)
      modHbm s1 (fun h => { h with
        trained := mset false h.trained stack true, init := mset false h.init stack true
        rowCorr := h.rowCorr.filter (fun e => decide (pcStack (e.1 / 2 ^ 24) ≠ stack))
        unmade := h.unmade.filter (fun r => pcStack r.1 != stack.val) })

/-- A stack's bytes read zero and hold no poison (R558). -/
def zeroStack (s : Dev) (k : Nat) : Dev :=
  { s with stack := mclear s.stack (32 * k * 2 ^ 31) (2 ^ 36)
           stackPoison := mclear s.stackPoison (32 * k * 2 ^ 25) (2 ^ 30) }

/-- Set 0 at power-up: base 0, every pseudo-channel in service of the stacks that are ready (R537). -/
def defaultSet (s : Dev) : Dev :=
  let mask (i : Nat) : Word := (List.range 64).foldl (fun w b =>
    let pc := 64 * i + b
    if stackReady s (pcStack pc) && !(pcOut s pc) then setBit w b true else w) 0
  let s1 := (List.range 3).foldl (fun s i => ioSet s (0x0A1008 + 8 * i) (mask i)) s
  if mask 0 = 0 ∧ mask 1 = 0 ∧ mask 2 = 0 then s1 else ioSet s1 0x0A1000 1

/-- R558: zero fill of a stack completes and accesses are admitted. -/
def execStackZeroFillDone (stack : Fin 6) (sys : State) : Host.Outcome State Fault Refusal := onDev sys fun s =>
  if mget false s.hbm.init stack then modHbm (zeroStack s stack) (fun h => { h with init := mset false h.init stack false }) else s

/-! ### Interleave sets (R536, R727) -/

/-- Would a set of these values break R536? -/
def setBad (s : Dev) (k : Nat) (base : Nat) (mask : List Word) : Bool :=
  let pcs := (List.range 192).filter (fun pc => bit (mask.getD (pc / 64) 0) (pc % 64))
  let live := pcs.filter (fun pc => !(pcOut s pc))
  let a := base * 0x200000
  let size := live.length * pcCap s
  live.isEmpty || decide (2 ^ 38 < a + size) ||
    (List.range 128).any (fun j => j != k && setValid s j &&
      ((setList s j).any (fun pc => live.contains pc) || (decide (a < setBase s j + setSize s j) && decide (setBase s j < a + size))))

/-- A set write by SET_DEFINE (R536, R727): whether it took the new value. -/
def setDefine (s : Dev) (k : Nat) (valid : Bool) (base : Nat) (mask : List Word) : Dev × Bool :=
  if !(hasHbm s) || !(setHolders s k).isEmpty then (s, false)
  else if valid && setBad s k base mask then (ioSet s 0x0A0008 (setFld (setBit (ioGet s 0x0A0008) 0 true) 7 1 k), false)
  else
    let live (i : Nat) : Word := (List.range 64).foldl (fun w b =>
      if bit (mask.getD i 0) b && !(pcOut s (64 * i + b)) then setBit w b true else w) 0
    let s1 := (List.range 3).foldl (fun s i => ioSet s (0x0A1000 + 0x20 * k + 8 + 8 * i) (live i)) s
    (ioSet s1 (0x0A1000 + 0x20 * k) (setFld (BitVec.ofNat 64 (b2n valid)) 24 8 base), true)

end Sys2Proof.Machine
end

