-- ==== Sys2Proof/Machine/Power.lean ====
section
/-! DEFINITION. Power from the bus (ch. 4): the inrush stage, the rails and their sequences, functions that power up and
down, and what a loss of power or a part-fatal error leaves. -/

namespace Sys2Proof.Machine
open Sys2Proof

def modPwr (s : Dev) (f : PwrSt → PwrSt) : Dev := { s with pwr := f s.pwr }
def modKiln (s : Dev) (f : KilnSt → KilnSt) : Dev := { s with kiln := f s.kiln }
def railOf (s : Dev) (r : Nat) : RailSt := mget RailSt.off s.pwr.rails r
def modRail (s : Dev) (r : Nat) (f : RailSt → RailSt) : Dev := modPwr s (fun p => { p with rails := mmod RailSt.off p.rails r f })
def funcOf (s : Dev) (f : Nat) : FuncSt := mget FuncSt.reset s.pwr.funcs f
def modFunc (s : Dev) (f : Nat) (g : FuncSt → FuncSt) : Dev := modPwr s (fun p => { p with funcs := mmod FuncSt.reset p.funcs f g })

/-! ### The power balls (R163) -/

/-- PWRGD, FAULT_N and THERMTRIP_N. -/
def ballsOf (s : Dev) : List Bool :=
  [s.pwr.seq == 6, !(s.pwr.latched || s.pwr.inrushLatch || s.pwr.input == 2), !s.pwr.thermtrip]

/-- The part after a command, with a message for each ball that has changed. -/
def nxp (s0 s : Dev) : Dev :=
  [0, 1, 2].foldl (fun s1 i =>
    let v := (ballsOf s).getD i false
    if (ballsOf s0).getD i false == v then s1 else send s1 (.ball i (b2n v))) s

/-! ### What a loss of power or a part-fatal reset leaves (R88, R756, R770) -/

/-- The blocks on VMGMT: MGC_ and PWR_. -/
def onVmgmt (off : Nat) : Bool := decide (off < 0x010000) || (decide (0x030000 ≤ off) && decide (off < 0x040000))

/-- A tile that has lost its contents; its drawer counters outlive a part-fatal reset (R372, R770). -/
def lostTile (keep : Bool) (x : Tile) : Tile :=
  if keep then { Tile.reset with dr := { DrawerSt.reset with ecc := x.dr.ecc, fault := x.dr.fault, scrubPasses := x.dr.scrubPasses } }
  else Tile.reset

/-- A host port without power or in reset: what lies on VMGMT stays (R494, R770). -/
def lostPort (h : HPort) : HPort :=
  { HPort.reset with ctl := h.ctl, stats := h.stats, ap := h.ap, hostid := h.hostid, perst := h.perst }

/-- Everything outside the always-on domain is lost (R88, R756 step 4). -/
def loseDomains (s : Dev) (keep : Bool) : Dev :=
  { s with
    tiles := (s.tiles.map (fun e => (e.1, lostTile keep e.2))).filter (fun e => decide (e.2 ≠ Tile.reset))
    kindle := []
    io := s.io.filter (fun e => onVmgmt e.1)
    dowels := [], waiters := [], dops := [], wakes := [], dseq := [], clamps := [], mesh := [], barq := []
    parts := [], partCmd := .reset, rebuild := [], zeroing := []
    knots := { s.knots with jobs := s.knots.jobs.map (fun j => { j with parts := [] }) }
    hports := s.hports.map (fun e => (e.1, lostPort e.2))
    ctrlPort := s.ctrlPort
    xlt := .reset
    lny := { LenySt.reset with strap := s.lny.strap, slot := s.lny.slot, inc := s.lny.inc }
    coldRefuse := false
    hlc := .reset, bm := .reset, wqs := [], rings := [], corrLog := []
    hbm := .reset, stack := [], stackPoison := []
    clk := { ClkSt.reset with lock := s.clk.lock &&& 0x20000000 }
    timeValid := false }

/-! ### Part-fatal reports (R750, R752, R756, R757) -/

/-- The enabled rings. -/
def liveRings (s : Dev) : List Nat := (s.rings.filter (fun e => bit e.2.w1 0)).map (·.1)

/-- The part-fatal record enters every enabled ring and is written where the link is up. -/
def fatalRings (s : Dev) (id unit : Nat) : Dev :=
  (liveRings s).foldl (fun s p =>
    let e : ErrRec := { part := some p, index := 0, id := id, cls := 3, ctx := none, queue := none, esc := escOf id 3, summary := false
                        unit := unit, time := stamp s, seq := 0, addr := 0, detail := 0, count := 1 }
    let s1 := modRing s p (fun r => ringPush r { e with index := r.index })
    ringRecords (ringOf s1 p).queue.length s1 p) s

/-- Every dispatched work order completes with ERROR, and its record is written where the link is up (R756 step 3). -/
def failOrders (s : Dev) : Dev :=
  s.wqs.foldl (fun s e =>
    if e.2.disp.isSome then
      let s1 := endOrder s e.1 id
      if (hportOf s1 (pPort (partSt s1 (wqOf s1 e.1).part))).dlUp then completionWrite s1 e.1 else s1
    else s) s

/-- AER: Uncorrectable Internal Error on both PFs while their links are up (R752). -/
def fatalAer (s : Dev) (id unit : Nat) : Dev :=
  [0, 1].foldl (fun s n => if (hportOf s n).dlUp then aer s n 0 5 [0, BitVec.ofNat 64 (id + 2 ^ 16 * 3 + 2 ^ 48 * (unit % 65536))] else s) s

/-- The slots of the peer bindings and of the barrier groups this part is in. -/
def peerSlots (s : Dev) : List Nat :=
  let binds := ((List.range 2048).filter (fun i => bit (bindW s i 0) 0)).map (fun i => fld (bindW s i 0) 16 9)
  let grps := s.lny.grps.flatMap (fun e => if e.2.valid && (grpMembers e.2).contains s.lny.slot then grpMembers e.2 else [])
  ((binds ++ grps).filter (fun d => d != s.lny.slot)).dedup

/-- The reset notice of R757 to both managers and to every peer. -/
def resetNotices (s : Dev) (id : Nat) : Dev :=
  let body : List Word := [BitVec.ofNat 64 (s.lny.slot + 2 ^ 16 * id + 2 ^ 32 * s.lny.inc.toNat), BitVec.ofNat 64 (stamp s)]
  let s1 := send (send s (.mctp 0x100 4 body)) (.mctp 0x101 4 body)
  (peerSlots s1).foldl (fun s d => sendPeer s d (.resetNotice s.lny.inc)) s1

/-- ERR_LAST_FATAL (R759). -/
def setLastFatal (s : Dev) (id : Nat) : Dev :=
  { s with pf := { s.pf with
      last := setFld (setBit (setFld s.pf.last 15 0 id) 16 true) 63 32 s.lny.inc.toNat } }

/-! ### Taking the rails down (R144, R146, R147, R150, R152) -/

/-- The rails of a pair, A and B, but that of a leaf that is latched off (R159, R160). -/
def leafRails (s : Dev) (first : Nat) : List Nat :=
  ([0, 1].filter (fun leaf => !(funcOf s leaf).latch)).map (fun leaf => first + leaf)

/-- The groups of main rails in the order of power-up (R145, R22). -/
def railGroups (s : Dev) : List (List Nat) :=
  ([[1], [2], [3], leafRails s 4, leafRails s 6] ++ (if hasHbm s then [[8], [9]] else [])).filter (fun g => !g.isEmpty)

/-- The part latches (R151). -/
def latchPart (s : Dev) : Dev :=
  modPwr (pwrLog s 0x0013 0xFF 0 0) (fun p => { p with latched := true, seq := 15, startPend := false })

/-- The last rail of a sequence is down: Cold with the off time, retry back-off, or latched (R146, R151, R152, R154, R160).
The 50 ms of the off time start now whatever follows. -/
def finishDown (s : Dev) : Dev :=
  let s1 := modPwr (loseDomains s false) (fun p => { p with
    downing := false, offRun := true
    funcs := p.funcs.map (fun e => (e.1, { e.2 with st := 0, pend := none, wait := false })) })
  let s2 := { s1 with hold := false, pf := { s1.pf with phase := 0 }, kiln := { s1.kiln with due := false, bank := none, bankGo := none, shed := none, drained := false } }
  if s2.pwr.disch then latchPart (modPwr s2 (fun p => { p with disch := false }))
  else if s2.pwr.seq = 4 then (if 3 ≤ s2.pwr.attempt then latchPart s2 else s2)
  else modMgmt (modPwr s2 (fun p => { p with seq := 5 })) (fun m => { m with stage := 2 })

/-- The next group is disabled once nothing discharges; with none left the sequence ends (R144). (log entry 28, DESIGN CHOICE) -/
def downStep (s : Dev) : Dev :=
  if (List.range 9).any (fun i => (railOf s (i + 1)).st == 3) then s
  else
    let up (r : Nat) : Bool := (railOf s r).st == 1 || (railOf s r).st == 2
    match (railGroups s).reverse.find? (fun g => g.any up) with
    | some g => g.foldl (fun s r => if up r then modRail s r (fun x => { x with st := 3 }) else s) s
    | none => finishDown s

/-- Issue is held and kindling stops; the stacks leave service and trained Lenys ports are told (R146, R147). -/
def stopWork (s : Dev) : Dev :=
  let s1 := modHbm (modKiln { s with hold := true } (fun k => { k with kind := 0, kindTiles := 0, quanta := [] })) (fun h => { h with trained := [], init := [] })
  s1.lny.ports.foldl (fun s e => if e.2.st = 2 then modLport (send s (.lenysLink e.1 1 0)) e.1 (fun q => { q with st := 3, replay := [], outq := [] }) else s) s1

/-- Start taking the rails down under a SEQ code. -/
def takeDown (s : Dev) (seq : Nat) : Dev := downStep (modPwr s (fun p => { p with seq := seq, downing := true, phase := 0, nextDue := false }))

/-- R146: the ordered power-down. -/
def orderedDown (s : Dev) : Dev := takeDown (stopWork s) 2
/-- R147, R88: the emergency power-down; running work orders fail. -/
def emergencyDown (s : Dev) : Dev := takeDown (stopWork (failOrders s)) 3

/-- A part-fatal error that ends in the ordered power-down (R155, R755, R758): reported, work orders fail. -/
def fatalDown (s : Dev) (id unit : Nat) : Dev :=
  let s0 := setLastFatal s id
  orderedDown (failOrders (fatalRings (resetNotices (fatalAer s0 id unit) id) id unit))

/-! ### Bringing the rails up (R145, R149 to R151, R154) -/

/-- Enable a group of rails. -/
def enableGroup (s : Dev) (g : List Nat) : Dev := g.foldl (fun s r => modRail s r (fun x => { x with st := 1 })) s

/-- Begin the sequence of R145 (first attempt or retry); rails that had failed are off and enabled in their turn. -/
def beginRails (s : Dev) : Dev :=
  enableGroup (modPwr s (fun p => { p with
    seq := 1, phase := 0, nextDue := false, downing := false, disch := false, offRun := false
    rails := p.rails.filter (fun e => e.1 == 0 || e.1 == 10) })) [1]

/-- R145, R770: power-up from Cold: Kiln returns to reset and takes the term that granted it. -/
def startPower (s : Dev) (term : BitVec 32) : Dev :=
  let s1 := { s with kiln := { KilnSt.reset with
      term := term, freqReq := BitVec.ofNat 64 (s.knots.fmax * 257), freqLoad := BitVec.ofNat 64 (s.knots.fmax * 257) }, hold := false, coldRefuse := false }
  let s2 := modMgmt s1 (fun m => { m with stage := 3, startAt := s1.uptime, bist := 0, bootStop := false })
  beginRails (modPwr s2 (fun p => { p with attempt := 0, startPend := false }))

/-- May the part take a START: the inrush stage is up and the firmware runs (R139, R713, R714)? -/
def startable (s : Dev) : Bool := s.pwr.inrush == 4 && fwUp s

/-- A START that was held begins power-up once the off time is over and the inrush stage is up (R154). -/
def heldStart (s : Dev) : Dev := if s.pwr.seq = 0 && s.pwr.startPend && startable s then startPower s s.kiln.term else s

/-- R93, R142, R151, R154: an accepted START acts in Cold, is held in the off time, and is discarded otherwise. Its term is the
accepted one whatever becomes of it (R96). -/
def grantStart (s : Dev) (term : BitVec 32) : Dev :=
  let s1 := modKiln s (fun k => { k with term := term })
  if s.pwr.seq = 0 then (if startable s then startPower s term else s1)
  else if s.pwr.seq = 5 then modPwr s1 (fun p => { p with startPend := true })
  else s1

/-! ### Functions (R157 to R160) -/

/-- Has a port drained (R583): no table entry names it and its replay buffer is empty? -/
def portDrained (s : Dev) (p : Nat) : Bool :=
  (lportOf s p).replay.isEmpty && !((List.range 256).any (fun d => let w := routeOf s d; bit w 8 && (fld w 3 0 == p || fld w 7 4 == p)))

/-- Does a partition use a function, or does a port still route (R157, R559, R583)? -/
def funcBusy (s : Dev) (f : Nat) : Bool :=
  if f < 2 then s.tiles.any (fun e => decide (e.1 / 128 = f) && e.2.member != 0)
  else if f < 8 then (List.range 128).any (fun k => setValid s k && (setList s k).any (fun pc => pcStack pc == f - 2))
  else
    let q := lportOf s (f - 8)
    q.st == 2 && (q.routeEn || !(portDrained s (f - 8)))

/-- The bit of CLK_LOCK of a stack's or port's PLL, of a leaf's tile PLL (R81). -/
def funcPll (f : Nat) : Nat := if f < 2 then f else if f < 8 then f + 3 else f + 5

/-- A function has powered down, its rails or switch and its PLL with it (R157). -/
def funcOff (s0 : Dev) (f : Nat) : Dev :=
  let s := setLock s0 (funcPll f) false
  if f < 2 then modRail (modRail { s with tiles := s.tiles.filter (fun e => decide (e.1 / 128 ≠ f)) } (6 + f) (fun _ => RailSt.off)) (4 + f) (fun _ => RailSt.off)
  else if f < 8 then
    let k := f - 2
    modHbm { s with stack := mclear s.stack (32 * k * 2 ^ 31) (2 ^ 36), stackPoison := mclear s.stackPoison (32 * k * 2 ^ 25) (2 ^ 30) }
      (fun h => { h with powered := mset false h.powered k false, trained := mset false h.trained k false, init := mset false h.init k false })
  else modLport s (f - 8) (fun q => if q.st = 4 then q else { q with st := 0, replay := [], outq := [] })

/-- A function has powered up; what its training needs follows. A leaf's rails are good and its PLL has locked (R157). -/
def funcOn (s : Dev) (f : Nat) : Dev :=
  if f < 2 then setLock (modRail (modRail s (4 + f) (fun r => { r with st := 2 })) (6 + f) (fun r => { r with st := 2 })) f true
  else if f < 8 then (if hasHbm s then modHbm s (fun h => { h with powered := mset false h.powered (f - 2) true }) else s)
  else if (lportOf s (f - 8)).st = 4 then s else startTraining s (f - 8) false

/-- A leaf's power-up starts with VSRAM, its power-down with VTILE (R157). -/
def leafRamp (s : Dev) (f : Nat) (up : Bool) : Dev :=
  if 2 ≤ f then s
  else if up then modRail s (4 + f) (fun r => { r with st := 1 })
  else modRail s (6 + f) (fun r => { r with st := 3 })

/-- A request acts (R157, R158): one that asks for the state reached, or whose precondition fails, does nothing. -/
def funcAct (s : Dev) (f : Nat) (en : Bool) : Dev :=
  let x := funcOf s f
  if en then (if x.st = 0 ∧ !x.latch then leafRamp (modFunc s f (fun x => { x with st := 2, tries := 0, wait := false })) f true else s)
  else if x.st = 3 && !(funcBusy s f) then
    leafRamp (modFunc (if 8 ≤ f then modLport s (f - 8) (fun q => if q.st = 4 then q else { q with st := 3, replay := [], outq := [] }) else s) f
      (fun x => { x with st := 1 })) f false
  else s

/-- A request of PWR_FUNC_CTRL (R158): it acts, or waits in the function's slot while the function or the part moves. -/
def funcReq (s : Dev) (f : Nat) (en : Bool) : Dev :=
  let moving := (funcOf s f).st == 1 || (funcOf s f).st == 2
  if s.pwr.seq = 6 then (if moving then modFunc s f (fun x => { x with pend := some en }) else funcAct s f en)
  else if 1 ≤ s.pwr.seq ∧ s.pwr.seq ≤ 4 then modFunc s f (fun x => { x with pend := some en })
  else s

/-- The slot of a function is acted on and emptied. -/
def funcPending (s : Dev) (f : Nat) : Dev :=
  match (funcOf s f).pend with
  | some en => funcAct (modFunc s f (fun x => { x with pend := none })) f en
  | none => s

/-! ### Boot after the release of the domain resets (R716, R64, R30, R48, R758) -/

/-- The attach links out of service, as the fold is made again at a part reset (R64). -/
def attachList (s : Dev) : List Nat :=
  (s.knots.eff.repairs.filter (fun w => fld w 3 0 == 7 && !(bit w 16) && decide (288 ≤ fld w 13 5))).map (fun w => fld w 13 5 - 288)

/-- The record of stream 3 (R709): incarnation and boot count, the slots selected. -/
def bootRecord (s : Dev) : List Word :=
  [BitVec.ofNat 64 (s.lny.inc.toNat + 2 ^ 32 * (cap 16 s.mgmt.bootCount) + 2 ^ 48 * s.mgmt.sel1 + 2 ^ 49 * s.mgmt.sel2)]

/-- A part-fatal error that leaves the boot at STAGE BIST with the host ports down (R758). -/
def bootStops (s : Dev) (id : Nat) : Dev :=
  let s1 := raiseErr s none id 3 0xFFFF none 0 0
  modMgmt { setLastFatal s1 id with fatal := s.fatal } (fun m => { m with stage := 4, bootStop := true })

/-- A function comes up with the part, unless it is latched off; in a self-reset, where the rails stay up, only one that was on
trains again (R160, R755). -/
def funcBoot (powerUp : Bool) (s : Dev) (f : Nat) : Dev :=
  let x := funcOf s f
  if x.latch || (!powerUp && x.st != 3) then s else funcOn (modFunc s f (fun x => { x with st := 3 })) f

/-- The domain resets are released: functions come up, knot map loaded, key derived, host ports enabled, incarnation committed,
Lenys ports and stacks start to train (R716). -/
def bootRelease (s0 : Dev) (powerUp : Bool) : Dev :=
  let s := (List.range 24).foldl (funcBoot powerUp) s0
  let s1 := modKnots s (fun k => { k with attachOut := attachList s })
  if 8 < bridgeOut s1 then bootStops s1 0x1103
  else if s1.knots.unrecorded then bootStops s1 0x8002
  else
    let s2 := modMgmt { s1 with lny := { s1.lny with inc := s1.lny.inc + 1 } } (fun m => { m with
      stage := 5, attest := true, bist := 0, bootCount := satAdd 16 m.bootCount 1 })
    let s3 := logWrite s2 3 (bootRecord s2)
    [0, 1].foldl (fun s n => modHport s n (fun h => { h with linkDis := false, ready := false })) s3

/-! ### Commands of the inrush stage (R134 to R142, R153, R156) -/

/-- R139: PWR_EN rises with the input in its operating range. -/
def execPwrEnHigh (vin : BitVec 16) (sys : State) : Host.Outcome State Fault Refusal := onDev sys fun s =>
  nxp s (modPwr s (fun p => { p with pwrEn := true, inRange := true, vin := vin.toNat, input := if p.input = 2 then 0 else p.input }))

/-- R156, R163: PWR_EN is held low for 1 s: the switch is held open and its latch ends. -/
def execPwrEnLow (sys : State) : Host.Outcome State Fault Refusal := onDev sys fun s =>
  nxp s (modPwr s (fun p => { p with pwrEn := false, inrush := 0, tries := 0, inrushLatch := false }))

/-- R135: the input leaves 46 to 56 V. -/
def execInputExcursionStart (vin : BitVec 16) (sys : State) : Host.Outcome State Fault Refusal := onDev sys fun s =>
  if s.pwr.inRange && s.pwr.input == 0 then modPwr s (fun p => { p with input := 1, vin := vin.toNat }) else s

/-- R135: it returns in time; the excursion is counted and logged, by a part that has VMGMT (R141). -/
def execInputExcursionEnd (vin : BitVec 16) (sys : State) : Host.Outcome State Fault Refusal := onDev sys fun s =>
  if s.pwr.input = 1 then
      pwrLog (modPwr s (fun p => { p with input := 0, vin := vin.toNat, exc := if p.vmgmt then satAdd 16 p.exc 1 else p.exc })) 0x0001 0xFF 0 0
    else s

/-- R136, R147, R174, R175: an input fault: the switch opens, and what runs goes down on hold-up. -/
def execInputFault (high : Bool) (vin : BitVec 16) (sys : State) : Host.Outcome State Fault Refusal := onDev sys fun s =>
  nxp s (if s.pwr.input = 2 || !s.pwr.inRange then s
    else
      let s1 := pwrLog (modPwr s (fun p => { p with input := 2, inRange := false, inrush := 0, vin := vin.toNat })) (if high then 3 else 2) 0xFF 0 0
      if s1.pwr.seq = 6 then emergencyDown s1
      else if s1.pwr.seq = 2 then modPwr s1 (fun p => { p with seq := 3 })
      else if s1.pwr.seq = 4 && !s1.pwr.downing then modPwr s1 (fun p => { p with attempt := 0, seq := if p.offRun then 5 else 0 })
      else if s1.pwr.seq = 1 ∨ s1.pwr.seq = 4 then emergencyDown (modPwr s1 (fun p => { p with attempt := 0 }))
      else s1)

/-- R153, R156: the input returns; the switch stays open until a shutdown has ended. An input that had been removed for at
least 1 s ends the inrush stage's latch. -/
def execInputReturn (back : BitVec 16 × Bool) (sys : State) : Host.Outcome State Fault Refusal := onDev sys fun s =>
  nxp s (if s.pwr.inRange then s
    else pwrLog (modPwr s (fun p => { p with
      inRange := true, input := 0, vin := back.1.toNat
      tries := if back.2 then 0 else p.tries, inrushLatch := p.inrushLatch && !back.2 })) 0x0040 0xFF 0 0)

/-- R139, R153, R156, R163: 10 ms in range with PWR_EN high: the switch closes, and with this bring-up THERMTRIP_N is
released. -/
def execInputDebounceDone (sys : State) : Host.Outcome State Fault Refusal := onDev sys fun s =>
  if s.pwr.inRange && s.pwr.pwrEn && s.pwr.inrush == 0 && !s.pwr.inrushLatch && s.pwr.seq != 3 then
      nxp s (modPwr s (fun p => { p with inrush := 1, thermtrip := false }))
    else s

/-- R139: the internal node is up; the IB charges. -/
def execInrushNodeUp (sys : State) : Host.Outcome State Fault Refusal := onDev sys fun s =>
  if s.pwr.inrush = 1 then modRail (modPwr s (fun p => { p with inrush := 2 })) 10 (fun r => { r with st := 1 }) else s

/-- What a supply measures as it becomes good: a voltage from `lo` mV in a range, and a current, free within them (R139, R173;
log entry 75, DESIGN CHOICE). -/
def goodReading (s : Dev) (lo range : Nat) : RailSt :=
  ⟨2, lo + (Config.freeWord s.freeCtr).toNat % (range + 1), (Config.freeWord (s.freeCtr + 1)).toNat % 65536⟩

/-- R139, R153, R154: IB good, which is 5.7 V; VMGMT starts, unless it has stayed good on hold-up: then a START held in the off time
begins power-up. -/
def execIbGood (sys : State) : Host.Outcome State Fault Refusal := onDev sys fun s =>
  if s.pwr.inrush = 2 then
      let s1 := modRail (drawFree (drawFree s)) 10 (fun _ => goodReading s 5700 0)
      if s1.pwr.vmgmt then heldStart (modPwr s1 (fun p => { p with inrush := 4, tries := 0 }))
      else modRail (modPwr s1 (fun p => { p with inrush := 3 })) 0 (fun r => { r with st := 1 })
    else s

/-- R139, R140, R144, R566: VMGMT good, within 95–105% of 0.80 V: the straps are read and the management controller leaves reset. -/
def execVmgmtGood (sys : State) : Host.Outcome State Fault Refusal := onDev sys fun s =>
  if s.pwr.inrush = 3 then
      let s1 := modRail (modPwr (drawFree (drawFree s)) (fun p => { p with inrush := 4, vmgmt := true, tries := 0 })) 0 (fun _ => goodReading s 760 80)
      let s2 := modClk { s1 with lny := { s1.lny with slot := s1.lny.strap } } (fun c => { c with lock := setBit c.lock 29 true })
      modMgmt s2 (fun m => { m with stage := 0 })
    else s

/-- R156: VMGMT or the IB misses its window: the switch opens; after the third failed retry it stays open. -/
def execInrushWindowFault (sys : State) : Host.Outcome State Fault Refusal := onDev sys fun s =>
  nxp s (if 1 ≤ s.pwr.inrush ∧ s.pwr.inrush ≤ 3 then
      let s1 := modPwr s (fun p => { p with inrush := 0, tries := min 3 (p.tries + 1), inrushLatch := decide (3 ≤ p.tries) })
      modRail (modRail s1 10 (fun _ => RailSt.off)) 0 (fun r => if s1.pwr.vmgmt then r else RailSt.off)
    else s)

/-- What is left when VMGMT is lost: fuses, flash, pins and straps, and what the inrush stage keeps (R28, R44, R141, R156,
R163, R770). Defects that could not be recorded keep the part down until it is returned (R48). -/
def loseVmgmt (s : Dev) : Dev :=
  let m := s.mgmt
  let s1 := loseDomains s false
  let eff := s.knots.field.foldl applyEntry s.knots.fac
  { s1 with
    io := [], uptime := 0, hold := false, clk := .reset, logPend := [], fatal := [], ctrlPort := 0
    kiln := { KilnSt.reset with freqReq := BitVec.ofNat 64 (s.knots.fmax * 257), freqLoad := BitVec.ofNat 64 (s.knots.fmax * 257) }
    hports := s.hports.map (fun e => (e.1, { HPort.reset with perst := e.2.perst }))
    knots := { s.knots with vol := [], eff := eff, gen := BitVec.ofNat 64 s.knots.field.length, flashPend := [], jobs := [], unc := [], due := [] }
    mgmt := { MgmtSt.reset with
      revoked := m.revoked, roll1 := m.roll1, roll2 := m.roll2, sel1 := m.sel1, sel2 := m.sel2, bootCount := m.bootCount
      flash := m.flash, sectors := m.sectors, seqs := m.seqs, wearWarn := m.wearWarn }
    pf := { FatalSt.reset with last := s.pf.last }
    pwr := { PwrSt.reset with
      inRange := s.pwr.inRange, pwrEn := s.pwr.pwrEn, input := s.pwr.input, vin := s.pwr.vin, logSeq := s.pwr.logSeq
      tries := s.pwr.tries, inrushLatch := s.pwr.inrushLatch, thermtrip := s.pwr.thermtrip, mgmtLost := s.pwr.mgmtLost } }

/-- The supply that left its good range, VMGMT (0) or the IB (10): free (R156; log entry 75, DESIGN CHOICE). -/
def lostSupply (s : Dev) : Nat := if bit (Config.freeWord s.freeCtr) 0 then 10 else 0

/-- R156, R141: VMGMT or the IB leaves its good range: the switch opens and every rail is off at once. Where the inrush stage was
up the loss is kept to be logged; the end of hold-up without input is no fault. -/
def execMgmtSupplyLost (sys : State) : Host.Outcome State Fault Refusal := onDev sys fun s =>
  nxp s (if s.pwr.vmgmt then
      modPwr (loseVmgmt (drawFree s)) (fun p => { p with mgmtLost := if s.pwr.inrush = 4 then some (lostSupply s) else p.mgmtLost })
    else s)

/-! ### Commands of the sequencer -/

/-- The leaf whose power-up or power-down a rail of VSRAM or VTILE belongs to (R157). -/
def railLeaf (s : Dev) (rail st : Nat) : Option Nat :=
  if 4 ≤ rail ∧ rail ≤ 7 ∧ s.pwr.seq = 6 ∧ (funcOf s (rail % 2)).st = st ∧ !(funcOf s (rail % 2)).wait then some (rail % 2) else none

/-- R144, R145: a rail in soft start is good; the next follows 100 µs later, and after the last the PLLs lock. A leaf's rails
follow the same steps in its own power-up (R157). -/
def execRailGood (rail : Fin 11) (reading : BitVec 16 × BitVec 16) (sys : State) : Host.Outcome State Fault Refusal := onDev sys fun s =>
  let r : RailSt := ⟨2, reading.1.toNat, reading.2.toNat⟩
  if (railLeaf s rail 2).isSome && (railOf s rail).st == 1 then modRail s rail (fun _ => r)
    else if s.pwr.seq = 1 ∧ (railOf s rail).st = 1 then
      let s1 := modRail s rail (fun _ => r)
      let gs := railGroups s1
      let last := gs.getLast?.getD []
      if (gs.find? (fun g => g.contains rail.val)).any (fun g => g.all (fun r => (railOf s1 r).st == 2)) then
        (if last.contains rail.val then modPwr s1 (fun p => { p with phase := 1 }) else modPwr s1 (fun p => { p with nextDue := true }))
      else s1
    else s

/-- The leaf whose VSRAM is good and whose VTILE waits to be enabled (R157). -/
def leafNext (s : Dev) : Option Nat :=
  [0, 1].find? (fun f => (railLeaf s (4 + f) 2).isSome && (railOf s (4 + f)).st == 2 && (railOf s (6 + f)).st == 0)

/-- R144: the next rail of the sequence is enabled, or VTILE of a leaf that powers up. -/
def execNextRailEnable (sys : State) : Host.Outcome State Fault Refusal := onDev sys fun s =>
  if s.pwr.seq = 1 && s.pwr.nextDue then
      (match (railGroups s).find? (fun g => g.any (fun r => (railOf s r).st == 0)) with
       | some g => enableGroup (modPwr s (fun p => { p with nextDue := false })) g
       | none => s)
    else match leafNext s with
      | some f => modRail s (6 + f) (fun r => { r with st := 1 })
      | none => s

/-- The bits of CLK_LOCK that lock in power-up (R81): all, but for the stacks' on FK256-N. -/
def lockAll (s : Dev) : Word := if hasHbm s then 0x7FFFFFFF else 0x7FFFF81F
/-- All but the PLLs of functions that stay off (R81, R157, R160). -/
def lockOf (s : Dev) (off : FuncSt → Bool) : Word :=
  (List.range 24).foldl (fun w f => if off (funcOf s f) then setBit w (funcPll f) false else w) (lockAll s)

/-- R145, R716: the PLLs lock, the domain resets are released and kindling starts to raise the draw. -/
def execPllLockDone (sys : State) : Host.Outcome State Fault Refusal := onDev sys fun s =>
  if s.pwr.seq = 1 ∧ s.pwr.phase = 1 then
      bootRelease (modPwr (modClk s (fun c => { c with lock := lockOf s (·.latch) })) (fun p => { p with phase := 2 })) true
    else s

/-- A rail of a leaf that powers down has gone down or failed: after VTILE comes VSRAM (R157). -/
def leafDown (s : Dev) (rail : Nat) : Dev := if 6 ≤ rail then modRail s (rail - 2) (fun r => { r with st := 3 }) else s

/-- R144, R146, R157: a discharging rail is down; the next is disabled. -/
def execRailDown (rail : Fin 11) (sys : State) : Host.Outcome State Fault Refusal := onDev sys fun s =>
  nxp s (if s.pwr.downing ∧ (railOf s rail).st = 3 then downStep (modRail s rail (fun _ => RailSt.off))
    else if (railLeaf s rail 1).isSome && (railOf s rail).st == 3 then leafDown (modRail s rail (fun _ => RailSt.off)) rail
    else s)

/-- R152: a rail fails to discharge, or its converter reports current limit; the sequence goes on. In a leaf's power-down the
failure is recorded and the leaf's own sequence goes on (log entry 28, DESIGN CHOICE). -/
def execDischargeWindowEnd (rail : Fin 11) (ilim : Bool) (mv da : BitVec 16) (sys : State) : Host.Outcome State Fault Refusal := onDev sys fun s =>
  nxp s (if s.pwr.downing ∧ (railOf s rail).st = 3 then
      let s1 := pwrLog (modRail s rail (fun _ => ⟨4, mv.toNat, da.toNat⟩)) (if ilim then 0x0021 else 0x0020) rail mv.toNat da.toNat
      downStep (modPwr s1 (fun p => { p with disch := p.disch || !ilim }))
    else if (railLeaf s rail 1).isSome && (railOf s rail).st == 3 then
      leafDown (pwrLog (modRail s rail (fun _ => ⟨4, mv.toNat, da.toNat⟩)) (if ilim then 0x0021 else 0x0020) rail mv.toNat da.toNat) rail
    else s)

/-- R148, R149: the interlock clamps VHBM_Q, or a stack's switch of it; it is logged. A VHBM_Q clamped in its soft start has
not become good and fails at its window's end; one that had failed to discharge stays failed. -/
def execQclamp (stack : Option (Fin 6)) (mv da : BitVec 16) (sys : State) : Host.Outcome State Fault Refusal := onDev sys fun s =>
  nxp s (match stack with
    | some k => if mget false s.hbm.powered k then pwrLog (funcOff s (k.val + 2)) 0x0028 9 mv.toNat da.toNat else s
    | none =>
      if (railOf s 9).st = 0 then s
      else if (railOf s 9).st = 1 ∨ (railOf s 9).st = 4 then pwrLog s 0x0028 9 mv.toNat da.toNat
      else
        let s1 := pwrLog (modRail s 9 (fun _ => RailSt.off)) 0x0028 9 mv.toNat da.toNat
        if s1.pwr.downing then downStep s1 else s1)

/-- R159: a power-up of a function fails: it is logged under the function's index and its own retry count; after the third
failed retry the function is latched off, else it is tried again 1 s later. A leaf's rails go down with it. -/
def funcFault (s : Dev) (f mv da : Nat) : Dev :=
  let x := funcOf s f
  let s1 := pwrLogFor s 0x0050 f x.tries mv da
  let down (r : RailSt) : RailSt := if r.st = 1 then ⟨4, mv, da⟩ else RailSt.off
  let s2 := if f < 2 then modRail (modRail s1 (4 + f) down) (6 + f) down else s1
  if 3 ≤ x.tries then modFunc s2 f (fun x => { x with st := 0, latch := true })
  else modFunc s2 f (fun x => { x with tries := x.tries + 1, wait := true })

/-- A function that waited its 1 s powers up again (R151, R159). -/
def funcRetry (s : Dev) (f : Nat) : Dev :=
  if (funcOf s f).wait then leafRamp (modFunc s f (fun x => { x with wait := false })) f true else s

/-- R149, R150: a rail of the power-up fails (0 SHORT, 1 SLOW, 2 ILIM): it is off, the others go down, and the fault is
logged; the other rail of a pair is recorded as well. In a leaf's power-up the leaf alone fails (R159). -/
def execSoftStartFault (rail : Fin 11) (kind : Fin 3) (mv da : BitVec 16) (sys : State) : Host.Outcome State Fault Refusal := onDev sys fun s =>
  let x := railOf s rail
  let record (s : Dev) : Dev := pwrLog (modRail s rail (fun _ => ⟨4, mv.toNat, da.toNat⟩)) (0x0010 + kind.val) rail mv.toNat da.toNat
  nxp s (if s.pwr.seq = 1 ∧ x.st = 1 then takeDown (record s) 4
    else if s.pwr.seq = 4 && s.pwr.downing && x.st == 3 && rail.val ≥ 4 && rail.val ≤ 7 then downStep (record s)
    else match railLeaf s rail 2 with
      | some f =>
        let s1 := funcFault s f mv.toNat da.toNat
        if x.st ≠ 1 then s else if (funcOf s1 f).st = 0 then funcPending s1 f else s1
      | none => s)

/-- R151: 1 s after the teardown the power-up is tried again; so are the functions whose retry waits (R159). -/
def execRetryBackoffEnd (sys : State) : Host.Outcome State Fault Refusal := onDev sys fun s =>
  nxp s (if s.pwr.seq = 4 && !s.pwr.downing then
      beginRails (modPwr s (fun p => { p with attempt := p.attempt + 1 }))
    else if s.pwr.seq = 6 then (List.range 24).foldl funcRetry s
    else s)

/-- R151, R154, R169: CLEAR_LATCH; what is left of the off time still runs. -/
def clearLatch (s : Dev) : Dev :=
  if s.pwr.latched then
    pwrLog (modPwr s (fun p => { p with latched := false, seq := if p.offRun then 5 else 0, attempt := 0, rails := p.rails.filter (fun e => e.1 == 0 || e.1 == 10) })) 0x0041 0xFF 0 0
  else s

/-- R169. -/
def execPwrClearLatch (sys : State) : Host.Outcome State Fault Refusal := onDev sys fun s => nxp s (clearLatch s)

/-- R154: the off time ends; a held START begins power-up. -/
def execOffTimeEnd (sys : State) : Host.Outcome State Fault Refusal := onDev sys fun s =>
  nxp s (if s.pwr.seq = 5 then heldStart (modPwr s (fun p => { p with seq := 0, offRun := false }))
    else modPwr s (fun p => { p with offRun := false }))

/-- R155: an up rail fails, in power-up too: part-fatal, and the ordered power-down runs at once (ID 0x7002). One that fails
while the rails go down is logged and the sequence goes on (ch. 4, seams; log entry 28, DESIGN CHOICE). -/
def execRailFault (rail : Fin 11) (mv da : BitVec 16) (sys : State) : Host.Outcome State Fault Refusal := onDev sys fun s =>
  nxp s (if (s.pwr.seq == 6 || s.pwr.seq == 1) && rail.val ≠ 0 && rail.val ≠ 10 && (railOf s rail).st == 2 then
      let s1 := pwrLog (modRail s rail (fun _ => ⟨4, mv.toNat, da.toNat⟩)) 0x0030 rail mv.toNat da.toNat
      fatalDown { raiseErr s1 none 0x7002 3 0xFFFF none 0 0 with fatal := s.fatal } 0x7002 0xFFFF
    else if s.pwr.downing && rail.val ≠ 0 && rail.val ≠ 10 && (railOf s rail).st == 2 then
      downStep (pwrLog (modRail s rail (fun _ => ⟨4, mv.toNat, da.toNat⟩)) 0x0030 rail mv.toNat da.toNat)
    else s)

/-- R118, R155: a junction reaches 125 °C (ID 0x7003): the rails go down, if they are not going down already. -/
def execThermalTrip (sys : State) : Host.Outcome State Fault Refusal := onDev sys fun s =>
  nxp s (if s.pwr.downing then modPwr (setLastFatal { raiseErr s none 0x7003 3 0xFFFF none 0 0 with fatal := s.fatal } 0x7003) (fun p => { p with thermtrip := true })
    else if s.pwr.seq = 6 ∨ s.pwr.seq = 1 then
      fatalDown { modPwr (raiseErr s none 0x7003 3 0xFFFF none 0 0) (fun p => { p with thermtrip := true }) with fatal := s.fatal } 0x7003 0xFFFF
    else s)

/-- R550: a stack trips at 105 °C (ID 0x5006). -/
def execStackThermalTrip (stack : Fin 6) (sys : State) : Host.Outcome State Fault Refusal := onDev sys fun s =>
  nxp s (if (s.pwr.seq == 6 || s.pwr.seq == 1) && mget false s.hbm.powered stack then
      fatalDown { raiseErr s none 0x5006 3 (32 * stack.val) none 0 0 with fatal := s.fatal } 0x5006 (32 * stack.val)
    else s)

/-! ### Commands of the functions -/

/-- R158: PWR_FUNC_CTRL with ENABLE 1. -/
def execFuncPowerUp (f : Fin 24) (sys : State) : Host.Outcome State Fault Refusal := onDev sys fun s => funcReq s f true
/-- R157: PWR_FUNC_CTRL with ENABLE 0. -/
def execFuncPowerDown (f : Fin 24) (sys : State) : Host.Outcome State Fault Refusal := onDev sys fun s => funcReq s f false

/-- R158, R159: a transition completes; a power-up that failed, with its rail's or switch's voltage and current, is logged and
retried, and after three retries the function is latched off. The slot is then acted on. -/
def execFuncTransitionDone (f : Fin 24) (fail : Option (BitVec 16 × BitVec 16)) (sys : State) : Host.Outcome State Fault Refusal := onDev sys fun s =>
  let x := funcOf s f
  if x.st = 1 then funcPending (modFunc (funcOff s f) f (fun x => { x with st := 0 })) f
    else if x.st = 2 && !x.wait then
      (match fail with
       | none => funcPending (modFunc (funcOn s f) f (fun x => { x with st := 3 })) f
       | some (mv, da) =>
        let s1 := funcFault s f mv.toNat da.toNat
        if (funcOf s1 f).st = 0 then funcPending s1 f else s1)
    else s

end Sys2Proof.Machine
end

