-- ==== Sys2Proof/Machine/Kiln.lean ====
section
/-! DEFINITION. Kiln (ch. 3): the fast loop, epochs, cords, sheds, banking, kindling; tile clocks and PLLs (R70 to R85). Powers
are in units of 10 µW. -/

namespace Sys2Proof.Machine
open Sys2Proof

/-- 1 W; the 180 W of Smoulder; the package limit; a cord; 1/8 W. -/
def watt : Nat := 100000
def smoulderW : Nat := 180 * watt
def packageW : Nat := 1180 * watt
def cordW : Nat := 25 * watt
def eighthW : Nat := 12500

/-- Is the part in Smoulder or Working (R87)? -/
def isUp (s : Dev) : Bool := s.pwr.seq == 6
/-- Is a work order running (R87)? -/
def running (s : Dev) : Bool := s.wqs.any (fun e => e.2.disp.isSome)
/-- Is the part in Smoulder (R87)? -/
def inSmoulder (s : Dev) : Bool := isUp s && s.kiln.h == smoulderW && !(running s)

/-- KILN_STATE (R121). -/
def kilnState (s : Dev) : Word :=
  let k := s.kiln
  let st := if isUp s && !(inSmoulder s) then 2 else 1
  BitVec.ofNat 64 (st + 4 * b2n k.bank.isSome + 8 * b2n (k.shed.isSome || k.cap.isSome) + 16 * b2n k.silent + 32 * k.missed +
    2 ^ 8 * b2n k.short + 2 ^ 9 * b2n (decide (440 ≤ max (mget 0 k.temp 0) (mget 0 k.temp 1))) + 2 ^ 10 * b2n (decide (k.limit < packageW)))

/-! ### Messages to Flue (R684, R687, R688) -/

/-- The header of a Flue message of this part. -/
def flueHead (s : Dev) (kind : Nat) (term : BitVec 32) (epoch : Nat) : List Word :=
  [BitVec.ofNat 64 (kind + 2 ^ 8 + 2 ^ 16 * s.lny.slot + 2 ^ 32 * term.toNat), BitVec.ofNat 64 epoch]

/-- A message to both managers. -/
def toManagers (s : Dev) (kind : Nat) (data : List Word) : Dev := send (send s (.flue kind (0x100 :: data))) (.flue kind (0x101 :: data))

/-- The present epoch (R15, R90). -/
def epochNow (s : Dev) : Nat := s.time / 1000000

/-! ### Kindling (R103 to R108) -/

/-- Does a work order of a partition run? -/
def partRuns (s : Dev) (p : Nat) : Bool := s.wqs.any (fun e => e.2.owned && e.2.part == p && e.2.disp.isSome)
/-- Is a tile's matrix engine, or its long-vector unit, free of tenant work (R104)? -/
def engineIdle (x : Tile) (engine : Nat) : Bool :=
  if engine = 0 then x.me.queue.isEmpty && x.me.run.isNone else x.lvu.queue.isEmpty && !x.lvu.spin
/-- May kindling run on an engine of a tile (R104, R108, R132)? -/
def mayKindle (s : Dev) (t engine : Nat) : Bool :=
  let x := tileOf s t
  let phys := physOf s t
  s.kiln.kindEn && !s.hold && phys != 0x1FF && !(s.kiln.bad.contains phys) && (funcOf s (t / 128)).st == 3 &&
    (match partOf x with | some p => !(pMetro (partSt s p)) | none => true) && engineIdle x engine
/-- Where R105 places a tile: 0 no partition, 1 nothing runs in its partition, 2 busy. -/
def kindleGroup (s : Dev) (t : Nat) : Nat :=
  match partOf (tileOf s t) with | none => 0 | some p => if partRuns s p then 2 else 1
/-- What kindling can burn on a tile at its clock (R106). -/
def kindleCap (s : Dev) (t : Nat) : Nat :=
  ((if mayKindle s t 0 then 3 * watt else 0) + (if mayKindle s t 1 then 9 * watt / 10 else 0)) * mget 32 s.clk.freq (t / 128) / 72
/-- The tiles in the order of R105. -/
def kindleOrder (s : Dev) : List Nat := [0, 1, 2].flatMap (fun g => (List.range 256).filter (fun t => kindleGroup s t == g))
/-- All that kindling can burn. -/
def kindleMax (s : Dev) : Nat := (List.range 256).foldl (fun n t => n + kindleCap s t) 0
/-- The tiles that burn an amount, taken in order, the last taken first. -/
def kindleBurners (s : Dev) (want : Nat) : List Nat :=
  ((kindleOrder s).foldl (fun (a : Nat × List Nat) t =>
    let c := kindleCap s t
    if a.1 = 0 ∨ c = 0 then a else (a.1 - c, t :: a.2)) (want, [])).2
/-- How many they are. -/
def kindleTiles (s : Dev) (want : Nat) : Nat := (kindleBurners s want).length

/-! ### The levels (R91, R109 to R118, R133) -/

/-- The ceiling that cords and LIMIT give in tick `k` (R91). -/
def cordCeil (q : KilnSt) (k : Nat) : Nat := min q.limit (q.h + q.cords * k * (cordW / 100))

/-- Does a ramp run, of banking or of a shed? -/
def ramping (q : KilnSt) : Bool := q.bank.isSome || q.shed.isSome

/-- The slope banking descends at: the lower of SLOPE and the down-slew limit in force; SLOPE 0 means the limit (R109). -/
def bankSlope (q : KilnSt) (r : Ramp) : Nat := if r.slope = 0 then q.slew else min r.slope q.slew

/-- A ramp after one tick of a slope. -/
def rampStep (r : Ramp) (slope : Nat) : Ramp := { r with level := max r.target (r.level - slope) }

/-- Both ramps after one tick (R110, R113). -/
def stepRamps (q : KilnSt) : KilnSt :=
  { q with bank := q.bank.map (fun r => rampStep r (bankSlope q r)), shed := q.shed.map (fun r => rampStep r r.slope) }

/-- The ceiling of tick `k`: what cords and LIMIT give, or while a ramp runs LIMIT and the lower ramp; under the cap of a shed
(R91, R110, R113, R114, R133). -/
def tickCeil (q : KilnSt) (k : Nat) : Nat :=
  let c0 := if ramping q then q.limit else cordCeil q k
  let c1 := match q.cap with | some x => min c0 x | none => c0
  let c2 := match q.bank with | some r => min c1 r.level | none => c1
  match q.shed with | some r => min c2 r.level | none => c2

/-- The floor at a boundary (R91), or 10 W under the ceiling while a ramp runs (R110, R113, R133). -/
def tickFloor (q : KilnSt) (p c : Nat) : Nat :=
  if ramping q then c - 10 * watt else max smoulderW (max p (q.f - q.slew))

/-- The hotter leaf's sensor, in 0.25 °C. -/
def hottest (q : KilnSt) : Nat := max (mget 0 q.temp 0) (mget 0 q.temp 1)

/-- LIMIT descends under a thermal cap (R118). -/
def tickLimit (q : KilnSt) : Nat :=
  if q.capping then q.limit - (if 440 ≤ hottest q then watt / 2 else q.slew) else q.limit

/-- Go on under R91 from where the ceiling stands (R109, R110, R113). -/
def standAt (q : KilnSt) : KilnSt := if ramping q then q else { q with h := max smoulderW q.c, cords := 0 }

/-- Has a ramp reached its target? -/
def reached (r : Ramp) : Bool := decide (r.level ≤ r.target)

/-- A ramp that has reached its target ends: banking to Smoulder; a shed, whose target stays as a cap, under a lower cap that
stands (R110, R114). One that goes on to Cold holds 180 W, which is then the held level (R111). (log entry 26, DESIGN CHOICE) -/
def endRamps (q : KilnSt) : KilnSt :=
  let q1 := match q.bank with
    | some r => if reached r && !r.cold then standAt { q with bank := none } else q
    | none => q
  let q2 := match q1.shed with
    | some r => if reached r && !r.cold then standAt { q1 with shed := none, cap := some (min r.target (q1.cap.getD r.target)) } else q1
    | none => q1
  if (q2.bank.any (fun r => r.cold && reached r)) || (q2.shed.any (fun r => r.cold && reached r)) then { q2 with h := smoulderW, cords := 0 } else q2

/-- GO of KILN_BANK takes effect at a boundary (R109, R126). Doorbells stay refused only where a ramp still leads to Cold. -/
def bankStart (s : Dev) : Dev :=
  match s.kiln.bankGo with
  | none => s
  | some (target, slope) =>
    let s1 := { s with coldRefuse := target == 2 || s.kiln.shed.any (fun r => r.cold) }
    if target = 0 then
      modKiln s1 (fun q =>
        let q1 := { q with bankGo := none, bank := none, drained := false }
        if q.bank.isSome then standAt q1 else q1)
    else modKiln s1 (fun q => { q with bankGo := none, drained := false, bank := some ⟨smoulderW, slope, target == 2, q.c⟩ })

/-! ### The actuators (R98) -/

/-- A leaf's ME throttle m (R99). -/
def thrOf (q : KilnSt) (leaf : Nat) : Nat := 16 - mget 0 q.thrCut leaf
/-- The throttle in force, the droop guard's among it (R100). -/
def thrNow (q : KilnSt) (leaf : Nat) : Nat := if q.droop then min 8 (thrOf q leaf) else thrOf q leaf
/-- A leaf's request in a word of KILN_FREQ_REQ (R125). -/
def freqField (w : Word) (leaf : Nat) : Nat := fld w (8 * leaf + 7) (8 * leaf)
/-- The highest clock of a leaf (R101, R125): its request, as it stands and as the slow loop loaded it last, and FMAX; 0.8 GHz
in Smoulder (R86). -/
def freqTop (s : Dev) (leaf : Nat) : Nat :=
  if inSmoulder s then 32
  else max 32 (min s.knots.fmax (min (freqField s.kiln.freqReq leaf) (freqField s.kiln.freqLoad leaf)))

/-- Ask for a step of a leaf's clock, one at a time. -/
def askStep (s : Dev) (leaf f : Nat) : Dev :=
  if mget false s.clk.step leaf then s else modClk s (fun c => { c with want := mset none c.want leaf (some f) })

/-- May a leaf's draw still be lowered by its throttle or its clock? -/
def canLower (s : Dev) (leaf : Nat) : Bool := decide (1 < thrOf s.kiln leaf) || decide (32 < mget 32 s.clk.freq leaf)

/-- A leaf's throttle is lowered, by a free amount; one that stands at 1/16 leaves the clock, which goes one step down (R98). -/
def lowerLeaf (i : Nat) (s : Dev) (leaf : Nat) : Dev :=
  let m0 := thrOf s.kiln leaf
  let f := mget 32 s.clk.freq leaf
  if 1 < m0 then modKiln s (fun q => { q with thrCut := mset 0 q.thrCut leaf (17 - m0 + Config.actuator (i + leaf) % (m0 - 1)) })
  else if 32 < f then askStep s leaf (f - 1) else s

/-- The draw is too high: kindling, then the throttle, then the clock (R98). How far the throttle goes is free. A tick in which
throttle or clock is lowered is counted (R129). -/
def lowerDraw (s : Dev) (need : Nat) : Dev :=
  let k0 := s.kiln.kind
  let cut := min k0 ((need / eighthW + 1) * eighthW)
  let s1 := modKiln s (fun q => { q with kind := k0 - cut })
  if need < cut then s1
  else
    let i := s1.freeCtr
    let s2 := lowerLeaf i (lowerLeaf i (drawFree (drawFree s1)) 0) 1
    if canLower s1 0 || canLower s1 1 then modKiln s2 (fun q => { q with stats := incFld q.stats 31 0 1 }) else s2

/-- The draw `p` is too low: the throttle is lifted, the clock stepped up to its request, then kindling raised. A shortfall is
marked where all kindling that can burn, with nothing else left to raise, would not bring the draw to the floor (R98,
R107). While KIND_EN is 0 no kindling burns (R132). -/
def raiseDraw (s : Dev) (p : Nat) : Dev :=
  let need := s.kiln.f + 5 * watt - p
  let i := s.freeCtr
  let go (s : Dev) (leaf : Nat) : Dev :=
    let m0 := thrOf s.kiln leaf
    let m := m0 + (if m0 < 16 then 1 + Config.actuator (i + leaf) % (16 - m0) else 0)
    let s1 := modKiln s (fun q => { q with thrCut := mset 0 q.thrCut leaf (16 - m) })
    let f := mget 32 s1.clk.freq leaf
    if m = 16 && decide (f < freqTop s1 leaf) then askStep s1 leaf (f + 1) else s1
  let moved := decide (thrOf s.kiln 0 < 16) || decide (thrOf s.kiln 1 < 16) ||
    decide (mget 32 s.clk.freq 0 < freqTop s 0) || decide (mget 32 s.clk.freq 1 < freqTop s 1)
  let s1 := go (go (drawFree (drawFree (drawFree s))) 0) 1
  let rest := if moved then Config.actuator (i + 2) % (need + 1) else need
  let want := s1.kiln.kind + rest
  let cap := kindleMax s1
  modKiln s1 (fun q => { q with kind := min want cap, shortNow := q.shortNow || (!moved && decide (p + cap < q.f + q.kind)) })

/-- A leaf never runs above its request or FMAX, nor above 0.8 GHz in Smoulder (R86, R101): it is stepped down, and a step up
that waits is withdrawn. -/
def holdTop (s : Dev) : Dev :=
  [0, 1].foldl (fun s leaf =>
    let f := mget 32 s.clk.freq leaf
    let top := freqTop s leaf
    if top < f then askStep s leaf (f - 1)
    else if (mget none s.clk.want leaf).any (fun w => decide (top < w)) && !(mget false s.clk.step leaf) then
      modClk s (fun c => { c with want := mset none c.want leaf none })
    else s) s

/-- Set the actuators of the coming tick (R98, R132). A draw above C less 5 W that is also below F plus 5 W, as in Smoulder,
is only lowered; a shortfall is reported every epoch while KIND_EN is 0. (log entry 23, DESIGN CHOICE) -/
def actuate (s : Dev) (p : Nat) : Dev :=
  let q := s.kiln
  let s1 :=
    if q.c - 5 * watt < p then lowerDraw s (p - (q.c - 5 * watt))
    else if p < q.f + 5 * watt then raiseDraw s p
    else s
  let s2 := holdTop s1
  modKiln s2 (fun q =>
    let kind := if q.kindEn then min q.kind (kindleMax s2) else 0
    { q with kind := kind, kindTiles := kindleTiles s2 kind, acted := true, shortNow := q.shortNow || !q.kindEn })

/-! ### Epochs (R91, R94, R95, R115 to R117) -/

/-- Cords spent in an epoch (R97). -/
def cordsSpent (h hNext cEnd : Nat) : Nat := if h < hNext then (cEnd - h + cordW - 1) / cordW else 0

/-- The level report of the epoch that has ended (R97, R688): its body after the header. -/
def levelReport (s : Dev) (e hNext cEnd : Nat) : Nat × Word × Word :=
  let q := s.kiln
  let avg := q.sum / max 1 q.ticks
  let u (x : Nat) : Nat := x / eighthW % 65536
  (e, BitVec.ofNat 64 (u q.h + 2 ^ 16 * u hNext + 2 ^ 32 * u avg + 2 ^ 48 * u q.hi),
   BitVec.ofNat 64 (u q.lo + 2 ^ 16 * (cordsSpent q.h hNext cEnd % 256) + 2 ^ 32 * fld (kilnState (modKiln s (fun q => { q with short := q.shortNow }))) 10 0 +
     2 ^ 48 * (if q.shortNow then u (q.f - avg) else 0)))

/-- The fields of a late message for the epoch that has ended (R94). -/
def lateOf (q : KilnSt) (e : Nat) : Option KMsg := q.msgs.find? (fun m => m.epoch == e && m.late)

/-- Does an on-time message of the new epoch carry RESUME (R117)? -/
def resumes (q : KilnSt) (e : Nat) : Bool := (q.shadow.filter (fun m => m.epoch == e)).any (fun m => m.flags.testBit 2)

/-- Apply what the new epoch brings: the silent state after five unheard epochs, or RESUME, which is heard; cords, slew,
SHED_CLEAR (R93 to R95, R114 to R117). -/
def applyMsgs (q : KilnSt) (e : Nat) : KilnSt :=
  let on := q.shadow.filter (fun m => m.epoch == e)
  let late := lateOf q (e - 1)
  let resume := resumes q e
  let silent := (q.silent || q.missed == 5) && !resume
  let sl (m : Option KMsg) (d : Nat) : Nat := match m with | some m => if m.slew = 0 then 2500 else m.slew | none => d
  let clear := [on, late].any (fun m => match m with | some m => m.flags.testBit 3 | none => false)
  { q with
    silent := silent
    missed := if resume then 0 else q.missed
    cords := if silent || q.shed.isSome then 0 else (on.map (fun m => m.cords)).getD 0
    slew := if silent then q.slew else sl on (sl late q.slew)
    cap := if clear then none else q.cap
    shadow := none
    msgs := q.msgs.filter (fun m => decide (e ≤ m.epoch)) }

/-- Does a stop grant arrive with the new epoch (R93, R111)? A late one does not end the wait of banking, and in the silent
state nothing is granted without RESUME (R117). -/
def stopGranted (q : KilnSt) (e : Nat) : Bool :=
  (!(q.silent || q.missed == 5) || resumes q e) && ((q.shadow.filter (fun m => m.epoch == e)).any (fun m => m.flags.testBit 1) ||
    ((lateOf q (e - 1)).any (fun m => m.flags.testBit 1) && !(q.bank.any (fun r => r.cold))))

/-- The boundary into the present epoch (R91, R94, R97, R102, R107, R115). -/
def epochStart (s : Dev) : Dev :=
  let e := epochNow s
  let q := s.kiln
  let cEnd := if ramping q then q.c else min q.limit (q.h + cordW * q.cords)
  let hNext := max smoulderW (min cEnd q.f)
  let rep := levelReport s (e - 1) hNext cEnd
  let heard := q.msgs.any (fun m => m.epoch == e - 1)
  let missed := if q.counted then q.missed else if heard then 0 else min 5 (q.missed + 1)
  let stop := stopGranted { q with missed := missed } e
  let q1 := applyMsgs { q with h := hNext, missed := missed, counted := false } e
  let q2 := { q1 with
    limit := if !q1.capping && decide (0 < q1.cords) then packageW else q1.limit
    short := q.shortNow, shortNow := false, sum := 0, hi := 0, lo := 0, ticks := 0, due := false, report := some rep }
  let s1 := modKiln s (fun _ => { q2 with c := tickCeil q2 0 })
  if stop && inSmoulder s1 then orderedDown s1 else s1

/-- R115: five unheard epochs: silent, from the start of the next epoch: not while the fifth, counted, still runs. (log entry
27, DEDUCED) -/
def enterSilent (s : Dev) : Dev :=
  if isUp s && s.kiln.missed == 5 && !s.kiln.silent && (s.kiln.due || !s.kiln.counted) then modKiln s (fun q => { q with silent := true, cords := 0 }) else s

/-- R115. -/
def execSilentEntry (sys : State) : Host.Outcome State Fault Refusal := onDev sys fun s => enterSilent s

/-! ### The tick -/

/-- Time goes on to the next tick boundary (R90). (log entry 14, DESIGN CHOICE) -/
def tickTime (s : Dev) : Dev :=
  let t := (s.time / 10000 + 1) * 10000
  { s with time := t, uptime := s.uptime + (t - s.time) }

/-- The draw of a tick within the bounds R92 sets on it: no more than 1,180 W, and over ten ticks no more than the ceiling plus 5 W
and no less than the floor less 5 W, unless kindling runs short or issue is held. A measurement beyond them is taken as the
nearest one allowed (log entry 63, DESIGN CHOICE). -/
def drawIn (s : Dev) (p : Nat) : Nat :=
  let q := s.kiln
  let sum := q.recent.foldl (· + ·) 0
  let hi := 10 * (q.c + 5 * watt) - sum
  let lo := if q.shortNow || !q.kindEn || s.hold then 0 else 10 * (q.f - 5 * watt) - sum
  if q.recent.length < 9 then min packageW p else min packageW (min hi (max lo p))

/-- P of the tick that has ended is taken (R89). -/
def takeP (q : KilnSt) (p : Nat) : KilnSt :=
  { q with p := p, recent := (p :: q.recent).take 9, sum := q.sum + p, hi := max q.hi p, lo := if q.ticks = 0 then p else min q.lo p, ticks := q.ticks + 1 }

/-- Smoulder is entered: the draw has reached 180 W (R145, R88, R91); waiting function requests act (R158, R160). -/
def enterSmoulder (s : Dev) : Dev :=
  let s1 := modPwr s (fun p => { p with seq := 6, phase := 0 })
  let s2 := modKiln s1 (fun q => { q with
    h := smoulderW, c := min smoulderW (q.cap.getD smoulderW), f := smoulderW, due := false, sum := 0, hi := 0, lo := 0, ticks := 0, recent := [] })
  (List.range 24).foldl funcPending s2

/-- The step to Cold from Smoulder: a shed to Cold needs no further grant, banking waits for STOP_OK (R88, R111, R113, R133). -/
def coldStep (s : Dev) : Dev :=
  if (s.kiln.shed.any (fun r => r.cold && reached r)) && inSmoulder s then orderedDown s else s

/-- The boundary into a new epoch, with the actuators of its tick 0 (R91, R98). -/
def epochTick (s : Dev) : Dev := coldStep (actuate (modKiln (epochStart s) endRamps) s.kiln.p)

/-- R91: the epoch boundary that the last tick has reached. -/
def execEpochBoundary (sys : State) : Host.Outcome State Fault Refusal := onDev sys fun s => nxp s (if isUp s && s.kiln.due then epochTick s else s)

/-- A tick while the rails are up (R98); at a boundary of epochs the floor is taken and EPOCH_BOUNDARY does the rest. -/
def upTick (s : Dev) (p0 : Nat) : Dev :=
  let p := drawIn s p0
  let s1 := bankStart (modKiln s (fun q => takeP q p))
  let k := s1.time / 10000 % 100
  let s2 := modKiln s1 (fun q =>
    let q1 := stepRamps { q with limit := tickLimit q }
    if k = 0 then
      let c := if ramping q1 then tickCeil q1 0 else q1.c
      { q1 with c := c, f := tickFloor q1 p c, due := true }
    else
      let c := tickCeil q1 k
      { q1 with c := c, f := tickFloor q1 p c })
  if k = 0 then s2 else coldStep (actuate (modKiln s2 endRamps) p)

/-- The tiles of a leaf have had matrix-engine cycles withheld: the partitions with tiles on it count them (R99, R649). -/
def withheld (s : Dev) (leaf n : Nat) : Dev :=
  if n = 0 then s
  else (s.parts.filter (fun e => e.2.valid && (if leaf = 0 then decide (pRow0 e.2 < 8) else decide (8 < pRow0 e.2 + pH e.2)))).foldl
    (fun s e => ioInc s (0x0D3000 + 8 * e.1) 15 0 n) s

/-- The cycles that a throttle of m/16 withholds in a time given in 10 ns, at the leaf's clock. -/
def heldCycles (s : Dev) (leaf m dt : Nat) : Nat := mget 32 s.clk.freq leaf * dt * (16 - m) / 64

/-- What the throttles withheld in the tick that has ended. -/
def tickWithheld (s : Dev) : Dev :=
  let n (leaf : Nat) : Nat := heldCycles s leaf (thrOf s.kiln leaf) 1000
  withheld (withheld s 0 (n 0)) 1 (n 1)

/-- R98, R145: a tick: cabinet time and uptime go on; P, the input voltage and current are taken; levels and actuators are
set. While the draw rises to 180 W after power-up, kindling goes up by 50 W/ms. (log entry 25, DEDUCED) -/
def execFastLoopTick (p : Fin 0x8000000) (vin iin : BitVec 16) (sys : State) : Host.Outcome State Fault Refusal := onDev sys fun s =>
  let s0 := if isUp s && s.kiln.due then epochTick s else s
  let s1 := modPwr (tickTime s0) (fun w => { w with vin := vin.toNat, iin := iin.toNat })
  nxp s (if isUp s1 then upTick (tickWithheld s1) p
    else if s1.pwr.seq = 1 ∧ s1.pwr.phase = 2 then
      (let s2 := modKiln s1 (fun q =>
          let kind := if q.kindEn then min (q.kind + watt / 2) (kindleMax s1) else 0
          { q with p := min packageW p, kind := kind, kindTiles := kindleTiles s1 kind, acted := true })
       if smoulderW ≤ p.val then enterSmoulder s2 else s2)
    else modKiln s1 (fun q => { q with p := min packageW p }))

/-! ### Messages from Flue (R93 to R96, R112 to R114, R142, R176, R599, R688) -/

/-- Is a term accepted (R96)? -/
def termOk (s : Dev) (term : BitVec 32) : Bool := decide (s.kiln.term ≤ term)

/-- Is a Lenys port up, so that the management channel is trained (R142)? -/
def lenysUp (s : Dev) : Bool := (List.range 16).any (fun p => (lportOf s p).st == 2)

/-- R93, R94, R96, R142, R599: an epoch message. Its term is taken whatever the power state. START acts in Cold; the other fields
need valid time and a trained Lenys channel, and are kept from power-up on. -/
def execEpochMessage (term : BitVec 32) (epoch : BitVec 64) (cords : Fin 16) (slew : BitVec 16) (start stopOk resume shedClear : Bool) (sys : State) :
    Host.Outcome State Fault Refusal := onDev sys fun s =>
  nxp s (if !(fwUp s) || !(termOk s term) then s
    else if start && (s.pwr.seq == 0 || s.pwr.seq == 5) then grantStart s term
    else
      let s1 := modKiln s (fun q => { q with term := term })
      if !(s.timeValid && lenysUp s && (s.pwr.seq == 6 || s.pwr.seq == 1)) then s1
      else
      let e := epoch.toNat
      let now := epochNow s
      let late := e == now || (e == now + 1 && decide (900000 ≤ s.time % 1000000))
      if e < now ∨ s.kiln.msgs.any (fun m => m.epoch == e) then s1
      else
        let m : KMsg := ⟨e, if late then 0 else cords, slew.toNat, b2n start + 2 * b2n stopOk + 4 * b2n resume + 8 * b2n shedClear, late⟩
        modKiln s1 (fun q => { q with msgs := q.msgs ++ [m], missed := if e = now ∧ q.counted then 0 else q.missed }))

/-- R102, R97, R94, R115, R118: the slow loop, in firmware: a level report that is due is sent; from 100 to 20 µs before the
boundary the shadow registers, the thermal cap and the frequency requests are loaded and a silent epoch is counted. -/
def execSlowLoop (sys : State) : Host.Outcome State Fault Refusal := onDev sys fun s =>
  if !(isUp s) || s.kiln.due || !(fwUp s) then s
    else
      let s1 := match s.kiln.report with
        | some (e, w2, w3) => toManagers (modKiln s (fun q => { q with report := none })) 4 (flueHead s 4 s.kiln.term e ++ [w2, w3])
        | none => s
      let pos := s1.time % 1000000
      if pos < 900000 ∨ 980000 ≤ pos then s1
      else
        let e := epochNow s1
        modKiln s1 (fun q =>
          let heard := q.msgs.any (fun m => m.epoch == e)
          { q with
            shadow := q.msgs.find? (fun m => m.epoch == e + 1 && !m.late)
            capping := decide (400 ≤ hottest q) || (q.capping && decide (388 ≤ hottest q))
            freqLoad := q.freqReq
            missed := if q.counted then q.missed else if heard then 0 else min 5 (q.missed + 1)
            counted := true })

/-- The acknowledgement of a shed order (R112, R688): status 0 executing, 1 repeated, 2 no ramp needed. -/
def shedAck (s : Dev) (ident : BitVec 32) (status : Nat) : Dev :=
  toManagers s 3 (flueHead s 3 s.kiln.term (epochNow s) ++ [BitVec.ofNat 64 (ident.toNat + 2 ^ 32 * status), BitVec.ofNat 64 s.time])

/-- A cap of a shed with the cap already in force: the lower stands (R114). -/
def lowerCap (q : KilnSt) (t : Nat) : KilnSt := { q with cap := some (min t (q.cap.getD t)) }

/-- The ramp a shed order starts at the ceiling; where a shed ramp runs already the new order's slope replaces the running one,
and the lower target and a Cold target stand (R113, R133; log entry 26, DESIGN CHOICE). -/
def shedRamp (q : KilnSt) (t slope : Nat) (cold : Bool) : Ramp :=
  match q.shed with
  | some r => ⟨min t r.target, slope, cold || r.cold, q.c⟩
  | none => ⟨t, slope, cold, q.c⟩

/-- R112 to R114, R133, R142, R176: a shed order. One that needs no ramp, or that comes where no rail is up, is executed all the
same: it is the last shed executed of R114 and R130. In a teardown, a retry back-off, the off time or Cold it is
acknowledged and has no other effect. (log entry 26, DESIGN CHOICE) -/
def shed (s : Dev) (term ident : BitVec 32) (target slope : Nat) : Dev :=
  if !(fwUp s) || !(termOk s term) || (target != 0 && (decide (target < 180) || decide (1180 < target))) || slope == 0 then s
  else
    let s1 := modKiln s (fun q => { q with term := term })
    if s1.kiln.shedId = some ident.toNat then shedAck s1 ident 1
    else
      let s2 := modKiln s1 (fun q => { q with shedId := some ident.toNat, shedW := target, shedSlope := slope })
      let t := max smoulderW (target * watt)
      if s2.pwr.seq = 1 then
        (if target = 0 then takeDown (stopWork (shedAck s2 ident 0)) 2
         else shedAck (modKiln s2 (fun q => lowerCap q t)) ident 2)
      else if s2.pwr.seq ≠ 6 then shedAck s2 ident 2
      else if target ≠ 0 ∧ s2.kiln.c ≤ t then shedAck (modKiln s2 (fun q => lowerCap q t)) ident 2
      else
        let s3 := { s2 with coldRefuse := s2.coldRefuse || target == 0 }
        shedAck (modKiln s3 (fun q => { q with cords := 0, shed := some (shedRamp q t slope (target == 0)) })) ident 0

/-- R112. -/
def execShedOrder (term ident : BitVec 32) (target slope : BitVec 16) (sys : State) : Host.Outcome State Fault Refusal := onDev sys fun s =>
  nxp s (shed s term ident target.toNat slope.toNat)

/-! ### Banking (R109 to R111, R126) -/

/-- A write of KILN_BANK; GO acts at the next tick boundary, and from GO banking to Cold refuses doorbells. -/
def bankWrite (s : Dev) (v : Word) : Dev :=
  let w : Word := setFld (setFld 0 1 0 (fld v 1 0)) 31 16 (fld v 31 16)
  let s1 := modKiln s (fun q => { q with bankReg := w })
  if bit v 63 && fld v 1 0 != 3 && isUp s then
    modKiln { s1 with coldRefuse := s1.coldRefuse || fld v 1 0 == 2 } (fun q => { q with bankGo := some (fld v 1 0, fld v 31 16) })
  else s1

/-- The word of KILN_BANK for a target. -/
def kilnBankWord (target : Nat) (slope : BitVec 16) : Word := setBit (setFld (BitVec.ofNat 64 target) 31 16 slope.toNat) 63 true

/-- R110. -/
def execBankSmoulder (slope : BitVec 16) (sys : State) : Host.Outcome State Fault Refusal := onDev sys fun s => bankWrite s (kilnBankWord 1 slope)
/-- R111. -/
def execBankCold (slope : BitVec 16) (sys : State) : Host.Outcome State Fault Refusal := onDev sys fun s => bankWrite s (kilnBankWord 2 slope)
/-- R109. -/
def execBankCancel (sys : State) : Host.Outcome State Fault Refusal := onDev sys fun s => bankWrite s (kilnBankWord 0 0)
/-- R111: at 180 W the last running work order completes; the part waits for STOP_OK. -/
def execBankColdDrained (sys : State) : Host.Outcome State Fault Refusal := onDev sys fun s =>
  if (s.kiln.bank.any (fun r => r.cold)) && s.kiln.c ≤ smoulderW && !(running s) then modKiln s (fun q => { q with drained := true }) else s

/-! ### Thermal caps, droop guard, kindling quanta -/

/-- R118, R131: a sensor's reading crosses a threshold: the hottest of its leaf. A cap starts at once; the slow loop ends it. -/
def execThermalCap (leaf : Fin 2) (temp : Fin 1024) (sys : State) : Host.Outcome State Fault Refusal := onDev sys fun s =>
  modKiln s (fun q => { q with
    temp := mset 0 q.temp leaf temp
    capping := q.capping || decide (400 ≤ temp.val) })

/-- R100: the droop guard. -/
def execDroopGuard (sys : State) : Host.Outcome State Fault Refusal := onDev sys fun s =>
  if isUp s then modKiln s (fun q => { q with droop := true, stats := incFld q.stats 63 32 1 }) else s
/-- R100, R649: after 1 µs the throttle returns to the fast loop's value. -/
def execDroopGuardRelease (sys : State) : Host.Outcome State Fault Refusal := onDev sys fun s =>
  if s.kiln.droop then
    let n (leaf : Nat) : Nat := heldCycles s leaf (16 - (thrOf s.kiln leaf - thrNow s.kiln leaf)) 100
    modKiln (withheld (withheld s 0 (n 0)) 1 (n 1)) (fun q => { q with droop := false })
  else s

/-- What a quantum leaves in the tile's kindling store, accumulator or lane buffer: free values, and its signature in the store
(R103, R108; log entry 64, DESIGN CHOICE). -/
def kindleWork (s : Dev) (phys engine : Nat) (sig : Word) : Dev :=
  let i := s.freeCtr
  let a := (Config.freeWord i).toNat
  { drawFree s with kindle := mmod KindSt.reset s.kindle phys (fun k =>
      let k1 := { k with store := mwrite 0 k.store (8 * (a % 8192)) (leBytes 8 sig.toNat) }
      if engine = 0 then { k1 with acc := mset 0 k1.acc (a % 1024) ((Config.freeWord (i + 1)).truncate 32) }
      else { k1 with lane := mset 0 k1.lane (a % 32) (Config.freeWord (i + 1)) }) }

/-- R104, R105: a quantum starts on an idle engine of a tile that burns kindling. -/
def execKindlingQuantum (t : TileId) (engine : Fin 2) (sys : State) : Host.Outcome State Fault Refusal := onDev sys fun s =>
  if (isUp s || (s.pwr.seq == 1 && s.pwr.phase == 2)) && (kindleBurners s s.kiln.kind).contains t.val && mayKindle s t engine && !(s.kiln.quanta.contains (t.val, engine.val)) then
      modKiln s (fun q => { q with quanta := q.quanta ++ [(t.val, engine.val)] })
    else s

/-- R108: a quantum ends with its signature; a mismatch is counted and the physical tile is a failed tile (ID 0x100D). -/
def execKindlingQuantumEnd (t : TileId) (engine : Fin 2) (sig : BitVec 64) (sys : State) : Host.Outcome State Fault Refusal := onDev sys fun s =>
  if s.kiln.quanta.contains (t.val, engine.val) then
      let phys := physOf s t
      let s1 := kindleWork (modKiln s (fun q => { q with quanta := q.quanta.erase (t.val, engine.val) })) phys engine sig
      if sig = Config.kindlingReference engine then s1
      else tileFailure (modKiln s1 (fun q => { q with
        kindFail := incFld q.kindFail 31 0 1
        bad := if q.bad.contains phys then q.bad else q.bad ++ [phys] })) phys 0x100D
    else s

/-! ### Tile clocks and PLLs (R70 to R85) -/

/-- Would a step bring a leaf above what it may run at (R101)? -/
def stepTooHigh (s : Dev) (leaf f : Nat) : Bool := decide (freqTop s leaf < f) && decide (mget 32 s.clk.freq leaf < f)

/-- R72, R101: the step Kiln asks for reaches the clock generator; one above the request is withdrawn. -/
def execDvfsStep (leaf : Fin 2) (sys : State) : Host.Outcome State Fault Refusal := onDev sys fun s =>
  match mget none s.clk.want leaf with
  | some f =>
    if mget false s.clk.step leaf then s
    else if stepTooHigh s leaf f then modClk s (fun c => { c with want := mset none c.want leaf none })
    else modClk s (fun c => { c with step := mset false c.step leaf true })
  | none => s

/-- R72, R144: the step completes, with the tile rail at the step's voltage, unless the request has been lowered below it
(R101). Times read at the old clock bound those read at the new one (R76). -/
def execDvfsStepDone (leaf : Fin 2) (sys : State) : Host.Outcome State Fault Refusal := onDev sys fun s =>
  match mget none s.clk.want leaf with
    | some f =>
      if mget false s.clk.step leaf then
        let f1 := if stepTooHigh s leaf f then mget 32 s.clk.freq leaf else f
        let s1 := modRail s (6 + leaf) (fun r => if r.st = 2 then { r with mv := 650 + Config.vtile leaf f1 % 251 } else r)
        modClk s1 (fun c => { c with
          freq := mset 32 c.freq leaf f1, want := mset none c.want leaf none, step := mset false c.step leaf false
          seen := mset 0 c.seen leaf (max (mget 0 c.seen leaf) (timeSeen s leaf)) })
      else s
    | none => s

/-- A PLL that had locked loses lock (R81). -/
def loseLock (s : Dev) (i : Nat) : Dev :=
  modClk s (fun c => { c with lock := setBit c.lock i false, lost := if bit c.lock i then setBit c.lost i true else c.lost })

/-- R85: a tile, mesh, I/O-fabric, management or time PLL loses lock: part-fatal (ID 0x7001). No rule gives the record a code, so
DETAIL is 0 (log entry 19). -/
def execPllLockLost (pll : Fin 31) (sys : State) : Host.Outcome State Fault Refusal := onDev sys fun s =>
  if (pll.val ≤ 4 ∨ 29 ≤ pll.val) ∧ bit s.clk.lock pll then raiseErr (loseLock s pll) none 0x7001 3 0xFFFF none 0 0 else s

/-- R85: a memory, host or Lenys PLL loses lock: a fault of that stack, port or link. Chapters 14, 16 and 17 have no rule for it:
the stack leaves service until it is trained again, the host port's data link goes down, the Lenys port goes to STATE 3
(log entry 28, DESIGN CHOICE). -/
def execPortPllLockLost (pll : Fin 31) (sys : State) : Host.Outcome State Fault Refusal := onDev sys fun s =>
  if 5 ≤ pll.val ∧ pll.val ≤ 28 ∧ bit s.clk.lock pll then
      let s1 := loseLock s pll
      if pll.val ≤ 10 then modHbm s1 (fun h => { h with trained := mset false h.trained (pll.val - 5) false, init := mset false h.init (pll.val - 5) false })
      else if pll.val ≤ 12 then linkDown s1 (pll.val - 11)
      else modLport s1 (pll.val - 13) (fun q => if q.st = 1 ∨ q.st = 2 ∨ q.st = 5 then { q with st := 3, replay := [], outq := [] } else q)
    else s

end Sys2Proof.Machine
end

