-- ==== Sys2Proof/Machine/Boot.lean ====
section
/-! DEFINITION. The management controller's boot and background work (R700 to R734), part-fatal self-resets (R755 to
R758), error injection (R759), telemetry and the log (R708 to R710, R729, R730). -/

namespace Sys2Proof.Machine
open Sys2Proof

/-! ### Images (R627, R628, R706, R714) -/

/-- The flash offset of an image slot: type 1 firmware, 2 tile monitor; slot 0 A, 1 B. -/
def slotBase (typ slot : Nat) : Nat :=
  if typ = 1 then (if slot = 0 then 0 else 0x640000) else (if slot = 0 then 0xC80000 else 0xCA0000)
/-- The bytes of a slot. -/
def slotBytes (typ : Nat) : Nat := if typ = 1 then 0x640000 else 0x20000
/-- The longest body of a type (R627). -/
def bodyMax (typ : Nat) : Nat := if typ = 1 then 6 * 2 ^ 20 else 96 * 2 ^ 10

/-- A field of an image header. -/
def hdrNum (m : SMap Byte) (base off n : Nat) : Nat := leNat (mbytes 0xFF m (base + off) n)
/-- The body length, the SVN, the version of an image. -/
def imgLen (m : SMap Byte) (base : Nat) : Nat := hdrNum m base 0x00C 4
def imgSvn (m : SMap Byte) (base : Nat) : Nat := hdrNum m base 0x006 2
def imgVersion (m : SMap Byte) (base : Nat) : Nat := hdrNum m base 0x008 4
/-- The body of an image. -/
def imgBody (m : SMap Byte) (base : Nat) : List Byte := mbytes 0xFF m (base + 512) (imgLen m base)

/-- Is an image header well formed (R627)? -/
def hdrOk (m : SMap Byte) (base typ : Nat) : Bool :=
  hdrNum m base 0 4 == 0x3157464B && hdrNum m base 4 2 == typ && decide (imgSvn m base ≤ 64) && decide (imgLen m base ≤ bodyMax typ) &&
    decide (hdrNum m base 0x010 1 ≤ 3) && hdrNum m base 0x011 15 == 0 && hdrNum m base 0x0B0 336 == 0

/-- The anti-rollback counter of a type (R629). -/
def rollback (g : MgmtSt) (typ : Nat) : Nat := if typ = 1 then g.roll1 else g.roll2

/-- Does an image pass R627? -/
def imageOk (g : MgmtSt) (m : SMap Byte) (base typ : Nat) : Bool :=
  let key := hdrNum m base 0x010 1
  hdrOk m base typ && !(g.revoked.getLsbD key) && decide (rollback g typ ≤ imgSvn m base) &&
    sha384 (imgBody m base) == mbytes 0xFF m (base + 0x020) 48 &&
    Config.signatureVerifies (hdrNum m base 0 0x50) (hdrNum m base 0x050 96) key

/-- The slots of a type in the order tried: the slot selected first (R725, R628). -/
def slotOrder (g : MgmtSt) (typ : Nat) : List Nat := if (if typ = 1 then g.sel1 else g.sel2) = 1 then [1, 0] else [0, 1]
/-- The first slot of a type that passes. -/
def goodSlot (g : MgmtSt) (typ : Nat) : Option Nat := (slotOrder g typ).find? (fun k => imageOk g g.flash (slotBase typ k) typ)

/-- Measurement 2 or 3: the digest of header and body, with slot and SVN (R630). -/
def measure (index : Nat) (m : SMap Byte) (base slot : Nat) : Nat × List Byte × Nat :=
  (index, sha384 (mbytes 0xFF m base 512 ++ imgBody m base), slot + 2 * imgSvn m base)

/-! ### Management boot (R712, R713, R714) -/

/-- What runs after the boot ROM has verified a firmware image (R713): the effective knot map, the tile monitor, the
measurements, STAGE. -/
def firmwareRuns (s : Dev) (m : SMap Byte) (base slot : Nat) : Dev :=
  let g := s.mgmt
  let tm := goodSlot g 2
  let tmBase := slotBase 2 (tm.getD 0)
  let m1 : Nat × List Byte × Nat := (1, leBytes 48 (Config.engineNum 3 0), 0)
  let m4 : Nat × List Byte × Nat := (4, [BitVec.ofNat 8 g.revoked.toNat, BitVec.ofNat 8 g.roll1, BitVec.ofNat 8 g.roll2], 0)
  let m3 := match tm with | some k => [measure 3 g.flash tmBase k] | none => []
  let s1 := { s with knots := { s.knots with eff := (s.knots.field ++ s.knots.vol).foldl applyEntry s.knots.fac } }
  let s2 := modMgmt s1 (fun g => { g with
    stage := 2, mfSlot := slot, tmSlot := tm.getD 0
    mfVersion := BitVec.ofNat 32 (imgVersion m base), mfSvn := imgSvn m base
    tmOk := tm.isSome
    tmSvn := if tm.isSome then imgSvn g.flash tmBase else 0
    tmBody := if tm.isSome then imgBody g.flash tmBase else []
    meas := [m1, measure 2 m base slot] ++ m3 ++ [m4, (5, [1], 0)]
    mbxBusy := false })
  let s2 := rebuildWaiting s2
  match s2.pwr.mgmtLost with
  | some r => modPwr (pwrLog s2 0x0031 r 0 0) (fun p => { p with mgmtLost := none })
  | none => s2

/-- R713, R714: the boot ROM verifies the firmware slots, or in recovery the image written into SRAM, and the firmware
starts; with none that passes the part is in recovery. (log entry 32, DEDUCED) -/
def firmwareStart (s : Dev) : Dev :=
  let g := s.mgmt
  if !s.pwr.vmgmt then s
  else if g.stage = 14 then (if imageOk g g.sram 0 1 then firmwareRuns s g.sram 0 0 else s)
  else if 2 ≤ g.stage then s
  else match goodSlot g 1 with
    | some k => firmwareRuns s g.flash (slotBase 1 k) k
    | none => modMgmt s (fun g => { g with stage := 14, sram := [] })

/-- R713. -/
def execFirmwareStart (sys : State) : Host.Outcome State Fault Refusal := onDev sys fun s => firmwareStart s

/-- The field entry that a management reset strikes is committed or torn, which is free; a torn one is found again at the
next self-test, and its repair is given up (ch. 21, seams). -/
def tornEntry (s : Dev) : Dev :=
  match s.knots.flashPend with
  | [] => s
  | e :: r =>
    let s1 := drawFree s
    let keep := bit (Config.freeWord s.freeCtr) 0
    let s2 := modKnots s1 (fun k => { k with flashPend := r })
    if keep then commitEntry s2 e
    else match e with
      | .tileMove col failed _ _ => wakeColumn (modKnots s2 (fun k => { k with jobs := k.jobs.filter (fun j => !(j.col == col && j.failed == failed)) })) col
      | .tileDead col failed _ _ => modKnots s2 (fun k => { k with jobs := k.jobs.filter (fun j => !(j.col == col && j.failed == failed)) })
      | _ => s2

/-- R704, R705: a management reset: MGC_BOOT returns to reset, MGC_MRESET counts it, the SRAM is cleared, the mailbox
holds BUSY (ID 0x8001). (log entry 33, DEDUCED) -/
def mgmtReset (s : Dev) (cause : Nat) : Dev :=
  if !s.pwr.vmgmt then s
  else
    let s1 := modMgmt (tornEntry s) (fun g => { g with
      stage := 0, mfSlot := 0, tmSlot := 0, bistFail := 0, readyUs := 0
      resets := satAdd 16 g.resets 1, cause := cause
      tmOk := false, tmBody := [], meas := [], tlm := [], spdm := [], sram := [], mbxBusy := true })
    raiseErr (modKiln s1 (fun q => { q with msgs := [] })) none 0x8001 0 0xFFFF none 0 0

/-- R704. -/
def execWatchdogExpiry (sys : State) : Host.Outcome State Fault Refusal := onDev sys fun s => mgmtReset s 1
/-- R701, R704. -/
def execMgmtSramUe (sys : State) : Host.Outcome State Fault Refusal := onDev sys fun s => mgmtReset s 2

/-! ### Boot from START (R716 to R718) -/

/-- R717: self-test starts once Smoulder is reached. -/
def execSelfTest (sys : State) : Host.Outcome State Fault Refusal := onDev sys fun s =>
  if isUp s && s.pf.phase == 0 && fwUp s && s.mgmt.bist == 0 && !s.mgmt.bootStop then
      modMgmt s (fun g => { g with stage := 4, bist := 1 })
    else s

/-- The bridge links out of service, those on their way to flash among them (R30). -/
def bridgeOutAll (s : Dev) : Nat :=
  bridgeOut s + s.knots.flashPend.countP (fun e => match e with | .repair w => fld w 3 0 == 7 && bit w 16 | _ => false)

/-- Is a logical tile carried by a physical tile? -/
def tileLive (s : Dev) (t : Nat) : Bool := physOf s t != 0x1FF && (funcOf s (t / 128)).st == 3

/-- R717: self-test ends: the failed physical tiles, the lower number first (R56), and the defects found; repairs go to
flash, and every tile's drawers are zeroed. More than 8 bridge links out of service stop the boot (R30, R758). -/
def execSelfTestDone (tiles : List (Fin 288)) (defects : List Defect) (sys : State) : Host.Outcome State Fault Refusal := onDev sys fun s =>
  if s.mgmt.bist ≠ 1 then s
    else
      let bad := (List.finRange 288).filter (fun p => tiles.contains p && colSlot (colOf s.knots.eff (physCol p)) (physRow p) != 14)
      let s1 := bad.foldl (fun s p => failTile s p []) s
      let fresh := defects.filter (fun d => !(defectKnown s1 d))
      let s2 := fresh.foldl foundDefect s1
      if 8 < bridgeOutAll s2 then bootStops s2 0x1103
      else
        let s3 := modMgmt s2 (fun g => { g with stage := 5, bist := 2, bistFail := min 255 (bad.length + fresh.length) })
        ((List.range 256).filter (tileLive s3)).foldl (fun s t => modTile s t dirtyTile) s3

/-- R718: nothing that READY waits for is left: zeroing, commits, repairs, training and zero fill of the stacks. -/
def bootDone (s : Dev) : Bool :=
  s.tiles.all (fun e => e.2.dr.zeroing == 0) && s.knots.flashPend.isEmpty && s.knots.jobs.isEmpty &&
    (!(hasHbm s) || (List.range 6).all (fun k => (funcOf s (k + 2)).st != 3 || stackReady s k))

/-- R718, R488, R537: READY: set 0 becomes valid, configuration space answers, Device Readiness Status is sent. -/
def execBootReady (sys : State) : Host.Outcome State Fault Refusal := onDev sys fun s =>
  if s.mgmt.bist == 2 && fwUp s && bootDone s then
      let s1 := modMgmt s (fun g => { g with stage := 6, bist := 3, readyUs := min (2 ^ 32 - 1) ((s.uptime - g.startAt) / 1000) })
      let s2 := if hasHbm s then defaultSet s1 else s1
      [0, 1].foldl (fun s n =>
        let s3 := modHport s n (fun h => { h with ready := true })
        if (hportOf s3 n).dlUp then send s3 (.drs n) else s3) s2
    else s

/-! ### Part-fatal self-resets (R755 to R758) -/

/-- Are the rails up, so that a part-fatal error acts: up, or in power-up after the PLLs have locked? -/
def railsUp (s : Dev) : Bool := s.pwr.seq == 6 || (s.pwr.seq == 1 && s.pwr.phase == 2)

/-- R756 steps 1 to 3, R757, R758: the oldest part-fatal error. Issue is held, ERR_LAST_FATAL set, the reset notice and AER
sent, the record and the completion records written where a link is up; the third within 10 s powers the part down. (log entry 29, DEDUCED) -/
def partFatalReset (s : Dev) : Dev :=
  match s.fatal with
  | [] => s
  | (id, unit) :: _ =>
    let s0 := { s with fatal := [] }
    if s.pf.phase ≠ 0 ∨ !(railsUp s) then s0
    else
      let recent := s.pf.times.filter (fun t => decide (s.time < t + 10000000000)) ++ [s.time]
      let s1 := { s0 with pf := { s0.pf with times := recent } }
      if 3 ≤ recent.length then fatalDown s1 id unit
      else
        let s2 := setLastFatal { s1 with hold := true, pf := { s1.pf with phase := 1, id := id, unit := unit } } id
        let s3 := fatalAer (resetNotices s2 id) id unit
        if s3.mgmt.bist = 3 then failOrders (fatalRings s3 id unit) else s3

/-- R756, R757. -/
def execPartFatalSelfReset (sys : State) : Host.Outcome State Fault Refusal := onDev sys fun s => nxp s (partFatalReset s)

/-- A host port under the self-reset that a part-fatal self-reset includes (R492, R494). -/
def resetPort (h : HPort) : HPort :=
  { HPort.reset with perst := h.perst, stats := incFld (if h.dlUp then incFld h.stats 15 0 1 else h.stats) 47 32 1 }

/-- R756 step 4, R770: domain resets are asserted outside VMGMT; links go down and contents are lost; Kiln returns to reset and
holds 180 W. -/
def domainReset (s : Dev) : Dev :=
  let s1 := loseDomains s true
  let q := s.kiln
  { s1 with
    hports := s.hports.map (fun e => (e.1, resetPort e.2))
    kiln := { KilnSt.reset with p := q.p, c := smoulderW, f := smoulderW, h := smoulderW, freqReq := BitVec.ofNat 64 (s.knots.fmax * 257), freqLoad := BitVec.ofNat 64 (s.knots.fmax * 257) }
    mgmt := { s1.mgmt with stage := 3, bist := 0, bootStop := false, startAt := s.uptime }
    pf := { s1.pf with phase := 2 } }

/-- R756 step 4. -/
def execDomainResetAssert (sys : State) : Host.Outcome State Fault Refusal := onDev sys fun s => if s.pf.phase = 1 then domainReset s else s

/-- R756 step 5: domain resets are released and the boot of R716 runs with a new incarnation; Kiln reports the step. -/
def execDomainResetRelease (sys : State) : Host.Outcome State Fault Refusal := onDev sys fun s =>
  if s.pf.phase = 2 then
      bootRelease (modKiln (modClk { s with hold := false, pf := { s.pf with phase := 0 } } (fun c => { c with lock := lockOf s (fun x => x.st != 3) }))
        (fun q => { q with shortNow := true })) false
    else s

/-! ### Error injection (R759) -/

/-- GO of ERR_INJECT. -/
def errInject (s : Dev) (id tile pc : Nat) : Dev :=
  if id = 0x1001 ∨ id = 0x1002 ∨ id = 0x1005 ∨ id = 0x1007 then
    modTile s tile (fun x => { x with inject := if x.inject.contains id then x.inject else x.inject ++ [id] })
  else if id = 0x3003 then modHlc s (fun h => { h with inject := true })
  else if id = 0x5002 ∧ hasHbm s ∧ pc < 192 then
    modHbm s (fun h => { h with inject := if h.inject.contains pc then h.inject else h.inject ++ [pc] })
  else s

/-- R759. -/
def execErrInject (ident : BitVec 16) (tile : TileId) (pc : BitVec 8) (sys : State) : Host.Outcome State Fault Refusal := onDev sys fun s =>
  errInject s ident.toNat tile pc.toNat

/-! ### Background work (R729 to R734, R748, R710) -/

/-- The RC counters of a tile's control block are read, which clears them (R731, R734). -/
def harvestTile (x : Tile) : Tile :=
  { x with
    core := { x.core with stallPartial := 0, stallOther := 0, istoreEcc := setFld x.core.istoreEcc 15 0 0 }
    me := { x.me with stats := 0 }
    dr := { x.dr with fault := setFld x.dr.fault 47 32 0, ecc := setFld x.dr.ecc 47 0 0 }
    dwl := { x.dwl with ovf := setFld x.dwl.ovf 47 32 0, stats := 0 }
    teStats := 0
    teDiscarded := 0 }

/-- May the harvest read a metronome partition's tiles now (R734)? -/
def metroWindow (s : Dev) : Bool := epochNow s % 10 == 0 && decide (600000 ≤ s.time % 1000000) && decide (s.time % 1000000 < 610000)

/-- R734: every 10 ms the tile error counters are read; those of metronome partitions in their window. -/
def execErrorHarvest (sys : State) : Host.Outcome State Fault Refusal := onDev sys fun s =>
  if !(fwUp s) then s
    else s.tiles.foldl (fun s1 e => if tileMetro s e.1 && !(metroWindow s) then s1 else modTile s1 e.1 harvestTile) s

/-- The hottest stack. -/
def stackTemp (s : Dev) : Nat := if hasHbm s then s.hbm.temp.foldl (fun n e => max n e.2) 0 else 0

/-- A telemetry sample (R730). -/
def sampleWords (s : Dev) : List Word :=
  let u (x : Nat) : Nat := x / eighthW % 65536
  [BitVec.ofNat 64 (stamp s),
   BitVec.ofNat 64 (s.mgmt.tlmSeq % 2 ^ 32 + 2 ^ 32 * u s.kiln.p + 2 ^ 48 * u s.kiln.h),
   BitVec.ofNat 64 (mget 0 s.kiln.temp 0 % 65536 + 2 ^ 16 * (mget 0 s.kiln.temp 1 % 65536) + 2 ^ 32 * (stackTemp s % 256) + 2 ^ 48 * (s.pwr.vin % 65536)),
   BitVec.ofNat 64 (s.pwr.iin % 65536 + 2 ^ 16 * fld (kilnState s) 10 0)]

/-- The number of the present telemetry slot: samples are scheduled every TLM_PERIOD × 100 µs (R729, R735). -/
def tlmSlotNow (s : Dev) : Nat := slotTime s / (max 1 (fld (ioGet s 0x000810 ^^^ 10) 6 0) * 100000)

/-- R729: the sample due: taken on time (0), late (1), or missed (2); during a management reset it is missed. -/
def telemetry (s : Dev) (late : Nat) : Dev :=
  let s1 := modMgmt s (fun g => { g with tlmSeq := (g.tlmSeq + 1) % 2 ^ 32, tlmSlot := some (tlmSlotNow s) })
  if late = 2 ∨ !(fwUp s) then ioInc s1 0x000818 63 48 1
  else
    let s2 := modMgmt s1 (fun g => { g with tlm := (g.tlm ++ [sampleWords s]).drop (g.tlm.length + 1 - 2048) })
    if late = 1 then ioInc s2 0x000818 47 32 1 else s2

/-- R729. -/
def execTelemetrySample (late : Fin 3) (sys : State) : Host.Outcome State Fault Refusal := onDev sys fun s =>
  if s.pwr.vmgmt && s.mgmt.tlmSlot != some (tlmSlotNow s) then telemetry s late else s

/-- R710, R748: the oldest waiting event is written to stream 2, or dropped. -/
def execLogRecordWrite (sys : State) : Host.Outcome State Fault Refusal := onDev sys fun s =>
  match s.logPend with
    | e :: r => if fwUp s then logWrite { s with logPend := r } 2 (recordWords s e 0 0) else s
    | [] => s

/-! ### Addresses and relays (R721 to R723) -/

/-- R721: an interface that has no dynamic address takes the one SETDASA brings. -/
def execSetdasa (iface : Fin 2) (addr : Fin 128) (sys : State) : Host.Outcome State Fault Refusal := onDev sys fun s =>
  if decide (2 ≤ s.mgmt.stage) && mget 0 s.mgmt.i3c iface == 0 then
      modMgmt s (fun g => { g with i3c := mset 0 g.i3c iface addr })
    else s

/-- R722: the host's bus owner assigns the endpoint ID of a port. -/
def execSetEndpointId (port : Fin 2) (eid : BitVec 8) (sys : State) : Host.Outcome State Fault Refusal := onDev sys fun s =>
  if fwUp s && (hportOf s port).dlUp then modMgmt s (fun g => { g with eid := mset 0 g.eid port eid.toNat }) else s

/-- Bytes as words, the last filled with zeros. -/
def padWords (bs : List Byte) : List Word := wordsOfBytes ((bs.length + 7) / 8) bs

/-- R723: a packet from a manager goes on over Lenys to its slot; one for a manager goes on over I3C. -/
def execRelay (iface : Fin 2) (toLenys : Bool) (dst : BitVec 16) (packet : List Byte) (sys : State) : Host.Outcome State Fault Refusal := onDev sys fun s =>
  let mgr := 0x100 + iface.val
  if !(fwUp s) || mget 0 s.mgmt.i3c iface == 0 then s
    else if toLenys then
      (if dst.toNat < 256 ∧ dst.toNat ≠ s.lny.slot then sendPeer s dst.toNat (.mctp dst.toNat mgr (padWords packet)) else s)
    else match takeCtl s (fun e => match e.2 with | .mctp d _ _ => d == mgr | _ => false) with
      | some ((src, .mctp _ _ data), s1) => send s1 (.mctp mgr 3 (BitVec.ofNat 64 src :: data))
      | _ => s

end Sys2Proof.Machine
end

