-- ==== Sys2Proof/Machine/RegRead.lean ====
section
/-! DEFINITION. What every register reads (R49 to R54, R58, R80, R81, R121 to R132, R166 to R173, R215, R216, R289, R317,
R372, R396 to R398, R427, R433, R435, R460, R494, R525 to R527, R561 to R565, R603 to R606, R635, R636, R669 to R673, R735,
R759, R766, R767), and the fields a read clears (R10, R765). -/

namespace Sys2Proof.Machine
open Sys2Proof

/-- A number below 2^64 as a register. -/
def w64 (n : Nat) : Word := BitVec.ofNat 64 n
/-- Bits 64k to 64k + 63 of a set given by a test. -/
def bits64 (k : Nat) (f : Nat → Bool) : Word := w64 (packElems 1 64 (fun i => b2n (f (64 * k + i))))

/-! ### MGC_ (R49 to R54, R494, R735) -/

/-- MGC_KNOT_SUM (R53). -/
def knotSum (s : Dev) : Word :=
  let cnt (n : Nat) (f : Nat → Bool) : Nat := (List.range n).countP f
  let spares := cnt 32 (fun i => colSpare (colOf s.knots.eff i) == 0)
  let dead := cnt 256 (fun t => physOf s t == 0x1FF)
  let out := cnt 192 (pcOut s)
  let lanes := cnt 16 (fun p => mget lnyFactory s.knots.eff.lny p % 8 != 7)
  w64 (spares + 2 ^ 6 * dead + 2 ^ 15 * out + 2 ^ 23 * lanes + 2 ^ 28 * cap 11 s.knots.field.length + 2 ^ 39 * b2n (decide (1024 ≤ s.knots.field.length)))

/-- MGC_HPORTn registers (R494): STATUS, CTL, STATS, AP, HOSTID0 to HOSTID3. -/
def hportVal (h : HPort) (k : Nat) : Word :=
  match k with
  | 0 => w64 (b2n h.dlUp + 2 * h.rate + 16 * h.width + 2 ^ 9 * b2n h.flit + 2 ^ 10 * h.cxl + 2 ^ 12 * b2n h.cache + 2 ^ 13 * b2n h.down.isSome)
  | 1 => h.ctl
  | 2 => h.stats
  | 3 => w64 h.ap
  | _ => mget 0 h.hostid (k - 4)

/-- A register of the MGC_ block. -/
def mgcVal (s : Dev) (r : Nat) : Word :=
  if r < 0x100 then
    match r with
    | 0x00 => w64 (s.knots.grade + 2 ^ 4 * s.knots.fmax + 2 ^ 12 * 2 + 2 ^ 20 * 0x0F1)
    | 0x08 => s.knots.unique
    | 0x10 => w64 (16384 + 2 ^ 16 * 3072 + 2 ^ 32 * 256 + 2 ^ 48 * (if hasHbm s then 6 else 0))
    | _ => 0
  else if r = 0x100 then s.knots.gen
  else if r = 0x108 then knotSum s
  else if 0x200 ≤ r ∧ r < 0x300 then colOf s.knots.eff ((r - 0x200) / 8)
  else if 0x300 ≤ r ∧ r < 0x320 then bits64 ((r - 0x300) / 8) (fun t => physOf s t == 0x1FF)
  else if 0x400 ≤ r ∧ r < 0x480 then hportVal (hportOf s ((r - 0x400) / 0x40)) (r % 0x40 / 8)
  else if r = 0x480 then w64 s.ctrlPort
  else
    let g := s.mgmt
    match r with
    | 0x800 => w64 (g.stage + 16 * g.mfSlot + 32 * g.tmSlot + 2 ^ 8 * cap 8 g.bistFail + 2 ^ 32 * g.readyUs)
    | 0x808 => w64 (cap 16 g.resets + 2 ^ 16 * g.cause)
    | 0x810 => ioGet s 0x000810 ^^^ 10
    | 0x818 => ioGet s 0x000818
    | 0x820 => w64 (erasedCount g + 2 ^ 6 * cap 17 (maxErases g) + 2 ^ 23 * cap 16 g.dropped + 2 ^ 39 * b2n g.wearWarn)
    | _ => 0

/-! ### CLK_, KILN_ and PWR_ (R80, R81, R121 to R132, R166 to R173) -/

/-- A register of the CLK_ block. -/
def clkVal (s : Dev) (r : Nat) : Word :=
  match r with
  | 0x00 => w64 (mget 32 s.clk.freq 0 + 2 ^ 8 * mget 32 s.clk.freq 1 + 2 ^ 16 * b2n (mget false s.clk.step 0) + 2 ^ 17 * b2n (mget false s.clk.step 1))
  | 0x08 => s.clk.lock
  | 0x10 => s.clk.lost
  | _ => 0

/-- THR_A and THR_B as KILN_ACT shows them: the Reset column's 0 until the fast loop has first acted after the reset (R12,
R127; log entry 65, DESIGN CHOICE). -/
def thrShown (k : KilnSt) (leaf : Nat) : Nat := if k.acted then thrNow k leaf else 0

/-- A register of the KILN_ block. -/
def kilnVal (s : Dev) (r : Nat) : Word :=
  let k := s.kiln
  let u (x : Nat) : Nat := cap 16 (x / eighthW)
  match r with
  | 0x00 => kilnState s
  | 0x08 => w64 (u k.p + 2 ^ 16 * u k.c + 2 ^ 32 * u k.f + 2 ^ 48 * u k.h)
  | 0x10 => w64 (epochNow s)
  | 0x18 => w64 (k.cords + 2 ^ 4 * ((k.shadow.map (·.cords)).getD 0) + 2 ^ 16 * k.slew + 2 ^ 32 * k.term.toNat)
  | 0x20 => k.freqReq
  | 0x28 => k.bankReg
  | 0x30 => w64 (thrShown k 0 + 2 ^ 5 * thrShown k 1 + 2 ^ 10 * u k.kind + 2 ^ 26 * k.kindTiles)
  | 0x38 => k.kindFail
  | 0x40 => k.stats
  | 0x48 => w64 ((k.shedId.getD 0) + 2 ^ 32 * k.shedW + 2 ^ 48 * k.shedSlope)
  | 0x50 => w64 (cap 10 (mget 0 k.temp 0) + 2 ^ 16 * cap 10 (mget 0 k.temp 1))
  | 0x58 => w64 (b2n k.kindEn)
  | _ => 0

/-- A rail register (R173). -/
def railVal (x : RailSt) : Word := w64 (x.mv % 2 ^ 16 + 2 ^ 16 * (x.ma % 2 ^ 16) + 2 ^ 32 * x.st)

/-- A register of the PWR_ block. -/
def pwrVal (s : Dev) (r : Nat) : Word :=
  let p := s.pwr
  if 0x100 ≤ r ∧ r < 0x158 then railVal (railOf s ((r - 0x100) / 8))
  else match r with
  | 0x00 => w64 (p.input + 4 * b2n (p.inrush != 0) + 8 * b2n (decide (3 ≤ p.inrush)) + 2 ^ 4 * p.seq + 2 ^ 8 * min 3 p.attempt +
      2 ^ 10 * b2n p.latched + 2 ^ 11 * b2n p.startPend)
  | 0x08 => w64 (p.vin % 2 ^ 16 + 2 ^ 16 * (p.iin % 2 ^ 16) + 2 ^ 32 * cap 16 p.exc)
  | 0x10 => p.fault
  | 0x28 => w64 (packElems 2 24 (fun f => (funcOf s f).st))
  | 0x30 => w64 (packElems 1 24 (fun f => b2n (funcOf s f).pend.isSome) + 2 ^ 24 * packElems 1 24 (fun f => b2n ((funcOf s f).pend.getD false)))
  | 0x38 => w64 (packElems 1 24 (fun f => b2n (funcOf s f).latch))
  | 0x40 => w64 (p.logSeq % 2 ^ 32 + 2 ^ 32 * cap 16 p.lost)
  | _ => 0

/-! ### XLT_, HLC_ and WQ_ (R433, R435, R460, R525 to R527) -/

/-- Walkers busy in a leaf. -/
def walkersBusy (s : Dev) (leaf : Nat) : Nat := s.xlt.walks.countP (fun w => w.leaf == leaf)

/-- A register of the XLT_ block. -/
def xltVal (s : Dev) (r : Nat) : Word :=
  if 0x10000 ≤ r then ctxW s ((r - 0x10000) / 0x100) (r % 0x100 / 8)
  else if 0x100 ≤ r ∧ r < 0x180 then (if r % 0x20 < 0x18 then xfmtW s ((r - 0x100) / 0x20) (r % 0x20 / 8) else 0)
  else match r with
  | 0x00 => w64 (packElems 1 4 (fun f => b2n (fmtShown s f)) + 2 ^ 4 * walkersBusy s 0 + 2 ^ 8 * walkersBusy s 1 + 2 ^ 12 * s.xlt.reqs.length)
  | 0x10 => w64 (s.xlt.invQ.length + 2 ^ 5 * b2n s.xlt.overrun + 2 ^ 32 * s.xlt.done.toNat)
  | 0x18 => s.xlt.priTmo
  | 0x20 => s.xlt.statsA
  | 0x28 => s.xlt.statsB
  | 0x30 => s.xlt.priStats
  | _ => 0

/-- A register of the HLC_ block. -/
def hlcVal (s : Dev) (r : Nat) : Word :=
  match r with
  | 0x00 => ioGet s (hlcReg 0)
  | 0x08 => ioGet s (hlcReg 1)
  | 0x18 => setFld (setBit (ioGet s (hlcReg 3)) 0 s.hlc.preload.isSome) 47 32 (s.hlc.lines.countP (·.locked))
  | 0x20 => ioGet s (hlcReg 4)
  | 0x28 => ioGet s (hlcReg 5)
  | 0x30 => ioGet s (hlcReg 6)
  | _ => 0

/-- A register of queue `q`, by offset in its 256 bytes (R525, R526). -/
def queueVal (s : Dev) (q r : Nat) : Word :=
  let k := wqOf s q
  match r with
  | 0x08 => w64 (k.tail.toNat + 2 ^ 32 * k.head.toNat)
  | 0x10 => w64 k.cqHead.toNat
  | 0x18 => k.ring
  | 0x20 => k.cq
  | 0x28 => k.win
  | 0x30 => w64 (b2n k.en)
  | 0x38 => w64 k.h
  | 0x40 => w64 (k.code + 16 * b2n k.cfgRej + 32 * b2n (cqFull k) + 64 * b2n k.disp.isSome + 2 ^ 16 * cap 16 k.refused + 2 ^ 32 * cap 32 k.dups)
  | 0x80 => if k.owned then w64 (k.part + 2 ^ 7 + 2 ^ 8 * k.port + 2 ^ 9 * k.func) else 0
  | 0x88 => w64 (2 ^ 16 * b2n k.doneBusy)
  | _ => 0

/-- A register of the WQ_ block; a tile monitor sees the WQ_DISP bits of its partition's queues only (R762). -/
def wqVal (s : Dev) (agent : RegAgent) (r : Nat) : Word :=
  if r < 0x10000 then queueVal s (r / 0x100) (r % 0x100)
  else if r < 0x18000 then (let k := wqOf s ((r - 0x10000) / 0x80); if k.disp.isSome then k.order.getD (r % 0x80 / 8) 0 else 0)
  else if r < 0x18020 then
    bits64 ((r - 0x18000) / 8) (fun q => (wqOf s q).disp.isSome && (match agent with
      | .tile t => (wqOf s q).owned && decide (some (wqOf s q).part = partOf (tileOf s t))
      | _ => true))
  else 0

/-! ### HBM_ and LNY_ (R561 to R565, R603 to R606) -/

/-- HBM_STACKs (R563). -/
def stackVal (s : Dev) (k : Nat) : Word :=
  let h := s.hbm
  w64 (b2n (mget false h.powered k) + 2 * b2n (mget false h.trained k) + 4 * b2n (mget false h.init k) + 8 * mget 0 h.rate k +
    32 * b2n (stackFixed s k) + 2 ^ 8 * (mget 0 h.temp k % 256) + 2 ^ 16 * (List.range 32).countP (fun i => pcOut s (32 * k + i)))

/-- The passes of the slowest pseudo-channel in service (R564). -/
def hbmPasses (s : Dev) : Nat :=
  ((((List.range 192).filter (fun pc => !(pcOut s pc))).map (mget 0 s.hbm.scrubPass)).min?.getD 0) % 2 ^ 32

/-- A word of HBM_SETk (R564). -/
def setVal (s : Dev) (k i : Nat) : Word :=
  if i = 0 then
    w64 (b2n (setValid s k) + 2 * b2n (rehashPending s k) + 4 * b2n (setFixed s k) + 2 ^ 8 * fld (setW s k 0) 24 8 + 2 ^ 32 * (setList s k).length)
  else setW s k i

/-- A register of the HBM_ block; without stacks every one reads zero (R560). -/
def hbmVal (s : Dev) (r : Nat) : Word :=
  if !(hasHbm s) then 0
  else if 0x1000 ≤ r ∧ r < 0x2000 then setVal s ((r - 0x1000) / 0x20) (r % 0x20 / 8)
  else if 0x2000 ≤ r ∧ r < 0x2400 then ioGet s (0x0A0000 + r) ^^^ 1
  else if 0x20 ≤ r ∧ r < 0x38 then bits64 ((r - 0x20) / 8) (pcOut s)
  else if 0x40 ≤ r ∧ r < 0x70 then stackVal s ((r - 0x40) / 8)
  else match r with
  | 0x00 => if s.knots.grade = 1 then w64 (6 + 8 * 2 + 2 ^ 8 * 9 + 2 ^ 16 * 94) else w64 (6 + 8 * 1 + 2 ^ 8 * 4 + 2 ^ 16 * 64)
  | 0x08 => ioGet s 0x0A0008
  | 0x10 => ioGet s 0x0A0010 ^^^ 1
  | 0x70 => ioGet s regHbmEcc
  | 0x78 => setFld (ioGet s regHbmRemap) 31 16 s.hbm.unmade.length
  | 0x80 => w64 (hbmPasses s)
  | 0x88 => ioGet s regHbmLat
  | _ => 0

/-- LNY_PORTp registers: STATUS, CTL, STATS (R603). -/
def lportVal (s : Dev) (p k : Nat) : Word :=
  let q := lportOf s p
  match k with
  | 0 => w64 (q.st + 8 * b2n q.gen2 + 16 * b2n (inRouting s p) + 32 * b2n (portDrained s p) + 2 ^ 6 * q.farSlot + 2 ^ 14 * q.farPort)
  | 1 => w64 (b2n q.routeEn + 2 * b2n q.gen1Only)
  | 2 => q.stats
  | _ => 0

/-- A word of LNY_GRPg (R606). -/
def grpVal (q : LGrp) (k : Nat) : Word :=
  match k with
  | 0 => w64 (b2n q.valid + 2 * grpRoot q + 2 ^ 16 * (q.gen % 2 ^ 16) + 2 ^ 32 * cap 16 q.aborts)
  | 1 => q.m0
  | 2 => q.m1
  | 3 => q.m2
  | 4 => q.m3
  | _ => 0

/-- A register of the LNY_ block. -/
def lnyVal (s : Dev) (r : Nat) : Word :=
  let l := s.lny
  if 0x1000 ≤ r ∧ r < 0x1800 then routeOf s ((r - 0x1000) / 8)
  else if 0x2000 ≤ r ∧ r < 0xA000 then ioGet s (0x0B0000 + r)
  else if 0xA000 ≤ r ∧ r < 0xC000 then grpVal (grpOf s ((r - 0xA000) / 0x40)) (r % 0x40 / 8)
  else if 0x100 ≤ r ∧ r < 0x300 then lportVal s ((r - 0x100) / 0x20) (r % 0x20 / 8)
  else if 0x420 ≤ r ∧ r < 0x440 then bits64 ((r - 0x420) / 8) (isUnreach s)
  else match r with
  | 0x000 => w64 (l.slot + 2 ^ 8 * slotCoord 0 l.slot + 2 ^ 10 * slotCoord 1 l.slot + 2 ^ 13 * slotCoord 2 l.slot)
  | 0x008 => w64 (l.cabId.toNat + 2 ^ 32 * l.inc.toNat)
  | 0x400 => l.e2e
  | 0x500 => w64 (b2n s.timeValid + 2 * b2n (l.master == l.slot) + 4 * b2n l.holdover + 16 * (l.depth % 16) + 2 ^ 16 * (l.offset % 2 ^ 16))
  | 0x508 => w64 l.master
  | _ => 0

/-! ### PART_, DET_ and ERR_ (R397, R635, R636, R669 to R673, R759) -/

/-- The fields of a PART_REQ word (R635); reserved bits read zero. -/
def reqMask (i : Nat) : Word :=
  match i with | 0 => 0xFFFF0001FFFFFFFF | 1 => 0xFFFFFFFF | 2 => 0xFFFFFFFFFFFFFFFF | 3 => 0xFFFFFFFFFFFFFFFF
               | 4 => 0xFFFFFFFFFFFFFFFF | 5 => 0xFFFFFFFFFFFFFFFF | _ => 0x7FFFFFFFFFF

/-- PART_CLAMPc (R397). -/
def clampVal (c : ClampSt) : Word :=
  w64 (c.part + 2 ^ 7 * b2n c.valid + 2 ^ 8 * b2n c.cab + 2 ^ 9 * c.group + 2 ^ 16 * (c.gen % 2 ^ 16) + 2 ^ 32 * b2n c.brokenLast + 2 ^ 40 * c.arrived)

/-- A word of PART_DEFp (R636). -/
def defVal (q : PartSt) (i : Nat) : Word :=
  if i = 0 then setBit (defW q 0) 47 q.valid
  else if i < 10 then defW q i
  else if i = 10 then w64 (q.build.toNat + 2 ^ 32 * q.state) else 0

/-- A register of the PART_ block. -/
def partVal (s : Dev) (r : Nat) : Word :=
  if 0x1000 ≤ r ∧ r < 0x5000 then defVal (partSt s ((r - 0x1000) / 0x80)) (r % 0x80 / 8)
  else if 0x400 ≤ r ∧ r < 0x480 then clampVal (clampOf s ((r - 0x400) / 8))
  else if 0x40 ≤ r ∧ r < 0x90 then ioGet s (0x0C0000 + r) &&& reqMask ((r - 0x40) / 8)
  else if r = 8 then w64 (b2n s.partCmd.busy + 2 * s.partCmd.part + 2 ^ 8 * s.partCmd.code + 2 ^ 16 * s.partCmd.detail)
  else 0

/-- The most uncompleted core checkpoints on any tile of the bookmatched partition (R669). -/
def bmPending (s : Dev) : Nat :=
  (membersOf (partSt s s.bm.part)).foldl (fun n t => max n (tileOf s t).dig.pending.length) 0

/-- A register of the DET_ block. -/
def detVal (s : Dev) (r : Nat) : Word :=
  match r with
  | 0x00 => w64 (s.bm.part + 2 ^ 7 * s.bm.twinPart)
  | 0x08 => w64 (s.bm.st + 2 ^ 4 * s.bm.reason + 2 ^ 8 * cap 7 (bmPending s) + 2 ^ 32 * s.bm.woDone.toNat)
  | 0x10 => ioGet s 0x0D0010 ^^^ 10
  | _ => ioGet s (0x0D0000 + r)

/-- A register of the ERR_ block. -/
def errVal (s : Dev) (r : Nat) : Word :=
  if 0x1000 ≤ r ∧ r < 0x2000 then ringRead (ringOf s ((r - 0x1000) / 0x20)) (r % 0x20 / 8)
  else match r with
  | 0x00 => ioGet s regErrCount
  | 0x08 => setFld s.pf.last 23 17 (cap 7 (s.pf.times.countP (fun t => decide (s.time < t + 10000000000))))
  | _ => 0

/-- A register of the I/O-die control space by its aligned offset (R763, R764). -/
def ioVal (s : Dev) (agent : RegAgent) (o : Nat) : Word :=
  let r := o % 0x10000
  match o / 0x10000 with
  | 0x0 => mgcVal s r
  | 0x1 => clkVal s r
  | 0x2 => kilnVal s r
  | 0x3 => pwrVal s r
  | 0x4 => xltVal s r
  | 0x5 => xltVal s (0x10000 + r)
  | 0x6 => hlcVal s r
  | 0x8 => wqVal s agent r
  | 0x9 => wqVal s agent (0x10000 + r)
  | 0xA => hbmVal s r
  | 0xB => lnyVal s r
  | 0xC => partVal s r
  | 0xD => detVal s r
  | 0xE => errVal s r
  | _ => 0

/-- Does an offset belong to a block (R763)? -/
def inBlock (o : Nat) : Bool := decide (o < 0x070000) || (decide (0x080000 ≤ o) && decide (o < 0x0F0000))

/-! ### Tile control blocks (R58, R215, R216, R289, R317, R372, R396, R398, R427) -/

/-- TCB_TILE_ID (R58, R59). A dead logical tile has no physical tile, and the spec gives PHYS and PROW no value for it: it
reads 0x1FF and 0xF (log entry 66, DESIGN CHOICE). -/
def tileIdVal (s : Dev) (agent : RegAgent) (t : Nat) : Word :=
  let hidden := match agent, partOf (tileOf s t) with
    | .tile _, some p => !(pNative (partSt s p))
    | _, _ => false
  let phys := if hidden then 0x1FF else physOf s t
  let prow := if hidden || phys == 0x1FF then 0xF else physRow phys
  w64 (t + 2 ^ 8 * (t / 128) + 2 ^ 9 * (t % 16) + 2 ^ 13 * (t / 16 % 8) + 2 ^ 16 * phys + 2 ^ 25 * prow)

/-- TCB_DWL_STATUS (R396). -/
def dwlStatus (s : Dev) (t : Nat) : Word :=
  let lw := match (tileOf s t).core.wait with
    | .dwait d => if d.peer.isNone && d.tile == t then (1, d.idx) else (1, 0)
    | _ => (0, 0)
  w64 (lw.1 + 2 * lw.2 + 2 ^ 10 * cap 7 (tableUsed s t))

/-- TCB_TE registers of a channel: STATUS, FAULT, CTRL, TICKET (R427). -/
def teVal (s : Dev) (t ch k : Nat) : Word :=
  let c := chanOf (tileOf s t) ch
  match k with
  | 0 => teStatus s t ch
  | 1 => c.fault
  | 3 => match c.run with
    | some d => w64 (d.ticket.toNat + 2 ^ 32 * ((dBlocks d - dFirst d) % 2 ^ 32))
    | none => 0
  | _ => 0

/-- A register of a tile control block. -/
def tcbVal (s : Dev) (agent : RegAgent) (t o : Nat) : Word :=
  let x := tileOf s t
  let c := x.core
  if 0x100 ≤ o ∧ o < 0x200 then (if c.halted then getG x ((o - 0x100) / 8) else 0)
  else if 0x500 ≤ o ∧ o < 0x600 then
    (let z := laneOf x ((o - 0x500) / 8); w64 (z.pc % 2 ^ 14 + 2 ^ 16 * (z.cause % 256) + 2 ^ 24 * (if z.st = 4 then 0 else z.st)))
  else if 0x700 ≤ o ∧ o < 0x730 then drawerOwn x ((o - 0x700) / 8)
  else if 0x900 ≤ o ∧ o < 0xA00 then teVal s t ((o - 0x900) / 0x40) (o % 0x40 / 8)
  else match o with
  | 0x000 => w64 (b2n c.run)
  | 0x008 => if c.halted then c.corePc else w64 (fld c.pc 16 0)
  | 0x010 => w64 (b2n c.halted + 2 * fld c.status 0 0 + 4 * b2n c.inHandler + 2 ^ 8 * c.lastCode + 2 ^ 16 * b2n c.accessErr)
  | 0x020 => c.stallPartial
  | 0x028 => c.stallOther
  | 0x030 => w64 c.istorePage
  | 0x038 => c.istoreEcc
  | 0x040 => c.engErr
  | 0x200 => if c.halted then c.p.zeroExtend 64 ||| 1 else 0
  | 0x208 => if c.halted then c.cregSel else 0
  | 0x210 => (cregDataRead s t x).1
  | 0x400 => w64 (b2n (!(lvIdle x)) + 2 * cap 5 x.lvu.queue.length + 2 ^ 8 * b2n x.lvu.spin + 2 ^ 9 * b2n (bit c.engErr 0))
  | 0x410 => w64 x.lvu.vregSel
  | 0x600 => w64 (b2n x.me.run.isSome + 2 * cap 4 x.me.queue.length + 2 ^ 5 * b2n (bit c.engErr 1))
  | 0x608 => x.me.stats
  | 0x610 => w64 x.me.sel
  | 0x730 => w64 (x.dr.zeroing.toNat + 2 ^ 8 * x.dr.clean.toNat + 2 ^ 16 * b2n x.dr.reject + 2 ^ 32 * x.dr.scrubPasses.toNat)
  | 0x738 => x.dr.fault
  | 0x740 => x.dr.ecc
  | 0x800 => dwlStatus s t
  | 0x808 => x.dwl.ovf
  | 0x810 => x.dwl.stats
  | 0x818 => w64 (x.dwl.clampPend.toNat + 2 ^ 16 * x.dwl.clampBroken.toNat)
  | 0xA00 => x.teStats
  | 0xA08 => w64 (cap 32 x.teDiscarded)
  | 0xF000 => tileIdVal s agent t
  | _ => 0

/-! ### Fields a read clears (R10, R765) -/

/-- The RC fields of a register of the control space. -/
def ioRc (o : Nat) : Word :=
  let r := o % 0x10000
  match o / 0x10000 with
  | 0x0 => if r = 0x410 ∨ r = 0x450 ∨ r = 0x818 then 0xFFFFFFFFFFFFFFFF else if r = 0x808 then 0xFFFF else if r = 0x820 then 0x7FFF800000 else 0
  | 0x2 => if r = 0x38 then 0xFFFFFFFF else if r = 0x40 then 0xFFFFFFFFFFFFFFFF else 0
  | 0x3 => if r = 0x08 then 0xFFFF00000000 else 0
  | 0x4 => if r = 0x20 ∨ r = 0x28 ∨ r = 0x30 then 0xFFFFFFFFFFFFFFFF else 0
  | 0x5 => if r % 0x100 = 0x10 then 0xFFFFFFFFFFFFFFFF else 0
  | 0x6 => if r = 0x18 then 0xFFFF0000 else if r = 0x20 ∨ r = 0x28 then 0xFFFFFFFFFFFFFFFF else if r = 0x30 then 0xFFFFFFFF else 0
  | 0x8 => if r % 0x100 = 0x40 then 0xFFFFFFFFFFFF0000 else 0
  | 0xA => if r = 0x70 then 0xFFFFFFFFFFFF else if r = 0x78 then 0xFFFF else if r = 0x88 then 0xFFFFFFFF else 0
  | 0xB => if r = 0x400 ∨ (0x100 ≤ r ∧ r < 0x300 ∧ r % 0x20 = 0x10) then 0xFFFFFFFFFFFFFFFF else 0
  | 0xD => if r = 0x20 ∨ (0x3000 ≤ r ∧ r < 0x3400) then 0xFFFFFFFFFFFFFFFF else 0
  | 0xE => if r = 0 then 0xFFFFFFFFFFFFFFFF else 0
  | _ => 0

/-- The RC fields of a register of a control block. -/
def tcbRc (o : Nat) : Word :=
  if o = 0x20 ∨ o = 0x28 ∨ o = 0x810 ∨ o = 0xA00 then 0xFFFFFFFFFFFFFFFF
  else if o = 0x38 then 0xFFFF
  else if o = 0x608 ∨ o = 0x740 then 0xFFFFFFFFFFFF
  else if o = 0x738 ∨ o = 0x808 then 0xFFFF00000000
  else if o = 0xA08 then 0xFFFFFFFF else 0

/-- Clear fields of a register of the control space: the bits of `m`. -/
def ioClear (s : Dev) (o : Nat) (m : Word) : Dev :=
  let r := o % 0x10000
  let plain := ioSet s o (ioGet s o &&& ~~~m)
  let zero (b : Bool) (n : Nat) : Nat := if b then 0 else n
  if m = 0 then s
  else match o / 0x10000 with
  | 0x0 =>
    if r = 0x818 then plain
    else if r = 0x808 then modMgmt s (fun g => { g with resets := 0 })
    else if r = 0x820 then modMgmt s (fun g => { g with dropped := 0 })
    else modHport s ((r - 0x400) / 0x40) (fun h => { h with stats := h.stats &&& ~~~m })
  | 0x2 =>
    if r = 0x38 then modKiln s (fun k => { k with kindFail := k.kindFail &&& ~~~m })
    else modKiln s (fun k => { k with stats := k.stats &&& ~~~m })
  | 0x3 => modPwr s (fun p => { p with exc := 0 })
  | 0x4 =>
    let x := s.xlt
    { s with xlt := if r = 0x20 then { x with statsA := x.statsA &&& ~~~m } else if r = 0x28 then { x with statsB := x.statsB &&& ~~~m }
                    else { x with priStats := x.priStats &&& ~~~m } }
  | 0x5 => { s with xlt := { s.xlt with ctx := mmod 0 s.xlt.ctx (32 * (r / 0x100) + 2) (fun w => w &&& ~~~m) } }
  | 0x8 => modWq s (r / 0x100) (fun k => { k with refused := zero (bit m 16) k.refused, dups := zero (bit m 32) k.dups })
  | 0xB =>
    if r = 0x400 then { s with lny := { s.lny with e2e := s.lny.e2e &&& ~~~m } }
    else modLport s ((r - 0x100) / 0x20) (fun q => { q with stats := q.stats &&& ~~~m })
  | _ => plain

/-- Clear fields of a register of a control block. -/
def tcbClear (x : Tile) (o : Nat) (m : Word) : Tile :=
  if m = 0 then x
  else match o with
  | 0x020 => { x with core := { x.core with stallPartial := x.core.stallPartial &&& ~~~m } }
  | 0x028 => { x with core := { x.core with stallOther := x.core.stallOther &&& ~~~m } }
  | 0x038 => { x with core := { x.core with istoreEcc := x.core.istoreEcc &&& ~~~m } }
  | 0x608 => { x with me := { x.me with stats := x.me.stats &&& ~~~m } }
  | 0x738 => { x with dr := { x.dr with fault := x.dr.fault &&& ~~~m } }
  | 0x740 => { x with dr := { x.dr with ecc := x.dr.ecc &&& ~~~m } }
  | 0x808 => { x with dwl := { x.dwl with ovf := x.dwl.ovf &&& ~~~m } }
  | 0x810 => { x with dwl := { x.dwl with stats := x.dwl.stats &&& ~~~m } }
  | 0xA00 => { x with teStats := x.teStats &&& ~~~m }
  | 0xA08 => { x with teDiscarded := 0 }
  | _ => x

/-! ### Accesses of four and eight bytes (R765) -/

/-- The bits of the half a four-byte access names, or all of them. -/
def halfMask (four : Bool) (off : Nat) : Word :=
  if !four then 0xFFFFFFFFFFFFFFFF else if off % 8 = 4 then 0xFFFFFFFF00000000 else 0xFFFFFFFF

/-- The RC fields of a control-space register that cross its halves: MGC_FLASH.DROPPED. -/
def ioRcCross (o : Nat) : Word := if o = 0x000820 then 0x7FFF800000 else 0
/-- The RC fields of a control-block register that cross its halves: TCB_STALL_PARTIAL. -/
def tcbRcCross (o : Nat) : Word := if o = 0x20 then 0xFFFFFFFFFFFFFFFF else 0

/-- The fields a read clears: all RC fields, or those wholly in the half read. -/
def clearMask (rc cross : Word) (four : Bool) (off : Nat) : Word := if four then (rc &&& halfMask true off) &&& ~~~cross else rc

/-- What an access returns: the register, or its half. -/
def halfVal (four : Bool) (off : Nat) (v : Word) : Nat := if !four then v.toNat else if off % 8 = 4 then fld v 63 32 else fld v 31 0

/-- Read a register of the control space, with what the read clears. -/
def ioReadReg (s : Dev) (agent : RegAgent) (off : Nat) (four : Bool) : Dev × Nat :=
  let o := off / 8 * 8
  (ioClear s o (clearMask (ioRc o) (ioRcCross o) four off), halfVal four off (ioVal s agent o))

/-- Is a state window of R216 refused because the core runs? -/
def windowRefused (x : Tile) (o : Nat) : Bool :=
  !x.core.halted && ((decide (0x100 ≤ o) && decide (o < 0x200)) || o == 0x200 || o == 0x208)

/-- Read a register of a control block, with what the read clears and the ACCESS_ERR of a refused window. -/
def tcbReadReg (s : Dev) (agent : RegAgent) (t off : Nat) (four : Bool) : Dev × Nat :=
  let o := off / 8 * 8
  let v := tcbVal s agent t o
  let s1 := modTile s t (fun x =>
    if o = 0x210 then (cregDataRead s t x).2
    else if windowRefused x o then accessErr x
    else tcbClear x o (clearMask (tcbRc o) (tcbRcCross o) four off))
  (s1, halfVal four off v)

/-- The bytes of the instruction store seen in TCB_ISTORE_WIN (R214). -/
def istRead (x : Tile) (off n : Nat) : List Byte := mbytes 0 x.istore (x.core.istorePage * 0x1000 + off) n

/-- Read `n` bytes of a control block: a window's bytes, or a register. -/
def tcbRead (s : Dev) (agent : RegAgent) (t off n : Nat) : Dev × List Byte :=
  if 0x4000 ≤ off ∧ off < 0x4800 then vwinAccess s t (off - 0x4000) n none
  else if 0x5000 ≤ off ∧ off < 0x6000 then maccAccess s t (off - 0x5000) n none
  else if 0x8000 ≤ off ∧ off < 0x9000 then (s, istRead (tileOf s t) (off - 0x8000) n)
  else
    let r := tcbReadReg s agent t off (n == 4)
    (r.1, leBytes n r.2)

end Sys2Proof.Machine
end

