-- ==== Sys2Proof/Machine/Registers.lean ====
section
/-! DEFINITION. What a write of every register does, who may access it (R473, R475, R526, R527, R603, R635, R669, R759,
R762, R763), the widths of accesses (R765), and accesses in reset (R777). -/

namespace Sys2Proof.Machine
open Sys2Proof

/-- The value of a register after a write of the bits in `en`: the others keep their values. -/
def mergeW (cur v en : Word) : Word := (cur &&& ~~~en) ||| (v &&& en)

/-- The writable fields of a control-space register that cross its halves (R765). -/
def ioCross (o : Nat) : Word :=
  let r := o % 0x10000
  let all : Word := 0xFFFFFFFFFFFFFFFF
  match o / 0x10000 with
  | 0x5 =>
    let k := r % 0x100 / 8
    if k = 1 then all else if k < 8 then 0 else if (k - 8) % 3 = 2 then 0x000FFFFFFFFFF000 else all
  | 0x6 => if r = 8 then 0x000FFFFFFFFFFFC0 else 0
  | 0x8 => if r % 0x100 = 0x18 ∨ r % 0x100 = 0x20 ∨ r % 0x100 = 0x28 then 0xFFFFFFFFFFFFF000 else 0
  | 0xA => if 0x1000 ≤ r ∧ r < 0x2000 ∧ r % 0x20 ≠ 0 then all else 0
  | 0xB => if 0x2000 ≤ r ∧ r < 0xA000 ∧ r % 0x10 = 0 then 0x1FF000000 else if 0xA000 ≤ r ∧ r % 0x40 ≠ 0 then all else 0
  | 0xC => if 0x50 ≤ r ∧ r < 0x70 then all else if 0x70 ≤ r ∧ r < 0x90 then 0x3FFFE000000 else 0
  | 0xE => if 0x1000 ≤ r ∧ r % 0x20 = 0 then 0xFFFFFFFFFFFFF000 else 0
  | _ => 0

/-- The writable fields of a control-block register that cross its halves. -/
def tcbCross (o : Nat) : Word := if (0x100 ≤ o ∧ o < 0x200) ∨ o = 0x210 then 0xFFFFFFFFFFFFFFFF else 0

/-- The bits a write of eight or four bytes carries. -/
def enMask (four : Bool) (off : Nat) (cross : Word) : Word := if four then halfMask true off &&& ~~~cross else 0xFFFFFFFFFFFFFFFF

/-! ### Writes, block by block -/

/-- Bits written as 1 of a W1C field. -/
def w1c (v en : Word) (b : Nat) : Bool := bit (v &&& en) b

/-- MGC_ (R494, R735). -/
def mgcWrite (s : Dev) (r : Nat) (v en : Word) : Dev :=
  let n := (r - 0x400) / 0x40
  if 0x400 ≤ r ∧ r < 0x480 then
    match r % 0x40 / 8 with
    | 1 =>
      let s1 := modHport s n (fun h => { h with ctl := lowBits v 9 })
      if bit v 9 then hportRetrain s1 n else s1
    | 3 => if hasHbm s then modHport s n (fun h => { h with ap := fld (mergeW (w64 h.ap) v en) 7 0 }) else s
    | 4 | 5 | 6 | 7 =>
      let k := r % 0x40 / 8 - 4
      modHport s n (fun h => { h with hostid := mset 0 h.hostid k (lowBits (mergeW (mget 0 h.hostid k) v en) 18) })
    | _ => s
  else if r = 0x480 then { s with ctrlPort := fld (mergeW (w64 s.ctrlPort) v en) 0 0 }
  else if r = 0x810 then ioSet s 0x000810 (lowBits (mergeW (mgcVal s r) v en) 7 ^^^ 10)
  else s

/-- CLK_LOCK_LOST is W1C (R81). -/
def clkWrite (s : Dev) (r : Nat) (v en : Word) : Dev :=
  if r = 0x10 then modClk s (fun c => { c with lost := c.lost &&& ~~~(v &&& en) }) else s

/-- KILN_ (R125, R126, R132). -/
def kilnWrite (s : Dev) (r : Nat) (v en : Word) : Dev :=
  match r with
  | 0x20 => modKiln s (fun k => { k with freqReq := lowBits (mergeW k.freqReq v en) 16 })
  | 0x28 => bankWrite s v
  | 0x58 => modKiln s (fun k => { k with kindEn := bit (mergeW (w64 (b2n k.kindEn)) v en) 0 })
  | _ => s

/-- PWR_ (R169 to R172). A GO that names none of the 24 functions (FUNC 24 to 31) is ignored (log entry 28, DESIGN CHOICE). -/
def pwrWrite (s : Dev) (r : Nat) (v en : Word) : Dev :=
  match r with
  | 0x18 => if bit v 0 then clearLatch s else s
  | 0x20 => if bit v 63 && decide (fld v 4 0 < 24) then funcReq s (fld v 4 0) (bit v 5) else s
  | 0x38 => (List.range 24).foldl (fun s f => if w1c v en f then modFunc s f (fun x => { x with latch := false }) else s) s
  | _ => s

/-- XLT_ (R435, R460). -/
def xltWrite (s : Dev) (agent : RegAgent) (r : Nat) (v en : Word) : Dev :=
  if 0x100 ≤ r ∧ r < 0x180 then xfmtWrite s agent ((r - 0x100) / 0x20) (r % 0x20 / 8) (mergeW (xltVal s r) v en)
  else match r with
  | 0x08 => xltInv s v
  | 0x10 => if w1c v en 5 then { s with xlt := { s.xlt with overrun := false } } else s
  | 0x18 => { s with xlt := { s.xlt with priTmo := lowBits (mergeW s.xlt.priTmo v en) 16 } }
  | _ => s

/-- HLC_ (R507, R527). -/
def hlcWrite (s : Dev) (r : Nat) (v en : Word) : Dev :=
  match r with
  | 0x00 =>
    let s1 := ioSet s (hlcReg 0) (w64 (fld v 3 0))
    if bit v 4 then hlcUnlock s1 else s1
  | 0x08 => ioSet s (hlcReg 1) (mergeW (ioGet s (hlcReg 1)) v en &&& 0x000FFFFFFFFFFFC1)
  | 0x10 => hlcPreload s v
  | _ => s

/-- A configuration register of a queue: ignored while the queue is enabled (R512). -/
def queueConfig (s : Dev) (q : Nat) (f : WqSt → WqSt) : Dev :=
  modWq s q (fun k => if k.en then { k with cfgRej := true } else f k)

/-- A register of queue `q` (R512, R513, R519, R525, R526). -/
def queueWrite (s : Dev) (agent : RegAgent) (q r : Nat) (v en : Word) : Dev :=
  match r with
  | 0x00 => doorbell s q (v.truncate 32)
  | 0x10 => modWq s q (fun k => { k with cqHead := (mergeW (k.cqHead.zeroExtend 64) v en).truncate 32 })
  | 0x18 => queueConfig s q (fun k => { k with ring := mergeW k.ring v en &&& 0xFFFFFFFFFFFFF00F })
  | 0x20 => queueConfig s q (fun k => { k with cq := mergeW k.cq v en &&& 0xFFFFFFFFFFFFF00F })
  | 0x28 => queueConfig s q (fun k => { k with win := mergeW k.win v en &&& 0xFFFFFFFFFFFFF000 })
  | 0x30 => if en &&& 1 = 0 then s else if bit v 0 then enableQueue s q else modWq s q disableQueue
  | 0x40 => if w1c v en 4 then modWq s q (fun k => { k with cfgRej := false }) else s
  | 0x88 => wqDone s agent q v none
  | 0x90 => modWq s q (fun k => { k with res0 := v })
  | 0x98 => modWq s q (fun k => { k with res1 := v })
  | _ => s

/-- A word of HBM_SETk (R536, R564). -/
def setWrite (s : Dev) (k i : Nat) (v en : Word) : Dev :=
  let w (j : Nat) : Word := if j = i then mergeW (setW s k j) v en else setW s k j
  (setDefine s k (bit (w 0) 0) (fld (w 0) 24 8) [w 1, w 2, w 3]).1

/-- HBM_ (R560 to R565). -/
def hbmWrite (s : Dev) (r : Nat) (v en : Word) : Dev :=
  if !(hasHbm s) then s
  else if 0x1000 ≤ r ∧ r < 0x2000 then setWrite s ((r - 0x1000) / 0x20) (r % 0x20 / 8) v en
  else if 0x2000 ≤ r ∧ r < 0x2400 then ioSet s (0x0A0000 + r) (lowBits (mergeW (hbmVal s r) v en) 8 ^^^ 1)
  else match r with
  | 0x08 => if w1c v en 0 then ioSet s 0x0A0008 (setBit (ioGet s 0x0A0008) 0 false) else s
  | 0x10 => ioSet s 0x0A0010 (lowBits (mergeW (hbmVal s r) v en) 8 ^^^ 1)
  | _ => s

/-- A word of LNY_BINDi; a second valid binding of a partition for a slot is ignored (R606). -/
def bindWrite (s : Dev) (i k : Nat) (v en : Word) : Dev :=
  let w := mergeW (bindW s i k) v en
  if k = 1 then ioSet s (bindBase + 0x10 * i + 8) (lowBits w 32)
  else if k ≠ 0 then s
  else
    let w0 := lowBits w 36
    if bit w0 0 && (match bindOf s (fld w0 8 2) (fld w0 16 9) with | some j => j != i | none => false) then s
    else ioSet s (bindBase + 0x10 * i) w0

/-- Has the group's local channel a participant pending (R606)? -/
def groupBusy (s : Dev) (g : Nat) : Bool := match groupChannel s g with | some c => (clampOf s c).arrived != 0 | none => false

/-- A word of LNY_GRPg (R606). -/
def grpWrite (s : Dev) (g k : Nat) (v en : Word) : Dev :=
  let q := grpOf s g
  if groupBusy s g then s
  else match k with
  | 0 => setGrp s g { q with valid := bit (mergeW (w64 (b2n q.valid)) v en) 0 }
  | 1 => setGrp s g { q with m0 := mergeW q.m0 v en }
  | 2 => setGrp s g { q with m1 := mergeW q.m1 v en }
  | 3 => setGrp s g { q with m2 := mergeW q.m2 v en }
  | 4 => setGrp s g { q with m3 := mergeW q.m3 v en }
  | _ => s

/-- RETRAIN of LNY_PORTp_CTL (R603, R577). -/
def lportRetrain (s : Dev) (p : Nat) : Dev :=
  let q := lportOf s p
  if q.st = 2 ∨ q.st = 3 ∨ q.st = 5 then startTraining s p true else s

/-- LNY_ (R603 to R606). -/
def lnyWrite (s : Dev) (r : Nat) (v en : Word) : Dev :=
  if 0x1000 ≤ r ∧ r < 0x1800 then reroute (putRoute s ((r - 0x1000) / 8) (mergeW (routeOf s ((r - 0x1000) / 8)) v en))
  else if 0x2000 ≤ r ∧ r < 0xA000 then bindWrite s ((r - 0x2000) / 0x10) (r % 0x10 / 8) v en
  else if 0xA000 ≤ r ∧ r < 0xC000 then grpWrite s ((r - 0xA000) / 0x40) (r % 0x40 / 8) v en
  else if 0x100 ≤ r ∧ r < 0x300 then
    (if r % 0x20 = 8 then
      let p := (r - 0x100) / 0x20
      let s1 := modLport s p (fun q => { q with routeEn := bit v 0, gen1Only := bit v 1 })
      if bit v 2 then lportRetrain s1 p else s1
    else s)
  else match r with
  | 0x008 => { s with lny := { s.lny with cabId := (mergeW (s.lny.cabId.zeroExtend 64) v en).truncate 32 } }
  | 0x508 => { s with lny := { s.lny with master := fld (mergeW (w64 s.lny.master) v en) 7 0 } }
  | _ => s

/-- PART_ (R397, R635). -/
def partWrite (s : Dev) (r : Nat) (v en : Word) : Dev :=
  if r = 0 then partCommand s v
  else if 0x40 ≤ r ∧ r < 0x90 then ioSet s (0x0C0000 + r) (mergeW (ioGet s (0x0C0000 + r)) v en)
  else if 0x400 ≤ r ∧ r < 0x480 then
    modClamp s ((r - 0x400) / 8) (fun c =>
      let w := mergeW (clampVal c) v en
      { c with part := fld w 6 0, valid := bit w 7, cab := bit w 8, group := fld w 15 9 })
  else s

/-- DET_ (R656, R668, R669): START starts, STOP ends. -/
def detWrite (s : Dev) (r : Nat) (v en : Word) : Dev :=
  match r with
  | 0x00 =>
    if bit v 15 then bmEnd s 0 true
    else if bit v 14 then bmStart s (fld v 6 0) (fld v 13 7)
    else if s.bm.st = 1 ∨ s.bm.st = 2 then s
    else modBm s (fun b => { b with part := fld v 6 0, twinPart := fld v 13 7 })
  | 0x10 => ioSet s 0x0D0010 (lowBits (mergeW (detVal s r) v en) 16 ^^^ 10)
  | _ => s

/-- ERR_ (R745, R759). -/
def errWrite (s : Dev) (r : Nat) (v en : Word) : Dev :=
  if 0x1000 ≤ r ∧ r < 0x2000 then
    let p := (r - 0x1000) / 0x20
    let k := r % 0x20 / 8
    ringWrite s p k (mergeW (ringRead (ringOf s p) k) v en)
  else match r with
  | 0x08 => if w1c v en 16 then { s with pf := { s.pf with last := setBit s.pf.last 16 false } } else s
  | 0x10 => if bit v 63 then errInject s (fld v 15 0) (fld v 23 16) (fld v 31 24) else s
  | _ => s

/-- A permitted write of a control-space register. -/
def ioWrite (s : Dev) (agent : RegAgent) (o : Nat) (v en : Word) : Dev :=
  let r := o % 0x10000
  match o / 0x10000 with
  | 0x0 => mgcWrite s r v en
  | 0x1 => clkWrite s r v en
  | 0x2 => kilnWrite s r v en
  | 0x3 => pwrWrite s r v en
  | 0x4 => xltWrite s agent r v en
  | 0x5 => ctxWrite s agent (r / 0x100) (r % 0x100 / 8) (mergeW (xltVal s (0x10000 + r)) v en)
  | 0x6 => hlcWrite s r v en
  | 0x8 => queueWrite s agent (r / 0x100) (r % 0x100) v en
  | 0xA => hbmWrite s r v en
  | 0xB => lnyWrite s r v en
  | 0xC => partWrite s r v en
  | 0xD => detWrite s r v en
  | 0xE => errWrite s r v en
  | _ => s

/-! ### Control blocks -/

/-- TCB_CORE_CTRL (R215): SRESET resets the core; RUN 0 halts it, RUN 1 resumes it. -/
def coreCtrl (s : Dev) (t : Nat) (v : Word) : Dev :=
  if bit v 1 then resetTile s t
  else if !(bit v 0) then haltTile s t
  else modTile s t (fun x => if x.core.halted then resumeCore x else { x with core := { x.core with run := true } })

/-- The mailbox message of TCB_DOORBELL (R215). -/
def tileBell (x : Tile) (v : Word) : Tile :=
  { x with core := { x.core with mbox := lowBits v 32, ipend := setBit x.core.ipend 1 true } }

/-- TCB_TE_CTRLn (R422, R423, R427). -/
def teCtrl (s : Dev) (t ch : Nat) (v : Word) : Dev :=
  let s1 := if bit v 0 then teStop s t ch else s
  let s2 := if bit v 1 then modChan s1 t ch teGo else s1
  if bit v 4 then modChan s2 t ch (fun c => teClear c (fld v 3 2)) else s2

/-- A spindle record (R289); ignored in spindle mode. -/
def spinRecWrite (x : Tile) (l : Nat) (v en : Word) : Tile :=
  if x.lvu.spin then x
  else
    let z := laneOf x l
    let w := mergeW (w64 (z.pc + 2 ^ 16 * z.cause + 2 ^ 24 * z.st)) v en
    setLane x l ⟨fld w 13 0, fld w 25 24, fld w 23 16⟩

/-- TCB_PREG (R216): p0 stays true. -/
def pregWrite (x : Tile) (v en : Word) : Tile :=
  { x with core := { x.core with p := ((mergeW (x.core.p.zeroExtend 64) v en) &&& 0xFFFE).truncate 16 } }

/-- The engine errors a write clears; with both flags clear the next error is the first (R215). -/
def engErrWrite (x : Tile) (v en : Word) : Tile :=
  let w := x.core.engErr &&& ~~~((v &&& en) &&& 3)
  { x with core := { x.core with engErr := w } }

/-- A permitted write of a control-block register that is kept in the tile alone. -/
def tcbTileWrite (s : Dev) (t : Nat) (x : Tile) (o : Nat) (v en : Word) : Tile :=
  let c := x.core
  if 0x100 ≤ o ∧ o < 0x200 then
    (if c.halted then (let r := (o - 0x100) / 8; if r = 0 then x else { x with core := { c with g := mset 0 c.g r (mergeW (getG x r) v en) } })
     else accessErr x)
  else if 0x500 ≤ o ∧ o < 0x600 then spinRecWrite x ((o - 0x500) / 8) v en
  else match o with
  | 0x008 => if c.halted then { x with core := { c with corePc := lowBits (mergeW c.corePc v en) 17 } } else x
  | 0x010 => if w1c v en 16 then { x with core := { c with accessErr := false } } else x
  | 0x018 => tileBell x v
  | 0x030 => { x with core := { c with istorePage := fld (mergeW (w64 c.istorePage) v en) 4 0 } }
  | 0x038 => if w1c v en 16 then { x with core := { c with istoreEcc := setBit c.istoreEcc 16 false } } else x
  | 0x040 => engErrWrite x v en
  | 0x200 => if c.halted then pregWrite x v en else accessErr x
  | 0x208 => if c.halted then { x with core := { c with cregSel := lowBits (mergeW c.cregSel v en) 7 } } else accessErr x
  | 0x210 => if en = 0 then x else cregDataWrite s t x v
  | 0x410 => { x with lvu := { x.lvu with vregSel := fld (mergeW (w64 x.lvu.vregSel) v en) 5 0 } }
  | 0x610 => { x with me := { x.me with sel := fld (mergeW (w64 x.me.sel) v en) 2 0 } }
  | 0x730 => if w1c v en 16 then { x with dr := { x.dr with reject := false } } else x
  | 0x738 => if w1c v en 28 then { x with dr := { x.dr with fault := setBit x.dr.fault 28 false } } else x
  | 0x808 => if w1c v en 9 then { x with dwl := { x.dwl with ovf := setBit x.dwl.ovf 9 false } } else x
  | 0x818 => { x with dwl := { x.dwl with clampBroken := x.dwl.clampBroken &&& ~~~(BitVec.ofNat 16 (fld (v &&& en) 31 16)) } }
  | _ => x

/-- A permitted write of a control-block register. -/
def tcbWriteReg (s : Dev) (t o : Nat) (v en : Word) : Dev :=
  if 0x700 ≤ o ∧ o < 0x730 then drawerOwnWrite s t ((o - 0x700) / 8) (mergeW (drawerOwn (tileOf s t) ((o - 0x700) / 8)) v en)
  else if 0x900 ≤ o ∧ o < 0xA00 then
    (let ch := (o - 0x900) / 0x40
     match o % 0x40 with
     | 0x00 => if w1c v en 6 then modChan s t ch (fun c => { c with poisoned := false }) else s
     | 0x10 => teCtrl s t ch v
     | _ => s)
  else if o = 0 then coreCtrl s t v
  else if o = 0x408 then (if bit v 0 then spinStop s t else s)
  else modTile s t (fun x => tcbTileWrite s t x o v en)

/-- A permitted write of `n` bytes to a control block: a window's bytes, or a register. -/
def tcbWrite (s : Dev) (t off n : Nat) (v : Word) : Dev :=
  if 0x4000 ≤ off ∧ off < 0x4800 then (vwinAccess s t (off - 0x4000) n (some v)).1
  else if 0x5000 ≤ off ∧ off < 0x6000 then (maccAccess s t (off - 0x5000) n (some v)).1
  else if 0x8000 ≤ off ∧ off < 0x9000 then istWindow s t (off - 0x8000) n v.toNat
  else
    let o := off / 8 * 8
    let four := n == 4
    let w : Word := if four && off % 8 == 4 then v <<< 32 else v
    if four && tcbHasWo o then s else tcbWriteReg s t o w (enMask four off (tcbCross o))

/-! ### Who may access (R473, R475, R603, R635, R669, R759, R762) -/

/-- Does a host function own the queue or the ring at an offset of the control space (R475, R525, R745)? -/
def ownWindow (s : Dev) (port fn o : Nat) : Bool :=
  if 0x080000 ≤ o ∧ o < 0x090000 then
    let k := wqOf s ((o - 0x080000) / 0x100)
    k.owned && k.port == port && k.func == fn && decide (o % 0x100 ≤ 0x40)
  else if 0x0E1000 ≤ o ∧ o < 0x0E2000 then boundPart s port fn == some ((o - 0x0E1000) / 0x20)
  else false

/-- What becomes of a PF's write to an offset: 0 performed, 1 ignored, 2 discarded and recorded (R473). -/
def pfWrites (s : Dev) (port o : Nat) : Nat :=
  let r := o % 0x10000
  let here := ownWindow s port 0 o || decide (0x050000 ≤ o ∧ o < 0x060000) || decide (0x040100 ≤ o ∧ o < 0x040180)
  let never := match o / 0x10000 with
    | 0x0 => r == 0x480
    | 0x1 => true
    | 0x2 => r == 0x58
    | 0x3 => true
    | 0xA => true
    | 0xB => true
    | 0xC => decide (0x90 ≤ r)
    | 0xD => r != 0 && r != 0x10
    | _ => false
  if here then 0 else if port ≠ s.ctrlPort then 2 else if never then 1 else 0

/-- Is the block at an offset held in reset: its rails are not up or its domain reset is asserted (R756, R770, R777)? -/
def ioInReset (s : Dev) (o : Nat) : Bool := !(onVmgmt o) && o / 0x10000 != 2 && (s.pf.phase == 2 || !(railsUp s))
/-- Is a tile's control block held in reset? -/
def tcbInReset (s : Dev) (t : Nat) : Bool := s.pf.phase == 2 || !(railsUp s) || (funcOf s (t / 128)).st != 3

/-- The word of an access, moved to the half it names. -/
def atHalf (four : Bool) (off : Nat) (v : Word) : Word := if four then (if off % 8 = 4 then v <<< 32 else lowBits v 32) else v

/-- A write of eight or four bytes to the control space by an agent (R473, R763 to R765, R777). (log entry 35, DEDUCED) -/
def regWriteIo (s : Dev) (agent : RegAgent) (off : Nat) (four : Bool) (v : Word) : Dev :=
  let o := off / 8 * 8
  let w := atHalf four off v
  let en := enMask four off (ioCross o)
  match agent with
  | .mgmt => if ioInReset s o || (four && ioHasWo o) then s else ioWrite s agent o w en
  | .tile t => if ioInReset s o || (four && ioHasWo o) || !(monitorMayIo s t o true) then s else ioWrite s agent o w en
  | .host port fn =>
    if !(inBlock o) then hostRefused s none port off
    else if fn ≠ 0 ∧ !(ownWindow s port fn o) then hostRefused s none port off
    else if four && ioHasWo o then hostRefused s none port off
    else if ioInReset s o then s
    else if fn ≠ 0 then ioWrite s agent o w en
    else match pfWrites s port o with
      | 0 => ioWrite s agent o w en
      | 1 => s
      | _ => hostRefused s none port off

/-- May an agent write a tile's control block (R215, R473, R767)? -/
def mayTcb (s : Dev) (agent : RegAgent) (t : Nat) (wr : Bool) : Bool :=
  match agent with
  | .mgmt => true
  | .tile u => u.val == t
  | .host port fn => fn == 0 && (!wr || (match partOf (tileOf s t) with | some p => servedBy s p port | none => false))

/-- A write of eight or four bytes to a control block by an agent. -/
def regWriteTcb (s : Dev) (agent : RegAgent) (t off : Nat) (four : Bool) (v : Word) : Dev :=
  if !(mayTcb s agent t true) || (four && tcbHasWo (off / 8 * 8) && !(tcbWindow off)) then
    (match agent with | .host port _ => hostRefused s (partOf (tileOf s t)) port off | _ => s)
  else if tcbInReset s t then s
  else tcbWrite s t off (if four then 4 else 8) v

/-- May an agent read an offset of the control space? -/
def mayReadIo (s : Dev) (agent : RegAgent) (o : Nat) : Bool :=
  match agent with
  | .mgmt => true
  | .tile t => monitorMayIo s t o false
  | .host port fn => inBlock o && (fn == 0 || ownWindow s port fn o)

/-- All ones: what a refused read returns (R478). -/
def ones (n : Nat) : List Byte := List.replicate n 0xFF

/-- Record a refused access of a host (R742). -/
def refuseIf (s : Dev) (agent : RegAgent) (off : Nat) : Dev :=
  match agent with | .host port _ => hostRefused s none port off | _ => s

/-- What a block in reset shows: the state of the part with the values that are loaded before the release (R12, R537,
R589). -/
def resetView (s : Dev) : Dev :=
  let s1 := { s with lny := { s.lny with inc := s.lny.inc + 1 } }
  if hasHbm s then defaultSet s1 else s1

/-- A read of eight or four bytes of the control space by an agent: what it clears, what it returns. -/
def regReadIo (s : Dev) (agent : RegAgent) (off : Nat) (four : Bool) : Dev × List Byte :=
  let n := if four then 4 else 8
  let o := off / 8 * 8
  if !(mayReadIo s agent o) then (refuseIf s agent off, ones n)
  else if ioInReset s o then (s, leBytes n (halfVal four off (ioVal (resetView s) agent o)))
  else
    let r := ioReadReg s agent off four
    (r.1, leBytes n r.2)

/-- A read of eight or four bytes of a control block by an agent. -/
def regReadTcb (s : Dev) (agent : RegAgent) (t off : Nat) (four : Bool) : Dev × List Byte :=
  let n := if four then 4 else 8
  if !(mayTcb s agent t false) then (refuseIf s agent off, ones n)
  else if tcbInReset s t then (s, leBytes n (halfVal four off (tcbVal s agent t (off / 8 * 8))))
  else tcbRead s agent t off n

/-- The offset of an access, aligned to its width: the register path takes no other (R765). -/
def alignedTo (off : BitVec 24) (four : Bool) : Bool := off.toNat % (if four then 4 else 8) == 0

/-- A register write by any agent: in a tile's control block, or in the control space. -/
def anyWrite (s : Dev) (agent : RegAgent) (tcb : Option TileId) (off : BitVec 24) (four : Bool) (v : Word) : Dev :=
  if !(alignedTo off four) then refuseIf s agent off.toNat
  else match tcb with
  | some t => if off.toNat < 0x10000 then regWriteTcb s agent t off.toNat four v else refuseIf s agent off.toNat
  | none => regWriteIo s agent off.toNat four v

/-- A register read by any agent, answered where the host asks. -/
def anyRead (s : Dev) (agent : RegAgent) (tcb : Option TileId) (off : BitVec 24) (four : Bool) : Dev :=
  let n := if four then 4 else 8
  let r := if !(alignedTo off four) then (refuseIf s agent off.toNat, ones n)
    else match tcb with
    | some t => if off.toNat < 0x10000 then regReadTcb s agent t off.toNat four else (refuseIf s agent off.toNat, ones n)
    | none => regReadIo s agent off.toNat four
  match agent with | .host _ _ => send r.1 (.hostReply r.2 false) | _ => r.1

/-- R10, R765: a write of a register. -/
def execRegisterWrite (agent : RegAgent) (tcb : Option TileId) (off : BitVec 24) (four : Bool) (v : BitVec 64) (sys : State) :
    Host.Outcome State Fault Refusal := onDev sys fun s => nxp s (anyWrite s agent tcb off four v)

/-- R20, R10, R765: a read of a register, which clears its RC fields. -/
def execRcRead (agent : RegAgent) (tcb : Option TileId) (off : BitVec 24) (four : Bool) (sys : State) :
    Host.Outcome State Fault Refusal := onDev sys fun s => anyRead s agent tcb off four

/-- Is the block an access names held in reset? -/
def namedInReset (s : Dev) (tcb : Option TileId) (off : BitVec 24) : Bool :=
  match tcb with | some t => tcbInReset s t | none => ioInReset s (off.toNat / 8 * 8)

/-- R777: an access that reaches a block in reset: a write is discarded, a read returns the reset value. -/
def execRegisterAccessInReset (agent : RegAgent) (tcb : Option TileId) (off : BitVec 24) (four : Bool) (wr : Option (BitVec 64)) (sys : State) :
    Host.Outcome State Fault Refusal := onDev sys fun s =>
  if !(namedInReset s tcb off) then s
    else match wr with
    | some v => anyWrite s agent tcb off four v
    | none => anyRead s agent tcb off four

end Sys2Proof.Machine
end

