-- ==== Sys2Proof/Machine/Remote.lean ====
section
/-! DEFINITION. The two ends of an access to another target: the store buffer drains (R195, R378, R382), and a load that
waits in M is judged at its target and returns (R188, R355, R368); completions and timeouts of the part's reads of host
memory (R486, R489). -/

namespace Sys2Proof.Machine
open Sys2Proof

/-! ### Draining (R195, R378, R382) -/

/-- A store entry that has left for its target waits for its acknowledgement. -/
def awaitAck (x : Tile) (e : SbEntry) : Tile := { x with core := { x.core with unacked := x.core.unacked ++ [e] } }

/-- A drained store command of a dowel (R378): applied at an own dowel, sent to another tile's. -/
def drainDowel (s : Dev) (t : Nat) (e : SbEntry) (tile idx : Nat) : Dev :=
  match storeCommand e.val with
  | some (op, v) =>
    if tile = t then applyDowel s tile idx op v
    else sendDowel (modTile s t (fun x => awaitAck x e)) (.core t) (buildOf s t) tile idx op v none
  | none => s

/-- A drained entry at its target. -/
def drainEntry (s : Dev) (ti : TileId) (e : SbEntry) : Dev :=
  let bs := leBytes e.n e.val.toNat
  let t := ti.val
  match e.tgt with
  | .scratch tt off =>
    if tt = t then modTile (mergeTouch s t off e.n) t (fun x => spadPut x off bs)
    else modTile { s with mesh := s.mesh ++ [⟨t, tt, off, e.n, e.val, s.sent⟩], sent := s.sent + 1 } t (fun x => awaitAck x e)
  | .dowel tt idx => drainDowel s t e tt idx
  | .tcb tt off => tcbWrite s tt off e.n e.val
  | .io off => regWriteIo s (.tile ti) off (e.n == 4) e.val
  | .stacked a => modTile (modHbm s (fun h => { h with inq := h.inq ++ [⟨t, a, bs⟩] })) t (fun x => awaitAck x e)
  | .host a =>
    let port := tilePort s t
    modTile (hostPut s (.store t) port a bs false (.hostBytes port a bs false false)) t (fun x => awaitAck x e)
  | _ => s

/-- R195: the oldest store-buffer entry drains. -/
def execStoreBufferDrain (t : TileId) (sys : State) : Host.Outcome State Fault Refusal := onDev sys fun s =>
  nxp s (match (tileOf s t).core.sb with
    | e :: r => drainEntry (modTile s t (fun x => { x with core := { x.core with sb := r } })) t e
    | [] => s)

/-! ### Loads that return (R188) -/

/-- How a part of a load ends at its target. -/
inductive Judged where
  /-- its bytes -/
  | got (s : Dev) (v : List Byte)
  /-- not yet -/
  | wait
  /-- a fault: exception code -/
  | bad (s : Dev) (code : Nat)

/-- What the check at the target's bank says of one part of a load: 0 go on, 1 refused, 2 wait (R355, R363). The request
reaches the target behind the tile's own earlier messages (R66). -/
def loadSays (s : Dev) (ti : TileId) : Target → Nat
  | .scratch tt off =>
    if drawerBusy (tileOf s tt) off || (decide (tt ≠ ti.val) && !(meshClear s ti tt)) then 2
    else if tt ≠ ti.val ∧ !(transferMay (tileOf s tt) off) then 1 else 0
  | .dowel tt _ => if tt ≠ ti.val ∧ !(meshClear s ti tt) then 2 else 0
  | _ => 0

/-- One part of a load that its target lets through (R188): poison (R368, R533), registers (R762), stacked memory behind the
tile's own earlier stores (R539), host memory through the host line cache where the port has it (R496). `ext` is what the link
answered. -/
def judgePart (s : Dev) (ti : TileId) (ext : LoadAns) (p : Target × Nat × Nat) : Judged :=
  let x := tileOf s ti
  let n := p.2.2
  match p.1 with
  | .scratch tt off =>
    let s1 := spadTouch s tt off
    if spadPoisoned (tileOf s1 tt) off n then .bad (tileErr s1 ti 0x1003 1 (coreCtx x) p.2.1 0) 8
    else .got s1 (spadGet (tileOf s1 tt) off n)
  | .dowel tt idx => .got s (leBytes n ((dowelRead s tt idx).toNat >>> (8 * (p.2.1 % 8))))
  | .tcb tt off => let r := tcbRead s (.tile ti) tt off n; .got r.1 r.2
  | .io off => let r := regReadIo s (.tile ti) off (n == 4); .got r.1 r.2
  | .stacked a =>
    if s.hbm.inq.any (fun q => q.tile == ti.val) then .wait
    else
      let s1 := stackTouch s true (partOf x) (coreCtx x) a n
      if stackPoisoned s1 a n then .bad (tileErr s1 ti 0x1003 1 (coreCtx x) p.2.1 0) 8 else .got s1 (stackGet s1 a n)
  | .host a =>
    let port := tilePort s ti
    let ans : Option LoadAns := if !(hportOf s port).cache || ext == .fault then some ext
      else (hostGot s (.load ti) port a n).map (fun g => if g.2 then .poison else .data g.1)
    match ans with
    | some (.data v) => if v.length = n then .got s v else .wait
    | some .poison => .bad (tileErr s ti 0x1003 1 (coreCtx x) p.2.1 0) 8
    | some .fault => .bad s 7
    | none => .wait
  | _ => .bad s 7

/-- The parts in order, up to the first that fails or waits; `k` is the index of the first. -/
def judgeParts (s : Dev) (ti : TileId) (ext : LoadAns) : (k : Nat) → List (Target × Nat × Nat) → Judged × Nat × Nat
  | k, [] => (.got s [], k, 0)
  | k, p :: r =>
    match judgePart s ti ext p with
    | .got s1 v =>
      (match judgeParts s1 ti ext (k + 1) r with
       | (.got s2 v2, i) => (.got s2 (v ++ v2), i)
       | o => o)
    | o => (o, k, p.2.1)

/-- A load at its targets: the ownership of every part is checked before any part is read (R194, R355, R356). -/
def judgeLoad (s : Dev) (ti : TileId) (ext : LoadAns) (parts : List (Target × Nat × Nat)) : Judged × Nat × Nat :=
  if parts.any (fun p => loadSays s ti p.1 == 2) then (.wait, 0, 0)
  else
    match parts.zipIdx.find? (fun p => loadSays s ti p.1.1 == 1) with
    | some ((.scratch tt off, a, _), k) => (.bad (modTile s tt (fun y => drawerFault y 5 off)) 6, k, a)
    | _ => judgeParts s ti ext 0 parts

/-- The cycles a load has waited, a free count, enter `cycle` and LOAD_WAIT (R215; log entry 6, DESIGN CHOICE). -/
def countWait (s : Dev) (t : Nat) : Dev :=
  let k := Config.freeCycles s.freeCtr
  modTile (drawFree s) t (fun x => { x with core := { x.core with
    cycle := countUp x.core.cycle k, stallOther := incFld x.core.stallOther 63 32 k } })

/-- A load that waits fails precisely: EPC names it, and later slots have had no effect (R188). -/
def loadFails (s : Dev) (t code sub bad : Nat) : Dev :=
  settle (modTile (countWait s t) t (fun x =>
    enterException (landDue { x with core := { x.core with wait := .none } }) code sub (BitVec.ofNat 64 bad))) t

/-- The answer to a load that waits. A `dread` or `dtest` of a peer's dowel is answered over Lenys instead. (log entry 58, DEDUCED) -/
def loadReturn (s : Dev) (ti : TileId) (ext : LoadAns) : Dev :=
  match (tileOf s ti).core.wait with
  | .load l =>
    if l.op = 8 ∨ l.op = 9 then
      match l.parts with
      | (_, a, _) :: _ =>
        (match dowelName s ti (BitVec.ofNat 64 a) with
         | .own tile idx =>
           if behindOwn s ti (.own tile idx) then s
           else loadArrives (countWait s ti) ti l (leBytes 8 (dowelRead s tile idx).toNat)
         | _ => s)
      | [] => s
    else
      match judgeLoad s ti ext l.parts with
      | (.got s1 v, _, _) => loadArrives (countWait s1 ti) ti l v
      | (.wait, _, _) => s
      | (.bad s1 code, k, a) => loadFails s1 ti code k a
  | _ => s

/-- R188: the data or the fault of a load from another target returns. -/
def execLoadDataReturn (t : TileId) (ext : LoadAns) (sys : State) : Host.Outcome State Fault Refusal := onDev sys fun s => loadReturn s t ext

/-! ### Completions and timeouts of reads of host memory (R486, R489) -/

/-- Does a core wait for host memory? -/
def loadsHost (x : Tile) : Bool :=
  match x.core.wait with | .load l => l.parts.any (fun p => isHost p.1) | _ => false

/-- The partition and the context of a reader that has a read outstanding on the link; a port with CXL.cache reads lines
(R496). -/
def readerOf (s : Dev) (r : HostReader) : Option (Option Nat × Option Nat) :=
  match r with
  | .core t => let x := tileOf s t; if loadsHost x && !(hportOf s (tilePort s t)).cache then some (partOf x, coreCtx x) else none
  | .te t ch =>
    let x := tileOf s t
    let c := chanOf x ch
    (match c.run with | some d => if (c.st == 1 || c.st == 2) && readsHost c && !(teCached s t) then some (partOf x, descCtx d) else none | none => none)
  | .walk leaf k => ((leafWalks s leaf)[k.val]?).bind (fun w =>
      if (hportOf s (ctxFn s w.tag).1).cache then none else some (some (ctxPart s w.tag), some w.tag))
  | .queue q =>
    let k := wqOf s q
    if k.owned && mayFetch s k && !(hportOf s (pPort (partSt s k.part))).cache then some (some k.part, none) else none
  | .flush port => if (hportOf s port).cov.isEmpty then none else some (none, none)

/-- The tile or queue of a reader, as an address of its record. -/
def readFail (s : Dev) (r : HostReader) : Dev :=
  match r with
  | .core t => loadReturn s t .fault
  | .te t ch => blockCommit s t ch .fault
  | .walk leaf k => walkAnswer s leaf k none false
  | .queue q => descFetch s q none
  | .flush port => flushFailed s port

/-- Data arrives at a reader. -/
def readData (s : Dev) (r : HostReader) (v : List Byte) : Dev :=
  match r with
  | .core t => loadReturn s t (.data v)
  | .te t ch => blockCommit s t ch (.data v)
  | .walk leaf k => walkAnswer s leaf k (some (BitVec.ofNat 64 (leNat (v.take 8)))) false
  | .queue q => descFetch s q (some (wordsOfBytes 16 v))
  | .flush port => flushDone s port

/-- Poisoned data arrives (R486): a load raises POISON, a block carries the poison, a walk fails; a descriptor fetch fails
(log entry 24, DEDUCED). -/
def readPoison (s : Dev) (r : HostReader) : Dev :=
  match r with
  | .core t => loadReturn s t .poison
  | .te t ch => blockCommit s t ch .poison
  | .walk leaf k => walkAnswer s leaf k none false
  | .queue q => descFetch s q none
  | .flush port => flushDone s port

/-- The port a read goes out on. -/
def readPort (s : Dev) (r : HostReader) (part : Option Nat) : Nat :=
  match r with | .flush port => port | _ => (match part with | some p => pPort (partSt s p) | none => 0)

/-- The record of a read of a partition, and its AER error on the requesting function (R742, R752). -/
def readErr (s : Dev) (port : Nat) (part ctx : Option Nat) (id kind : Nat) : Dev :=
  let fn := match part with | some p => pFunc (partSt s p) | none => 0
  aer (raiseErr s part id 1 port ctx 0 kind) port fn kind []

/-- A failed read counts in CPL_TMO (R494). -/
def countCplTmo (s : Dev) (port : Nat) : Dev := modHport s port (fun h => { h with stats := incFld h.stats 63 48 1 })

/-- R486: a completion for the part's read. -/
def execHostReadCompletion (reader : HostReader) (ans : HostAns) (sys : State) : Host.Outcome State Fault Refusal := onDev sys fun s =>
  match readerOf s reader with
    | none => s
    | some (part, ctx) =>
      let port := readPort s reader part
      match ans with
      | .data v => readData s reader v
      | .ep _ => readPoison (readErr s port part ctx 0x2003 1) reader
      | .ur => readFail (countCplTmo (readErr s port part ctx 0x2002 3) port) reader
      | .ca => readFail (countCplTmo (readErr s port part ctx 0x2002 4) port) reader

/-- Is the completion timeout of the reader's function disabled (R489)? -/
def ctoOff (s : Dev) (part : Option Nat) : Bool :=
  match part with | some p => (fnOf s (pPort (partSt s p)) (pFunc (partSt s p))).ctoDis | none => false

/-- R489: a read of host memory times out. -/
def execCompletionTimeout (reader : HostReader) (sys : State) : Host.Outcome State Fault Refusal := onDev sys fun s =>
  match readerOf s reader with
    | none => s
    | some (part, ctx) =>
      let port := readPort s reader part
      if ctoOff s part then s else readFail (countCplTmo (readErr s port part ctx 0x2002 2) port) reader

end Sys2Proof.Machine
end

