-- ==== Sys2Proof/Machine/Mgmt.lean ====
section
/-! DEFINITION. The management command set and the mailbox (R629, R714, R715, R724 to R728), and the SPDM responder
(R631 to R634). -/

namespace Sys2Proof.Machine
open Sys2Proof

/-- What a command answers: the state, STATUS, the data (R724). -/
abbrev MgAns := Dev × Nat × List Byte

/-- STATUS of a response (R724). -/
def stOk : Nat := 0
def stBadCode : Nat := 1
def stBadArg : Nat := 2
def stDenied : Nat := 3
def stNotPowered : Nat := 5
def stStaleTerm : Nat := 6

/-- An answer that changes nothing. -/
def refuse (s : Dev) (st : Nat) : MgAns := (s, st, [])

/-- The bytes of a register as the management controller sees it (R725). -/
def regBytes (s : Dev) (o : Nat) : List Byte := leBytes 8 (ioVal s .mgmt o).toNat

/-! ### Who may send what (R714, R715, R725, R726, R758) -/

/-- Commands that only read. -/
def cmdReads (code : Nat) : Bool := code == 1 || code == 2 || code == 4 || code == 5 || code == 6
/-- Commands the host may send. -/
def cmdHost (code : Nat) : Bool := code != 3 && code != 10 && code != 12
/-- Commands that carry a term to check. -/
def cmdTermed (code : Nat) : Bool := code == 3 || decide (7 ≤ code)

/-- Has the interface a dynamic address (R721)? -/
def i3cUp (s : Dev) (b : Bool) : Bool := mget 0 s.mgmt.i3c (b2n b) != 0

/-- Does a command reach the management controller and is it answered: firmware or recovery, the transport, the BIST stop? -/
def mgHears (s : Dev) (src : MgSrc) (code : Nat) : Bool :=
  s.pwr.vmgmt && (fwUp s || s.mgmt.stage == 14) &&
  match src with
  | .manager b _ => if s.mgmt.bootStop then i3cUp s b && (code == 1 || code == 5) else i3cUp s b || (fwUp s && lenysUp s)
  | .host port => !s.mgmt.bootStop && fwUp s && (hportOf s port).dlUp && mget 0 s.mgmt.eid port != 0

/-- A command under the rules of its source and its term, then by its own rule. (log entry 60, DEDUCED) -/
def mgJudge (s : Dev) (src : MgSrc) (code : Nat) (run : Dev → MgAns) : MgAns :=
  if s.mgmt.stage = 14 ∧ code ≠ 1 ∧ code ≠ 8 then refuse s stBadCode
  else match src with
  | .host port => if !(cmdHost code) || (!(cmdReads code) && port.val != s.ctrlPort) then refuse s stDenied else run s
  | .manager _ term => if cmdTermed code && decide (term < s.kiln.term) then refuse s stStaleTerm else run s

/-- A command response from byte 8 on (R724). -/
def mgReply (code st : Nat) (data : List Byte) : List Byte := leBytes 1 code ++ leBytes 1 st ++ leBytes 2 data.length ++ data

/-- Where a response goes. -/
def mgDst : MgSrc → Nat
  | .manager b _ => 0x100 + b2n b
  | .host port => 0x200 + port.val

/-- Serve a command that came as a message. -/
def mgServe (s : Dev) (src : MgSrc) (code : Nat) (run : Dev → MgAns) : Dev :=
  if !(mgHears s src code) then s
  else
    let r := mgJudge s src code run
    send r.1 (.mctp (mgDst src) 2 (padWords (mgReply code r.2.1 r.2.2)))

/-! ### The commands (R725) -/

/-- GET_ID. -/
def cmdGetId (s : Dev) : MgAns := (s, stOk, [0x00, 0x08, 0x10, 0x800].flatMap (regBytes s))

/-- REG_READ. -/
def cmdRegRead (off : Nat) (s : Dev) : MgAns :=
  if off % 8 ≠ 0 ∨ !(inBlock off) then refuse s stBadArg
  else if !(railsUp s) && !(onVmgmt off) then refuse s stNotPowered
  else
    let r := regReadIo s .mgmt off false
    (r.1, stOk, r.2)

/-- The registers REG_WRITE may write. -/
def mgWritable (off : Nat) : Bool :=
  off / 0x10000 == 0xB || off == 0x030018 || off == 0x030020 || off == 0x020028

/-- REG_WRITE. -/
def cmdRegWrite (off : Nat) (v : Word) (s : Dev) : MgAns :=
  if off % 8 ≠ 0 ∨ !(inBlock off) then refuse s stBadArg
  else if !(mgWritable off) then refuse s stDenied
  else if !(railsUp s) && !(onVmgmt off) then refuse s stNotPowered
  else (regWriteIo s .mgmt off false v, stOk, [])

/-- The entries of the knot-map image from 0x40 on (R32). -/
def knotBody (s : Dev) : List Byte :=
  let m := s.knots.eff
  colBytes s ++ (List.range 16).flatMap (fun p => leBytes 2 (mget lnyFactory s.knots.eff.lny p)) ++
    leBytes 24 (packElems 1 192 (fun pc => b2n (pcOut s pc))) ++ leBytes 8 0 ++
    (List.range 288).flatMap (fun p => leBytes 1 (mget 0 m.func p)) ++ m.repairs.flatMap (fun w => leBytes 8 w.toNat)

/-- The knot-map image (R32). -/
def knotImage (s : Dev) : List Byte :=
  let b := knotBody s
  let f := s.knots.fac.repairs.length
  leBytes 4 0x00010000 ++ leBytes 4 (0x40 + b.length) ++ leBytes 8 s.knots.gen.toNat ++ leBytes 4 f ++
    leBytes 4 (s.knots.eff.repairs.length - f) ++ leBytes 4 (crc32 b).toNat ++ leBytes 36 0 ++ b

/-- GET_KNOT. -/
def cmdGetKnot (off len : Nat) (s : Dev) : MgAns :=
  let img := knotImage s
  if 1024 < len ∨ img.length < off + len then refuse s stBadArg else (s, stOk, (img.drop off).take len)

/-- A log record as it is stored (R708). -/
def recBytes (r : LogRec) : List Byte :=
  let h := leBytes 1 r.stream ++ leBytes 1 (8 * r.payload.length) ++ leBytes 2 0 ++ leBytes 4 r.seq
  let p := r.payload.flatMap (fun w => leBytes 8 w.toNat)
  h ++ leBytes 4 (crc32 (h ++ p)).toNat ++ leBytes 4 0 ++ p

/-- Items in order as long as the whole fits 1,024 bytes (log entry 60, DEDUCED). -/
def fitItems : List (List Byte) → Nat → List Byte
  | [], _ => []
  | b :: r, used => if used + b.length ≤ 1024 then b ++ fitItems r (used + b.length) else []

/-- GET_LOG. -/
def cmdGetLog (stream first count : Nat) (s : Dev) : MgAns :=
  if 3 < stream then refuse s stBadArg
  else
    let rs := (streamRecs s.mgmt stream).filter (fun r => decide (first ≤ r.seq) && decide (r.seq < first + count))
    (s, stOk, fitItems (rs.map recBytes) 0)

/-- GET_TLM. -/
def cmdGetTlm (first count : Nat) (s : Dev) : MgAns :=
  let rs := s.mgmt.tlm.filter (fun w => let k := fld (w.getD 1 0) 31 0; decide (first ≤ k) && decide (k < first + count))
  (s, stOk, fitItems (rs.map (fun w => w.flatMap (fun x => leBytes 8 x.toNat))) 0)

/-- R629: ROLLBACK_COMMIT: the counter of a type rises to the SVN of the image that runs; it never falls. -/
def cmdRollback (typ : Nat) (s : Dev) : MgAns :=
  let g := s.mgmt
  if typ = 1 then (let n := max g.roll1 g.mfSvn; (modMgmt s (fun g => { g with roll1 := n }), stOk, leBytes 4 n))
  else if typ = 2 then
    (if !g.tmOk then refuse s stDenied else (let n := max g.roll2 g.tmSvn; (modMgmt s (fun g => { g with roll2 := n }), stOk, leBytes 4 n)))
  else refuse s stBadArg

/-- Is a slot that of the running image (R726)? An image that was written in recovery runs from no slot. -/
def slotRuns (g : MgmtSt) (typ slot : Nat) : Bool :=
  if typ = 1 then g.sram.isEmpty && g.mfSlot == slot else g.tmOk && g.tmSlot == slot

/-- IMAGE_WRITE: into a slot that does not run; in recovery into the SRAM (R714). -/
def cmdImageWrite (typ slot off : Nat) (data : List Byte) (s : Dev) : MgAns :=
  if (typ ≠ 1 ∧ typ ≠ 2) ∨ 1 < slot ∨ 1000 < data.length ∨ slotBytes typ < off + data.length then refuse s stBadArg
  else if s.mgmt.stage = 14 then
    (if typ ≠ 1 then refuse s stDenied else (modMgmt s (fun g => { g with sram := mwrite 0xFF g.sram off data }), stOk, []))
  else if slotRuns s.mgmt typ slot then refuse s stDenied
  else (modMgmt s (fun g => { g with flash := mwrite 0xFF g.flash (slotBase typ slot + off) data }), stOk, [])

/-- IMAGE_SELECT: the selection is kept in stream 3 of the log (R709). -/
def cmdImageSelect (typ slot : Nat) (s : Dev) : MgAns :=
  if (typ ≠ 1 ∧ typ ≠ 2) ∨ 1 < slot then refuse s stBadArg
  else
    let s1 := modMgmt s (fun g => if typ = 1 then { g with sel1 := slot } else { g with sel2 := slot })
    (logWrite s1 3 (bootRecord s1), stOk, [])

/-- SET_TIME (R598, R698): only the time master's initial count; a valid counter is never stepped. -/
def cmdSetTime (v : Word) (s : Dev) : MgAns :=
  if !(railsUp s) then refuse s stNotPowered
  else if s.timeValid || s.lny.master != s.lny.slot then refuse s stDenied
  else (loadTime s v.toNat, stOk, [])

/-- SET_DEFINE (R727). -/
def cmdSetDefine (k : Nat) (valid : Bool) (base : Nat) (m : List Word) (s : Dev) : MgAns :=
  if 128 ≤ k then refuse s stBadArg
  else if !(railsUp s) then refuse s stNotPowered
  else
    let r := setDefine s k valid base m
    if r.2 then (r.1, stOk, [0, 8, 16, 24].flatMap (fun i => regBytes r.1 (0x0A1000 + 0x20 * k + i)) ++ regBytes r.1 0x0A0008)
    else refuse r.1 stDenied

/-- CLAMP_JOIN (R727). -/
def cmdClampJoin (c : Nat) (cab : Bool) (group : Nat) (s : Dev) : MgAns :=
  if 16 ≤ c ∨ 128 ≤ group then refuse s stBadArg
  else if !(railsUp s) then refuse s stNotPowered
  else
    let k := clampOf s c
    if !k.valid || k.arrived != 0 || (cab && !(grpOf s group).valid) then refuse s stDenied
    else
      let s1 := modClamp s c (fun k => { k with cab := cab, group := group })
      (s1, stOk, leBytes 8 (clampVal (clampOf s1 c)).toNat)

/-- R725: GET_ID. -/
def execGetId (src : MgSrc) (sys : State) : Host.Outcome State Fault Refusal := onDev sys fun s => mgServe s src 1 cmdGetId
/-- R715, R725: REG_READ. -/
def execRegRead (src : MgSrc) (off : BitVec 32) (sys : State) : Host.Outcome State Fault Refusal := onDev sys fun s => mgServe s src 2 (cmdRegRead off.toNat)
/-- R725, R726: REG_WRITE. -/
def execRegWrite (src : MgSrc) (off : BitVec 32) (v : BitVec 64) (sys : State) : Host.Outcome State Fault Refusal := onDev sys fun s =>
  nxp s (mgServe s src 3 (cmdRegWrite off.toNat v))
/-- R32, R725: GET_KNOT. -/
def execGetKnot (src : MgSrc) (off len : BitVec 32) (sys : State) : Host.Outcome State Fault Refusal := onDev sys fun s =>
  mgServe s src 4 (cmdGetKnot off.toNat len.toNat)
/-- R708, R725: GET_LOG. -/
def execGetLog (src : MgSrc) (stream : BitVec 8) (first count : BitVec 32) (sys : State) : Host.Outcome State Fault Refusal := onDev sys fun s =>
  mgServe s src 5 (cmdGetLog stream.toNat first.toNat count.toNat)
/-- R725, R730: GET_TLM. -/
def execGetTlm (src : MgSrc) (first count : BitVec 32) (sys : State) : Host.Outcome State Fault Refusal := onDev sys fun s =>
  mgServe s src 6 (cmdGetTlm first.toNat count.toNat)
/-- R629. -/
def execRollbackCommit (src : MgSrc) (typ : BitVec 8) (sys : State) : Host.Outcome State Fault Refusal := onDev sys fun s =>
  mgServe s src 7 (cmdRollback typ.toNat)
/-- R714, R725, R726: IMAGE_WRITE. -/
def execImageWrite (src : MgSrc) (typ slot : BitVec 8) (off : BitVec 32) (data : List Byte) (sys : State) : Host.Outcome State Fault Refusal := onDev sys fun s =>
  mgServe s src 8 (cmdImageWrite typ.toNat slot.toNat off.toNat data)
/-- R725: IMAGE_SELECT. -/
def execImageSelect (src : MgSrc) (typ slot : BitVec 8) (sys : State) : Host.Outcome State Fault Refusal := onDev sys fun s =>
  mgServe s src 9 (cmdImageSelect typ.toNat slot.toNat)
/-- R698. -/
def execSetTime (src : MgSrc) (v : BitVec 64) (sys : State) : Host.Outcome State Fault Refusal := onDev sys fun s => mgServe s src 10 (cmdSetTime v)
/-- R727. -/
def execSetDefine (src : MgSrc) (k : BitVec 8) (valid : Bool) (base : BitVec 32) (m0 m1 m2 : BitVec 64) (sys : State) :
    Host.Outcome State Fault Refusal := onDev sys fun s => mgServe s src 11 (cmdSetDefine k.toNat valid base.toNat [m0, m1, m2])
/-- R727. -/
def execClampJoin (src : MgSrc) (c : BitVec 8) (cab : Bool) (group : BitVec 8) (sys : State) : Host.Outcome State Fault Refusal := onDev sys fun s =>
  mgServe s src 12 (cmdClampJoin c.toNat cab group.toNat)

/-! ### The mailbox (R728) -/

/-- The bytes of a command's arguments, packed in the order of R725's table; IMAGE_WRITE has its own (log entry 60, DEDUCED). -/
def argLen (code : Nat) : Nat := [0, 0, 4, 12, 8, 9, 8, 1, 0, 2, 8, 30, 3].getD code 0

/-- A command by its CODE with arguments packed little-endian in the order of R725's table; a LEN that is not theirs is
BAD_ARG (log entry 60, DEDUCED). -/
def cmdOf (code len : Nat) (arg : Nat → Nat → Nat) (bytes : Nat → Nat → List Byte) : Dev → MgAns :=
  if code ≠ 8 ∧ 1 ≤ code ∧ code ≤ 12 ∧ len ≠ argLen code then fun s => refuse s stBadArg
  else match code with
  | 1 => cmdGetId
  | 2 => cmdRegRead (arg 0 4)
  | 3 => cmdRegWrite (arg 0 4) (BitVec.ofNat 64 (arg 4 8))
  | 4 => cmdGetKnot (arg 0 4) (arg 4 4)
  | 5 => cmdGetLog (arg 0 1) (arg 1 4) (arg 5 4)
  | 6 => cmdGetTlm (arg 0 4) (arg 4 4)
  | 7 => cmdRollback (arg 0 1)
  | 8 => if len < 6 ∨ 1006 < len then (fun s => refuse s stBadArg) else cmdImageWrite (arg 0 1) (arg 1 1) (arg 2 4) (bytes 6 (len - 6))
  | 9 => cmdImageSelect (arg 0 1) (arg 1 1)
  | 10 => cmdSetTime (BitVec.ofNat 64 (arg 0 8))
  | 11 => cmdSetDefine (arg 0 1) (arg 1 1 % 2 == 1) (arg 2 4) [BitVec.ofNat 64 (arg 6 8), BitVec.ofNat 64 (arg 14 8), BitVec.ofNat 64 (arg 22 8)]
  | 12 => cmdClampJoin (arg 0 1) (arg 1 1 % 2 == 1) (arg 2 1)
  | _ => fun s => refuse s stBadCode

/-- GO of MGC_MBX_CTL: the request is served as a command of the host and the response is written; while the firmware does
not run it waits with BUSY set (R705). -/
def mbxGo (s : Dev) (port : Fin 2) : Dev :=
  if port.val ≠ s.ctrlPort then hostRefused s none port 0x03000FF8
  else if s.mgmt.mbxBusy then s
  else if !(fwUp s) then modMgmt s (fun g => { g with mbxBusy := true })
  else
    let q := s.mgmt.mbxReq
    let code := leNat (mbytes 0 q 0 1)
    let r := mgJudge s (.host port) code (cmdOf code (leNat (mbytes 0 q 2 2)) (fun off n => leNat (mbytes 0 q (8 + off) n)) (fun off n => mbytes 0 q (8 + off) n))
    modMgmt r.1 (fun g => { g with mbxRsp := mwrite 0 [] 0 (mgReply code r.2.1 r.2.2), mbxDone := true, mbxStatus := r.2.1 })

/-- R728. -/
def execMbxGo (port : Fin 2) (sys : State) : Host.Outcome State Fault Refusal := onDev sys fun s =>
  if s.pwr.vmgmt && (hportOf s port).dlUp then mbxGo s port else s

/-! ### SPDM (R631 to R634) -/

/-- Is a transport available: 0 and 1 DOE of a port, 2 and 3 VDM of a port, 4 and 5 I3C, 6 Lenys (R632, R720)? -/
def spdmHears (s : Dev) (tr : Nat) : Bool :=
  s.pwr.vmgmt && fwUp s && !s.mgmt.bootStop &&
  match tr with
  | 0 => (hportOf s 0).dlUp && (hportOf s 0).ready
  | 1 => (hportOf s 1).dlUp && (hportOf s 1).ready
  | 2 => (hportOf s 0).dlUp && mget 0 s.mgmt.eid 0 != 0
  | 3 => (hportOf s 1).dlUp && mget 0 s.mgmt.eid 1 != 0
  | 4 => i3cUp s false
  | 5 => i3cUp s true
  | _ => lenysUp s

/-- The responder state of a transport. -/
def spdmOf (s : Dev) (tr : Nat) : SpdmSt := mget SpdmSt.reset s.mgmt.spdm tr
/-- Change it. -/
def modSpdm (s : Dev) (tr : Nat) (f : SpdmSt → SpdmSt) : Dev := modMgmt s (fun g => { g with spdm := mmod SpdmSt.reset g.spdm tr f })

/-- A response. The codes of responses and errors are those of the DMTF specification (log entry 61, PRESUMED). -/
def spdmSay (s : Dev) (tr code : Nat) (data : List Byte) : Dev := send s (.spdm tr code data)
/-- An ERROR response. -/
def spdmErr (s : Dev) (tr code : Nat) : Dev := spdmSay s tr 0x7F [BitVec.ofNat 8 code, 0]
def errInvalid : Nat := 0x01
def errBusy : Nat := 0x03
def errUnexpected : Nat := 0x04
def errDecrypt : Nat := 0x06
def errSessions : Nat := 0x0A

/-- The certificate chain of slot 0: its last certificate follows the measurements (R631; log entry 8, DESIGN CHOICE). -/
def certChain (s : Dev) : List Byte := Config.engineBytes 1 (leNat (((s.mgmt.meas.find? (fun m => m.1 == 2)).map (·.2.1)).getD []))
/-- The attestation key's signature over a digest of bytes (log entry 8, DESIGN CHOICE). -/
def signed (bs : List Byte) : List Byte := leBytes 96 (Config.attestSignature (leNat (sha384 bs)))

/-- A request that follows NEGOTIATE_ALGORITHMS; those that need the attestation key are Busy until it is derived (R715). -/
def spdmAfter (s : Dev) (tr : Nat) (key : Bool) (f : Dev → Dev) : Dev :=
  if !(spdmHears s tr) then s
  else if key && !s.mgmt.attest then spdmErr s tr errBusy
  else if (spdmOf s tr).stage ≠ 3 then spdmErr s tr errUnexpected
  else f s

/-- R633: version 1.3; what was negotiated and the sessions end. -/
def execGetVersion (tr : Fin 7) (sys : State) : Host.Outcome State Fault Refusal := onDev sys fun s =>
  if !(spdmHears s tr) then s
    else spdmSay (modSpdm s tr (fun q => ⟨1, [], q.nextId⟩)) tr 0x04 (leBytes 1 0 ++ leBytes 1 1 ++ leBytes 2 0x1300)

/-- The capability flags of R633 (CERT, CHAL, MEAS with signatures, MEAS_FRESH, ENCRYPT, MAC, KEY_EX, HBEAT, KEY_UPD). -/
def capFlags : Nat := 2 + 4 + 16 + 32 + 64 + 128 + 512 + 0x2000 + 0x4000

/-- R633. -/
def execGetCapabilities (tr : Fin 7) (_flags : BitVec 32) (sys : State) : Host.Outcome State Fault Refusal := onDev sys fun s =>
  if !(spdmHears s tr) then s
    else if (spdmOf s tr).stage ≠ 1 then spdmErr s tr errUnexpected
    else spdmSay (modSpdm s tr (fun q => { q with stage := 2 })) tr 0x61 (leBytes 4 capFlags)

/-- R633: the responder supports one choice of each kind. -/
def execNegotiateAlgorithms (tr : Fin 7) (p384 sha secp aes : Bool) (sys : State) : Host.Outcome State Fault Refusal := onDev sys fun s =>
  if !(spdmHears s tr) then s
    else if (spdmOf s tr).stage ≠ 2 then spdmErr s tr errUnexpected
    else if !(p384 && sha && secp && aes) then spdmErr s tr errInvalid
    else spdmSay (modSpdm s tr (fun q => { q with stage := 3 })) tr 0x63 [0x80, 0x02, 0x04, 0x10, 0x02]

/-- R633: slot 0. -/
def execGetDigests (tr : Fin 7) (sys : State) : Host.Outcome State Fault Refusal := onDev sys fun s =>
  spdmAfter s tr true (fun s => spdmSay s tr 0x01 (1 :: sha384 (certChain s)))

/-- R633. -/
def execGetCertificate (tr : Fin 7) (slot : Fin 8) (off len : BitVec 16) (sys : State) : Host.Outcome State Fault Refusal := onDev sys fun s =>
  spdmAfter s tr true (fun s =>
    let c := certChain s
    if slot.val ≠ 0 ∨ c.length < off.toNat then spdmErr s tr errInvalid
    else
      let part := (c.drop off.toNat).take len.toNat
      spdmSay s tr 0x02 (leBytes 2 part.length ++ leBytes 2 (c.length - off.toNat - part.length) ++ part))

/-- R631, R633: the attestation key signs. -/
def execChallenge (tr : Fin 7) (slot : Fin 8) (nonce : BitVec 256) (sys : State) : Host.Outcome State Fault Refusal := onDev sys fun s =>
  spdmAfter s tr true (fun s =>
    if slot.val ≠ 0 then spdmErr s tr errInvalid
    else
      let own := leBytes 32 (Config.engineNum 6 s.freeCtr)
      let body := sha384 (certChain s) ++ own
      spdmSay (drawFree s) tr 0x03 (body ++ signed (leBytes 32 nonce.toNat ++ body)))

/-- A measurement as a block: index, digest (R630, R634). -/
def measBlock (m : Nat × List Byte × Nat) : List Byte :=
  leBytes 1 m.1 ++ (if m.1 ≤ 3 then m.2.1 else sha384 m.2.1)

/-- R634: index 0 asks how many there are, 0xFF for all of them. -/
def execGetMeasurements (tr : Fin 7) (index : BitVec 8) (sign : Bool) (nonce : BitVec 256) (sys : State) : Host.Outcome State Fault Refusal := onDev sys fun s =>
  spdmAfter s tr sign (fun s =>
    let i := index.toNat
    let ms := s.mgmt.meas.filter (fun m => i == 0xFF || m.1 == i)
    if i ≠ 0 ∧ ms.isEmpty then spdmErr s tr errInvalid
    else
      let body := if i = 0 then leBytes 1 s.mgmt.meas.length else ms.flatMap measBlock
      spdmSay s tr 0x60 (if sign then body ++ signed (leBytes 32 nonce.toNat ++ body) else body))

/-- R633, R634: a session begins; a transport has at most four. -/
def execKeyExchange (tr : Fin 7) (slot : Fin 8) (share : BitVec 768) (sys : State) : Host.Outcome State Fault Refusal := onDev sys fun s =>
  spdmAfter s tr true (fun s =>
    let q := spdmOf s tr
    if slot.val ≠ 0 then spdmErr s tr errInvalid
    else if 4 ≤ q.sess.length then spdmErr s tr errSessions
    else
      let body := leBytes 4 q.nextId ++ leBytes 96 (Config.engineNum 2 s.freeCtr)
      spdmSay (modSpdm (drawFree s) tr (fun q => { q with sess := q.sess ++ [⟨q.nextId, false, 0⟩], nextId := q.nextId + 1 })) tr 0x64
        (body ++ signed (leBytes 96 share.toNat ++ body)))

/-- A request within a session that is open. -/
def inSession (s : Dev) (tr id : Nat) (f : Dev → Dev) : Dev :=
  spdmAfter s tr false (fun s =>
    if (spdmOf s tr).sess.any (fun x => x.id == id && x.open_) then f s else spdmErr s tr errUnexpected)

/-- R633: FINISH opens the session when its authentication code is that of the session (log entry 8, DESIGN CHOICE). -/
def execFinish (tr : Fin 7) (sess : BitVec 32) (mac : BitVec 384) (sys : State) : Host.Outcome State Fault Refusal := onDev sys fun s =>
  spdmAfter s tr false (fun s =>
    if !((spdmOf s tr).sess.any (fun x => x.id == sess.toNat && !x.open_)) then spdmErr s tr errUnexpected
    else if mac ≠ BitVec.ofNat 384 (Config.engineNum 5 sess.toNat) then spdmErr s tr errDecrypt
    else spdmSay (modSpdm s tr (fun q => { q with sess := q.sess.map (fun x => if x.id = sess.toNat then { x with open_ := true } else x) })) tr 0x65 [])

/-- R633. -/
def execSpdmHeartbeat (tr : Fin 7) (sess : BitVec 32) (sys : State) : Host.Outcome State Fault Refusal := onDev sys fun s =>
  inSession s tr sess.toNat (fun s => spdmSay s tr 0x68 [])

/-- R633: 1 update the key, 2 update both keys, 3 verify the new key. -/
def execKeyUpdate (tr : Fin 7) (sess : BitVec 32) (op : Fin 4) (sys : State) : Host.Outcome State Fault Refusal := onDev sys fun s =>
  inSession s tr sess.toNat (fun s =>
    if op.val = 0 then spdmErr s tr errInvalid
    else
      let s1 := modSpdm s tr (fun q => { q with
        sess := q.sess.map (fun x => if x.id = sess.toNat ∧ op.val ≠ 3 then { x with updates := x.updates + 1 } else x) })
      spdmSay s1 tr 0x69 (leBytes 1 op.val))

/-- R633. -/
def execEndSession (tr : Fin 7) (sess : BitVec 32) (sys : State) : Host.Outcome State Fault Refusal := onDev sys fun s =>
  inSession s tr sess.toNat (fun s =>
    spdmSay (modSpdm s tr (fun q => { q with sess := q.sess.filter (fun x => x.id != sess.toNat) })) tr 0x6C [])

end Sys2Proof.Machine
end

