-- ==== Sys2Proof/Machine/Flue.lean ====
section
/-! DEFINITION. Flue: the cabinet managers' contract, grants, terms, sheds and starts (R680 to R698). The balance is in mW,
levels in 0.125 W as the reports carry them. -/

namespace Sys2Proof.Machine
open Sys2Proof

/-- A manager by its letter: 0 A, 1 B. -/
def mgrOf (s : State) (m : Nat) : FlueMgr := if m = 0 then s.flue.a else s.flue.b
/-- Put a manager. -/
def putMgr (s : State) (m : Nat) (g : FlueMgr) : State := { s with flue := if m = 0 then { s.flue with a := g } else { s.flue with b := g } }

/-- The capacity of the up budget, the charge of a cord and of a START, in mW (R692). -/
def budgetCap : Int := 200000
def cordCharge : Int := 25000
def startCharge : Int := 172000

/-- A held level in 0.125 W as mW. -/
def levelMw (h : Nat) : Nat := 125 * h
/-- 180 W and 1,180 W in 0.125 W. -/
def smoulder8 : Nat := 1440
def limit8 : Nat := 9440

/-- A manager's parts. -/
def flueParts (g : FlueMgr) : List (Nat × FluePart) := g.parts
/-- The sum over all parts of H with the cords granted, and FIXED, in mW (R691). -/
def drawSum (g : FlueMgr) : Nat :=
  (flueParts g).foldl (fun n e => n + levelMw e.2.hNext + 25000 * e.2.cords) (1000 * g.fixed)

/-! ### Messages (R687, R688) -/

/-- A message of a manager to a slot: the header and the body words. -/
def flueSend (s : State) (m : Nat) (g : FlueMgr) (kind slot epoch : Nat) (body : List Word) : State :=
  { s with dev := send s.dev (.flue kind ([BitVec.ofNat 64 slot, BitVec.ofNat 64 (kind + 2 ^ 8 + 2 ^ 16 * (0x100 + m) + 2 ^ 32 * g.term.toNat), BitVec.ofNat 64 epoch] ++ body)) }

/-- The body of an EPOCH message. -/
def epochBody (cords flags slew : Nat) : List Word := [BitVec.ofNat 64 (cords + 2 ^ 8 * flags + 2 ^ 16 * slew)]

/-- A HEARTBEAT to the other manager: balance, last shed identifier, envelope (R684). -/
def heartbeat (s : State) (m : Nat) (g : FlueMgr) : State :=
  flueSend s m g 5 (0x101 - m) g.epoch
    [BitVec.ofNat 64 (ofSigned 32 g.budget + 2 ^ 32 * g.shedId.toNat), BitVec.ofNat 64 g.envelope]

/-! ### Sheds (R680, R691, R696) -/

/-- What the parts hold above 180 W, in 0.125 W. -/
def aboveSum (g : FlueMgr) : Nat := (flueParts g).foldl (fun n e => n + (e.2.hNext - smoulder8)) 0

/-- The share that an envelope leaves above 180 W a part and FIXED, in 0.125 W. -/
def roomAbove (g : FlueMgr) (env : Nat) : Nat := 8 * env - 8 * g.fixed - smoulder8 * (flueParts g).length

/-- The target of a part, in W: 180 W and its proportion of what lies above (R696). -/
def shedTarget (g : FlueMgr) (env h : Nat) : Nat :=
  let all := aboveSum g
  180 + (if all = 0 then 0 else (h - smoulder8) * min all (roomAbove g env) / (8 * all))

/-- The slope that brings a part from its level to a target within a time: mW/ms, 1 to 65,535. -/
def shedSlope (h target ms : Nat) : Nat := max 1 (min 65535 ((levelMw h - 1000 * target + ms - 1) / max 1 ms))

/-- Order sheds that bring the sum under an envelope within `ms`; each takes the next identifier (R689). -/
def orderSheds (s : State) (m : Nat) (env ms : Nat) : State :=
  let g := mgrOf s m
  if (flueParts g).foldl (fun n e => n + levelMw e.2.hNext) (1000 * g.fixed) ≤ 1000 * env then s
  else (flueParts g).foldl (fun s e =>
    let t := shedTarget g env e.2.hNext
    if e.2.hNext ≤ 8 * t then s
    else
      let g1 := mgrOf s m
      let g2 := { g1 with shedId := g1.shedId + 1 }
      flueSend (putMgr s m g2) m g2 2 e.1 g2.epoch [BitVec.ofNat 64 (g2.shedId.toNat + 2 ^ 32 * t + 2 ^ 48 * shedSlope e.2.hNext t ms)]) s

/-! ### The epoch (R690 to R694) -/

/-- The contract values that take effect at a boundary; whether ENVELOPE is raised. -/
def takeContract (g : FlueMgr) : FlueMgr × Bool :=
  let env := g.newEnv.getD g.envelope
  ({ g with slewS := g.newS.getD g.slewS, envelope := env, confEnv := g.newEnv.getD g.confEnv, fixed := g.newFixed.getD g.fixed
            newS := none, newEnv := none, newFixed := none }, decide (g.envelope < env))

/-- A part as its report shows it. -/
def takeReport (g : FlueMgr) (r : FlueReport) : FlueMgr :=
  let old := mget FluePart.reset g.parts r.slot
  { g with
    parts := mset FluePart.reset g.parts r.slot
      ⟨r.epoch.toNat, r.h.toNat, r.hNext.toNat, r.avg.toNat, r.hi.toNat, r.lo.toNat, r.spent.toNat, r.short.toNat, old.cords, old.prev, max 1 old.slew, false⟩
    starting := g.starting.filter (fun x => x != r.slot.val) }

/-- A part whose report is missing is taken at the ceiling it had (R694). -/
def missReport (p : FluePart) : FluePart :=
  { p with hNext := max p.hNext (min limit8 (p.hNext + 200 * p.prev)), missing := true }

/-- Does a part's draw lie within 5 W of its ceiling (R693)? -/
def nearCeiling (p : FluePart) : Bool := !p.missing && decide (p.h + 200 * p.spent ≤ p.hi + 40)

/-- The SLEW of each part (R693, R694): the sum is at most S. -/
def shareSlew (g : FlueMgr) (near : Nat → Bool) : FlueMgr :=
  let ps := flueParts g
  let kept := ps.foldl (fun n e => if e.2.missing then n + e.2.slew else n) 0
  let ones := ps.countP (fun e => !e.2.missing)
  let rest := 1000 * g.slewS - kept - ones
  let above := ps.foldl (fun n e => if e.2.missing || near e.1 then n else n + (e.2.hNext - smoulder8)) 0
  { g with parts := ps.map (fun e => (e.1,
      if e.2.missing then e.2
      else if near e.1 || above == 0 then { e.2 with slew := 1 }
      else { e.2 with slew := min 2500 (1 + rest * (e.2.hNext - smoulder8) / above) })) }

/-- Grant cords to a part if the balance stays at or above zero and the sum stays within ENVELOPE (R691, R692). (log entry 37, DEDUCED) -/
def grantCords (g : FlueMgr) (slot n : Nat) : FlueMgr :=
  if !(g.parts.any (fun e => e.1 == slot)) then g
  else
    let g1 := { g with budget := g.budget - cordCharge * n, parts := mmod FluePart.reset g.parts slot (fun p => { p with cords := p.cords + n }) }
    if (mget FluePart.reset g1.parts slot).cords ≤ 15 ∧ 0 ≤ g1.budget ∧ drawSum g1 ≤ 1000 * g.envelope then g1 else g

/-- What Flue reads of this part over I3C (R692, R697): a START that has latched credits its charge; a part in Cold is one to
start. -/
def readOwnStatus (s : Dev) (g : FlueMgr) : FlueMgr :=
  let me := s.lny.slot
  let g1 := if s.pwr.seq = 0 then { g with parts := merase me g.parts } else g
  if g1.starting.contains me && s.pwr.seq == 0 then
    { g1 with starting := g1.starting.filter (fun x => x != me), budget := if s.pwr.latched then min budgetCap (g1.budget + startCharge) else g1.budget }
  else g1

/-- R690 to R694: the reports come in; the active manager updates its balance, grants cords in the order in which its policy
wants them, shares S, and sends the EPOCH messages for the epoch after next. (log entry 38, DEDUCED) -/
def flueEpoch (s : State) (m : Nat) (reports : List FlueReport) (draw : Nat) (want : List (TileId × Fin 16)) : State :=
  let g0 := mgrOf s m
  let top := reports.foldl (fun (t : BitVec 32) r => if t < r.term then r.term else t) g0.term
  if g0.term < top then putMgr s m { g0 with active := false, seen := if g0.seen < top then top else g0.seen }
  else
    let tc := takeContract g0
    let g1 := readOwnStatus s.dev (reports.foldl takeReport tc.1)
    let g2 := { g1 with
      epoch := reports.foldl (fun n r => max n (r.epoch.toNat + 2)) (g1.epoch + 1)
      parts := g1.parts.map (fun e => if reports.any (fun r => r.slot.val == e.1) then e else (e.1, missReport e.2)) }
    if !g2.active then putMgr s m g2
    else
      let near (slot : Nat) : Bool := nearCeiling (mget FluePart.reset g2.parts slot)
      let shorts := reports.foldl (fun n r => n + levelMw r.short.toNat) 0
      let g3 := { g2 with
        budget := min (g2.budget + 1000 * (g2.slewS : Int)) budgetCap - shorts
        parts := g2.parts.map (fun e => (e.1, { e.2 with prev := e.2.cords, cords := 0 })) }
      let above := decide (g3.envelope < draw)
      let g4 := if above then g3 else want.foldl (fun g w => grantCords g w.1 w.2) g3
      let g5 := shareSlew g4 near
      let s1 := (flueParts g5).foldl (fun s e =>
        let kiln := ((reports.find? (fun r => r.slot.val == e.1)).map (·.kiln)).getD 0
        let stopOk := fld kiln 1 0 == 1 && bit kiln 2
        flueSend s m g5 1 e.1 g5.epoch (epochBody e.2.cords (2 * b2n stopOk + 4 * b2n (bit kiln 4) + 8 * b2n tc.2) e.2.slew)) (putMgr s m g5)
      if above then orderSheds s1 m g5.envelope 1000 else s1

/-- R692. -/
def execFlueEpoch (m : Fin 2) (reports : List FlueReport) (draw : BitVec 32) (want : List (TileId × Fin 16)) (s : State) :
    Host.Outcome State Fault Refusal := .next (flueEpoch s m reports draw.toNat want)

/-! ### Terms and failover (R683 to R686, R689) -/

/-- What a manager takes from a heartbeat of the other (R684, R685). -/
def hearHeartbeat (r g : FlueMgr) (now : Nat) : FlueMgr :=
  if g.term < r.term then { r with seen := r.seen }
  else { r with active := r.active && r.term == g.term
                seen := if r.seen < g.term then g.term else r.seen
                budget := g.budget, shedId := g.shedId, envelope := g.envelope, lastHb := now }

/-- R683, R684: the active manager sends a heartbeat; the other has heard it or not. -/
def execFlueHeartbeat (m : Fin 2) (now : BitVec 64) (heard : Bool) (s : State) : Host.Outcome State Fault Refusal :=
  let g := mgrOf s m
  .next (if !g.active then s
    else
      let s1 := heartbeat s m g
      if heard then putMgr s1 (1 - m.val) (hearHeartbeat (mgrOf s (1 - m.val)) g now.toNat) else s1)

/-- R683, R686, R689: 30 ms after the last heartbeat the standby takes the next term, sends a heartbeat and, from the reports it
holds, EPOCH messages with RESUME. -/
def execManagerFailover (m : Fin 2) (now : BitVec 64) (s : State) : Host.Outcome State Fault Refusal :=
  let g := mgrOf s m
  .next (if g.active || decide (now.toNat < g.lastHb + 30000000) then s
    else
      let t := (if g.seen < g.term then g.term else g.seen) + 1
      let near (slot : Nat) : Bool := nearCeiling (mget FluePart.reset g.parts slot)
      let g1 := shareSlew { g with active := true, term := t, seen := t, shedId := g.shedId + 65536, epoch := g.epoch + 1
                                   parts := g.parts.map (fun e => (e.1, { e.2 with prev := e.2.cords, cords := 0 })) } near
      (flueParts g1).foldl (fun s e => flueSend s m g1 1 e.1 g1.epoch (epochBody 0 4 e.2.slew)) (heartbeat (putMgr s m g1) m g1))

/-- R685. -/
def execHigherTermSeen (m : Fin 2) (term : BitVec 32) (s : State) : Host.Outcome State Fault Refusal :=
  let g := mgrOf s m
  .next (if g.term < term then putMgr s m { g with active := false, seen := if g.seen < term then term else g.seen } else s)

/-! ### Shelves, the facility, the contract (R680, R690, R696) -/

/-- The envelope after a shelf has failed. (log entry 39, DEDUCED) -/
def shelfEnvelope (g : FlueMgr) : FlueMgr :=
  let n := min 4 (g.shelves + 1)
  { g with shelves := n, envelope := if n = 1 then min g.envelope (min g.confEnv 310000) else if n = 2 then min g.envelope 199000 else g.envelope }

/-- The active manager among the two, if any. -/
def activeMgr (s : State) : Option Nat := if s.flue.a.active then some 0 else if s.flue.b.active then some 1 else none

/-- R680: a shelf fails: one lost caps ENVELOPE at 310 kW; two at 199 kW, with sheds that are met within 1 s. -/
def execShelfFailure (s : State) : Host.Outcome State Fault Refusal :=
  let s1 := { s with flue := ⟨shelfEnvelope s.flue.a, shelfEnvelope s.flue.b⟩ }
  .next (match activeMgr s1 with
    | some m => if (mgrOf s1 m).shelves = 2 then orderSheds s1 m (mgrOf s1 m).envelope 990 else s1
    | none => s1)

/-- A contract parameter in its range (R690): 0 S in kW/s, 1 ENVELOPE in W, 2 FIXED in W. -/
def newParam (g : FlueMgr) (param v : Nat) : FlueMgr :=
  match param with
  | 0 => if 5 ≤ v ∧ v ≤ 200 then { g with newS := some v } else g
  | 1 => if 50000 ≤ v ∧ v ≤ 310000 then { g with newEnv := some v } else g
  | _ => if v ≤ 40000 then { g with newFixed := some v } else g

/-- R696: the facility asks for a lower envelope within `ms`; one that is not lower is a contract value (R690). -/
def execEnvelopeRequest (watts ms : BitVec 32) (s : State) : Host.Outcome State Fault Refusal :=
  .next (match activeMgr s with
    | some m =>
      let g := mgrOf s m
      if g.envelope ≤ watts.toNat then putMgr s m (newParam g 1 watts.toNat)
      else orderSheds (putMgr s m { g with envelope := watts.toNat }) m watts.toNat ms.toNat
    | none => s)

/-- R690. -/
def execContractChange (param : Fin 3) (v : BitVec 32) (s : State) : Host.Outcome State Fault Refusal :=
  .next { s with flue := ⟨newParam s.flue.a param v.toNat, newParam s.flue.b param v.toNat⟩ }

/-! ### Starts (R697) -/

/-- The next slot to start: in ascending order, one that is neither known nor being started; this part not while it is latched. -/
def nextSlot (s : Dev) (g : FlueMgr) : Option Nat :=
  (List.range 256).find? (fun k =>
    !(g.parts.any (fun e => e.1 == k)) && !(g.starting.contains k) && !(k == s.lny.slot && s.pwr.latched))

/-- R692, R697: a START goes to the next slot when the balance covers its charge. -/
def execFlueStart (m : Fin 2) (s : State) : Host.Outcome State Fault Refusal :=
  let g := mgrOf s m
  .next (match nextSlot s.dev g with
    | some k =>
      if !g.active || decide (g.budget < startCharge) then s
      else
        let g1 := { g with budget := g.budget - startCharge, starting := g.starting ++ [k] }
        flueSend (putMgr s m g1) m g1 1 k g1.epoch (epochBody 0 1 0)
    | none => s)

end Sys2Proof.Machine
end

