-- ==== Sys2Proof/Machine/Bars.lean ====
section
/-! DEFINITION. What the host does through the BARs of a function (R472 to R481, R485, R486, R768, R769, R772), and the end
of a drawer's zeroing, which lets requests go on that waited for it (R363). -/

namespace Sys2Proof.Machine
open Sys2Proof

/-! ### Who is served (R474, R485) -/

/-- Does an entry of HOSTID match a requester? -/
def hostidMatch (w : Word) (req : Nat) : Bool :=
  if bit w 17 then fld w 15 8 == req / 256 else fld w 15 0 == req

/-- Is a requester served (R485)? -/
def hostidOk (s : Dev) (port req : Nat) : Bool :=
  let l := ([0, 1, 2, 3].map (fun k => mget 0 (hportOf s port).hostid k)).filter (fun w => bit w 16)
  l.isEmpty || l.any (fun w => hostidMatch w req)

/-- The size of a BAR; BAR4 has none on FK256-N (R474, R477). -/
def barSize (s : Dev) (port fn bar : Nat) : Nat :=
  match bar with
  | 0 => 2 ^ 26
  | 1 => 2 ^ 30
  | _ => if hasBar4 s then 2 ^ (30 + (fnOf s port fn).bar4lg) else 0

/-- Does a request lie in a BAR that answers: the link up, the function there, its memory space enabled? -/
def barLive (s : Dev) (port fn bar off n : Nat) : Bool :=
  (hportOf s port).dlUp && fnExists s port fn && (if fn = 0 then (fnOf s port 0).memEn else (hportOf s port).vfMem) &&
    decide (off + n ≤ barSize s port fn bar)

/-- The address of a request as a record holds it: the BAR and the offset. -/
def barAddr (bar off : Nat) : Nat := bar * 2 ^ 40 + off

/-- A request of a function is refused and recorded (R478, ID 0x2006). (log entry 36, DEDUCED) -/
def refuseBar (s : Dev) (port fn bar off : Nat) : Dev := hostRefused s (boundPart s port fn) port (barAddr bar off)

/-! ### BAR0 (R475, R768) -/

/-- What a BAR0 offset names. -/
inductive Win where
  /-- a register of the control space that the function reaches in its own window -/
  | reg (o : Nat)
  | msix (k : Nat)
  | pba (k : Nat)
  | dowel (tile idx : Nat)
  | tcb (tile off : Nat)
  | io (off : Nat)
  | mbx (off : Nat)
  /-- no register: reads zero, writes ignored (R764) -/
  | hole
  /-- outside the function's windows (R478) -/
  | bad

/-- The queue and ring registers of a function window (R768). -/
def fnWindow (s : Dev) (p off : Nat) : Win :=
  if off < 0x80000 then
    (match (queuesOf s p)[off / 0x800]? with
     | some q => if off % 0x800 < 0x48 then .reg (0x080000 + 0x100 * q + off % 0x800) else .hole
     | none => .hole)
  else if off < 0x80020 then .reg (0x0E1000 + 0x20 * p + (off - 0x80000))
  else .hole

/-- The window an aligned BAR0 offset lies in (R472, R473, R475). -/
def winOf (s : Dev) (port fn off : Nat) : Win :=
  let bound := boundPart s port fn
  if 0x90000 ≤ off ∧ off < 0x98000 then .msix (off - 0x90000)
  else if 0x98000 ≤ off ∧ off < 0x98100 then .pba (off - 0x98000)
  else if off < 0x100000 then (match bound with | some p => fnWindow s p off | none => .bad)
  else if off < 0x200000 then
    let n := (off - 0x100000) / 0x1000
    let d := off % 0x1000 / 8
    match bound with
    | some p => if fn = 0 then .dowel n d else if n < pTiles (partSt s p) then .dowel (tileOfRank (partSt s p) n) d else .bad
    | none => .bad
  else if fn ≠ 0 then .bad
  else if 0x1000000 ≤ off ∧ off < 0x2000000 then .tcb ((off - 0x1000000) / 0x10000) (off % 0x10000)
  else if 0x2000000 ≤ off ∧ off < 0x3000000 then .io (off - 0x2000000)
  else if 0x3000000 ≤ off ∧ off < 0x3100000 then .mbx (off - 0x3000000)
  else .bad

/-- A word of a function's MSI-X table (R769). -/
def msixWord (s : Dev) (port fn k : Nat) : Word := mget (msixReset k) (fnOf s port fn).msix k

/-- Write part of the MSI-X table; messages that were pending leave when their entry is unmasked. -/
def msixWrite (s : Dev) (port fn off : Nat) (four : Bool) (v : Word) : Dev :=
  let k := off / 8
  let w := mergeW (msixWord s port fn k) (atHalf four off v) (enMask four off 0)
  let w1 := if k % 2 = 1 then lowBits w 33 else w
  let f := fnOf s port fn
  let m := if w1 = msixReset k then merase k f.msix else minsert k w1 f.msix
  releaseMsix (modFn s port fn (fun f => { f with msix := m })) port fn

/-- The mailbox (R728): a write of the control port's PF. -/
def mbxWrite (s : Dev) (port : Fin 2) (off : Nat) (bs : List Byte) : Dev :=
  if port.val ≠ s.ctrlPort then hostRefused s none port (0x03000000 + off)
  else if off < 0x800 then
    (if s.mgmt.mbxBusy then s else modMgmt s (fun g => { g with mbxReq := mwrite 0 g.mbxReq off bs }))
  else if off = 0xFF0 then
    (if bit (BitVec.ofNat 64 (leNat bs)) 1 then modMgmt s (fun g => { g with mbxDone := false }) else s)
  else if off / 8 * 8 = 0xFF8 then
    (if bs.length = 4 then hostRefused s none port (0x03000000 + off)
     else if leNat bs % 2 = 1 then mbxGo s port else s)
  else s

/-- The mailbox: a read. -/
def mbxRead (s : Dev) (off n : Nat) : List Byte :=
  let g := s.mgmt
  if off < 0x800 then mbytes 0 g.mbxReq off n
  else if off / 8 * 8 = 0xFF0 then
    leBytes n (halfVal (n == 4) off (w64 (b2n g.mbxBusy + 2 * b2n g.mbxDone + 2 ^ 8 * g.mbxStatus)))
  else if 0x1000 ≤ off ∧ off < 0x1800 then mbytes 0 g.mbxRsp (off - 0x1000) n
  else leBytes n 0

/-- The bytes of an access of BAR0: 4 or 8, naturally aligned (R478). -/
def bar0Ok (off n : Nat) : Bool := (n == 4 || n == 8) && off % n == 0

/-- A write through BAR0. -/
def bar0Write (s : Dev) (port : Fin 2) (fn : Fin 128) (off : Nat) (bs : List Byte) : Dev :=
  let n := bs.length
  let four := n == 4
  let v := BitVec.ofNat 64 (leNat bs)
  if !(bar0Ok off n) then refuseBar s port fn 0 off
  else match winOf s port fn off with
  | .reg o =>
    if four && ioHasWo (o / 8 * 8) then refuseBar s port fn 0 off
    else if ioInReset s o then s
    else ioWrite s (.host port fn) (o / 8 * 8) (atHalf four off v) (enMask four off (ioCross (o / 8 * 8)))
  | .msix k => msixWrite s port fn k four v
  | .pba _ => s
  | .dowel t d => if four then refuseBar s port fn 0 off else dowelStore s port t d v
  | .tcb t o => regWriteTcb s (.host port fn) t o four v
  | .io o => regWriteIo s (.host port fn) o four v
  | .mbx o => mbxWrite s port o bs
  | .hole => s
  | .bad => refuseBar s port fn 0 off

/-- A read through BAR0: what it clears, what it returns. -/
def bar0Read (s : Dev) (port : Fin 2) (fn : Fin 128) (off n : Nat) : Dev × List Byte :=
  let four := n == 4
  if !(bar0Ok off n) then (refuseBar s port fn 0 off, ones n)
  else match winOf s port fn off with
  | .reg o => regReadIo s (.host port fn) o four
  | .msix k => (s, leBytes n (halfVal four k (msixWord s port fn (k / 8))))
  | .pba k => (s, leBytes n (halfVal four k (bits64 (k / 8) (mget false (fnOf s port fn).pba))))
  | .dowel t d => (s, leBytes n (halfVal four off (dowelRead s t d)))
  | .tcb t o => regReadTcb s (.host port fn) t o four
  | .io o => regReadIo s (.host port fn) o four
  | .mbx o => (s, mbxRead s o n)
  | .hole => (s, leBytes n 0)
  | .bad => (refuseBar s port fn 0 off, ones n)

/-! ### BAR2 (R476, R772) -/

/-- The logical tile that a BAR2 offset names, if it is there. -/
def bar2Tile (s : Dev) (port fn off : Nat) : Option Nat :=
  let n := off / 0x400000
  match boundPart s port fn with
  | some p =>
    let t := if fn = 0 then some n else if n < pTiles (partSt s p) then some (tileOfRank (partSt s p) n) else none
    t.filter (tileLive s)
  | none => none

/-- The bytes of a request that lie in populated scratchpad (R772). -/
def bar2Part (off n : Nat) : Nat := min n (0x300000 - off % 0x400000)

/-- Does a drawer that a request touches fail the check of the transfer port (R355)? -/
def bar2Private (x : Tile) (o n : Nat) : Bool := !(transferMay x o) || !(transferMay x (o + n - 1))
/-- The refusal counts at the target tile as a fault of the transfer port (R355, R372). -/
def bar2Fault (s : Dev) (t o n : Nat) : Dev :=
  modTile s t (fun x => drawerFault x 5 (if transferMay x o then (o + n - 1) / 0x80000 * 0x80000 else o))
/-- Does such a drawer wait for zeroing (R363)? -/
def bar2Busy (x : Tile) (o n : Nat) : Bool := drawerBusy x o || drawerBusy x (o + n - 1)

/-- A write through BAR2: bytes beyond the populated part are discarded with one notice; EP poisons every word touched. -/
def bar2Write (s : Dev) (port fn off : Nat) (bs : List Byte) (ep : Bool) : Dev :=
  let o := off % 0x400000
  let n := bar2Part off bs.length
  if bs = [] then s
  else match bar2Tile s port fn off with
  | none => refuseBar s port fn 1 off
  | some t =>
    let x := tileOf s t
    if n = 0 then refuseBar s port fn 1 off
    else if bar2Private x o n then refuseBar (bar2Fault s t o n) port fn 1 off
    else
      let s1 := if o % 8 ≠ 0 ∨ (o + n) % 8 ≠ 0 then spadTouch s t o else s
      let s2 := modTile s1 t (fun x => if ep then spadPutPoison x o (bs.take n) else spadPut x o (bs.take n))
      if n < bs.length then refuseBar s2 port fn 1 off else s2

/-- Does a request through BAR2 wait for the zeroing of a drawer (R363)? -/
def bar2Stalls (s : Dev) (port fn off n : Nat) : Bool :=
  match bar2Tile s port fn off with
  | some t => decide (0 < bar2Part off n) && bar2Busy (tileOf s t) (off % 0x400000) (bar2Part off n)
  | none => false

/-- A read through BAR2: its bytes and whether they are poisoned. -/
def bar2Read (s : Dev) (port fn off n : Nat) : Dev × List Byte × Bool :=
  let o := off % 0x400000
  let k := bar2Part off n
  if n = 0 then (s, [], false)
  else match bar2Tile s port fn off with
  | none => (refuseBar s port fn 1 off, ones n, false)
  | some t =>
    let x := tileOf s t
    if k = 0 then (refuseBar s port fn 1 off, ones n, false)
    else if bar2Private x o k then (refuseBar (bar2Fault s t o k) port fn 1 off, ones n, false)
    else
      let s1 := spadTouch s t o
      let y := tileOf s1 t
      let bad := spadPoisoned y o k
      let r := if bad then freeBytes s1 k else (s1, spadGet y o k)
      let s2 := if k < n then refuseBar r.1 port fn 1 off else r.1
      (s2, r.2 ++ ones (n - k), bad)

/-! ### BAR4 (R477) -/

/-- The base of the PF's BAR4 (R494). -/
def apBase (s : Dev) (port : Nat) : Nat :=
  let b := (hportOf s port).ap * 2 ^ 30
  if 192 * pcCap s < b then 0 else b

/-- The stacked-memory address of a BAR4 offset, where it is present. -/
def bar4Addr (s : Dev) (port fn off : Nat) : Option Nat :=
  let a := match boundPart s port fn with
    | some p => if fn = 0 then some (apBase s port + off) else grantAddr (grantsOf s p) off
    | none => none
  a.filter (fun a => (stackAt s a).isSome)

/-- The pieces of a request up to and from the next 2 MiB boundary, inside which memory is present as a whole. -/
def bar4Pieces (off n : Nat) : List (Nat × Nat) :=
  let k := min n (0x200000 - off % 0x200000)
  if k < n then [(off, k), (off + k, n - k)] else [(off, n)]

/-- A piece of a write through BAR4. -/
def bar4PutPiece (s : Dev) (part : Option Nat) (a : Nat) (bs : List Byte) (ep : Bool) : Dev :=
  let s1 := stackPut (stackTouch s false part none a bs.length) a bs
  if ep then stackMark s1 (wordsOf a bs.length) true else s1

/-- A write through BAR4: bytes with no memory behind them are discarded with one notice. -/
def bar4Write (s : Dev) (port fn off : Nat) (bs : List Byte) (ep : Bool) : Dev :=
  let ps := if bs = [] then [] else bar4Pieces off bs.length
  let part := boundPart s port fn
  let s1 := ps.foldl (fun s' p => match bar4Addr s port fn p.1 with
    | some a => bar4PutPiece s' part a ((bs.drop (p.1 - off)).take p.2) ep
    | none => s') s
  if ps.any (fun p => (bar4Addr s port fn p.1).isNone) then refuseBar s1 port fn 2 off else s1

/-- A read through BAR4. -/
def bar4Read (s : Dev) (port fn off n : Nat) : Dev × List Byte × Bool :=
  let ps := if n = 0 then [] else bar4Pieces off n
  let part := boundPart s port fn
  let r := ps.foldl (fun (r : Dev × List Byte × Bool) p => match bar4Addr s port fn p.1 with
    | some a =>
      let s1 := stackTouch r.1 true part none a p.2
      let bad := stackPoisoned s1 a p.2
      let d := if bad then freeBytes s1 p.2 else (s1, stackGet s1 a p.2)
      (d.1, r.2.1 ++ d.2, r.2.2 || bad)
    | none => (r.1, r.2.1 ++ ones p.2, r.2.2)) (s, [], false)
  if ps.any (fun p => (bar4Addr s port fn p.1).isNone) then (refuseBar r.1 port fn 2 off, r.2) else r

/-! ### Requests that wait (R363, R479, R480) -/

/-- Does a later request wait for an earlier write that waits: a write to a page of it, or a read of its BAR, of the same
requester and function (R479, R480)? -/
def barBehind (r e : BarReq) : Bool :=
  e.data.isSome && (e.port, e.fn, e.req, e.bar) == (r.port, r.fn, r.req, r.bar) &&
    (r.data.isNone || (decide (e.off / 4096 ≤ (r.off + r.n - 1) / 4096) && decide (r.off / 4096 ≤ (e.off + e.n - 1) / 4096)))

/-- Must a request wait? -/
def barWaits (s : Dev) (r : BarReq) : Bool := (r.bar == 1 && bar2Stalls s r.port r.fn r.off r.n) || s.barq.any (barBehind r)

/-- Perform a write through a BAR; one poisoned reaches no register (R486). -/
def barWrite (s : Dev) (port : Fin 2) (fn : Fin 128) (bar off : Nat) (data : List Byte) (ep : Bool) : Dev :=
  match bar with
  | 0 => if ep then refuseBar s port fn 0 off else bar0Write s port fn off data
  | 1 => bar2Write s port fn off data ep
  | _ => bar4Write s port fn off data ep

/-- Perform a read through a BAR: its bytes, and whether they are poisoned. -/
def barRead (s : Dev) (port : Fin 2) (fn : Fin 128) (bar off n : Nat) : Dev × List Byte × Bool :=
  match bar with
  | 0 => let r := bar0Read s port fn off n; (r.1, r.2, false)
  | 1 => bar2Read s port fn off n
  | _ => bar4Read s port fn off n

/-- A request that waits for nothing is performed; a read completes only while its link is up. -/
def barServe (s : Dev) (r : BarReq) : Dev :=
  let port : Fin 2 := Fin.ofNat 2 r.port
  let fn : Fin 128 := Fin.ofNat 128 r.fn
  match r.data with
  | some (bs, ep) => barWrite s port fn r.bar r.off bs ep
  | none =>
    if (hportOf s r.port).dlUp then
      let d := barRead s port fn r.bar r.off r.n
      send d.1 (.hostReply d.2.1 d.2.2)
    else s

/-- A request is performed, or joins those that wait. -/
def barTake (s : Dev) (r : BarReq) : Dev := if barWaits s r then { s with barq := s.barq ++ [r] } else barServe s r

/-- Those that waited are tried again in their order. -/
def barPump (s : Dev) : Dev := s.barq.foldl barTake { s with barq := [] }

/-! ### The commands -/

/-- A request from a requester that HOSTID does not list (R485, R752, ID 0x2007). -/
def refuseHostid (s : Dev) (port fn bar off : Nat) : Dev :=
  aer (raiseErr s none 0x2007 4 port none (barAddr bar off) 0) port fn 3 []

/-- R478, R479, R485, R486: a host write through a BAR. -/
def execHostBarWrite (port : Fin 2) (fn : Fin 128) (requester : BitVec 16) (bar : Fin 3) (off : BitVec 38) (data : List Byte) (ep : Bool) (sys : State) :
    Host.Outcome State Fault Refusal := onDev sys fun s =>
  let o := off.toNat
  nxp s (if !(barLive s port fn bar o data.length) then s
    else if !(hostidOk s port requester.toNat) then refuseHostid s port fn bar o
    else
      barTake (barPump (if ep then aer s port fn 1 [] else s)) ⟨port, fn, requester.toNat, bar, o, data.length, some (data, ep)⟩)

/-- R478, R480, R485, R486: a host read through a BAR. -/
def execHostBarRead (port : Fin 2) (fn : Fin 128) (requester : BitVec 16) (bar : Fin 3) (off : BitVec 38) (n : Fin 4097) (sys : State) :
    Host.Outcome State Fault Refusal := onDev sys fun s =>
  let o := off.toNat
  if !(barLive s port fn bar o n) then s
    else if !(hostidOk s port requester.toNat) then send (refuseHostid s port fn bar o) (.hostUr port)
    else barTake (barPump s) ⟨port, fn, requester.toNat, bar, o, n, none⟩

/-- R362, R363, R42: the zeroing of a drawer ends, and what waited for it goes on. -/
def execDrawerZeroingDone (t : TileId) (sys : State) : Host.Outcome State Fault Refusal := onDev sys fun s => barPump (drawerZeroed s t)

end Sys2Proof.Machine
end

