-- ==== Sys2Proof/Machine/CoreDecode.lean ====
section
/-! DEFINITION. What the words of a tile's instruction stream spell (R223, R225 to R228, R265, R298, R380, R391, R406):
the command that each word stands for. A core's command comes to the block already decoded (log entry 1); the functions
here say which command that is. A reserved opcode or function, and a field marked zero that is not, spell
`ILLEGAL_INSTRUCTION`; a field that no table names or marks zero is ignored (log entry 67, DEDUCED). -/

namespace Sys2Proof.Machine
open Sys2Proof

/-! ### Fields (R225, R226) -/

/-- A g or v register field of five bits that starts at a bit. -/
def regAt (w : BitVec 32) (lo : Nat) : RegNo := Fin.ofNat 32 (fld w (lo + 4) lo)
/-- A predicate or sv register field of four bits. -/
def predAt (w : BitVec 32) (lo : Nat) : PredNo := Fin.ofNat 16 (fld w (lo + 3) lo)
/-- The guard of a word (R184). -/
def guardAt (w : BitVec 32) : Guard := ⟨bit w 31, predAt w 27⟩
/-- The major opcode of a word. -/
def majorAt (w : BitVec 32) : Nat := fld w 26 21
/-- Does a word begin an instruction of 64 bits (R227)? -/
def longAt (w : BitVec 32) : Bool := decide (0x3E ≤ majorAt w)

/-- A word that spells no instruction (R223). -/
def illegalAt (t : TileId) (w : BitVec 32) : Instr := .illegalInstruction t (guardAt w) (longAt w)

/-- The instruction, if the fields that must be zero are. -/
def whenZero (t : TileId) (w : BitVec 32) (z : Nat) (i : Instr) : Instr := if z = 0 then i else illegalAt t w

/-! ### The scalar majors (R226 to R244) -/

/-- MD (R232): RD is zero. -/
def decodeMd (t : TileId) (w : BitVec 32) : Instr :=
  let g := guardAt w
  let ra := regAt w 11
  let rb := regAt w 6
  whenZero t w (fld w 20 16) (match fld w 5 0 with
    | 0 => .mul t g ra rb
    | 1 => .mulh t g ra rb
    | 2 => .div t g ra rb
    | 3 => .divu t g ra rb
    | 4 => .divW t g ra rb
    | 5 => .divuW t g ra rb
    | _ => illegalAt t w)

/-- MOVE (R241): bits [9:3] are zero, and CIDX too where no control register is named. -/
def decodeMove (t : TileId) (w : BitVec 32) : Instr :=
  let g := guardAt w
  let r := regAt w 16
  let idx : Fin 64 := Fin.ofNat 64 (fld w 15 10)
  whenZero t w (fld w 9 3) (match fld w 2 0 with
    | 0 => .mfc t g r idx
    | 1 => .mtc t g idx r
    | 2 => whenZero t w idx (.mfpr t g r)
    | 3 => whenZero t w idx (.mtpr t g r)
    | _ => illegalAt t w)

/-- SYSTEM (R240): bits [20:5] are zero. -/
def decodeSystem (t : TileId) (w : BitVec 32) : Instr :=
  let g := guardAt w
  whenZero t w (fld w 20 5) (match fld w 4 0 with
    | 0 => .nop t g
    | 1 => .sys t g
    | 2 => .brk t g
    | 3 => .eret t g
    | 4 => .fence t g
    | 5 => .isync t g
    | _ => illegalAt t w)

/-- FP (R243): RB is zero in the unary forms. -/
def decodeFp (t : TileId) (w : BitVec 32) : Instr :=
  let g := guardAt w
  let p := bit w 0
  let rd := regAt w 16
  let ra := regAt w 11
  let rb := regAt w 6
  let unary (i : Instr) : Instr := whenZero t w rb i
  match fld w 5 1 with
  | 0 => .fadd t g p rd ra rb
  | 1 => .fsub t g p rd ra rb
  | 2 => .fmul t g p rd ra rb
  | 3 => .fdiv t g p rd ra rb
  | 4 => unary (.fsqrt t g p rd ra)
  | 5 => .fmin t g p rd ra rb
  | 6 => .fmax t g p rd ra rb
  | 7 => unary (.fabs t g p rd ra)
  | 8 => unary (.fneg t g p rd ra)
  | 9 => unary (.fcvt t g p rd ra)
  | 10 => unary (.fcvtL t g p rd ra)
  | 11 => unary (.fcvtFL t g p rd ra)
  | 12 => unary (.fcvtLu t g p rd ra)
  | 13 => unary (.fcvtFLu t g p rd ra)
  | 14 => unary (.fclass t g p rd ra)
  | _ => illegalAt t w

/-- LONG (R227, R233): bits [4:0] are zero, and the second word is the immediate. -/
def decodeLong (t : TileId) (w imm : BitVec 32) : Instr :=
  let g := guardAt w
  let rd := regAt w 16
  let ra := regAt w 11
  let lop := fld w 10 5
  whenZero t w (fld w 4 0)
    (if lop = 0 then .li t g rd imm
     else if lop = 1 then .lih t g rd imm
     else if lop ≤ 5 then .longAlu t g (Fin.ofNat 4 (lop - 2)) rd ra imm
     else if 8 ≤ lop ∧ lop ≤ 14 then .longLoad t g (Fin.ofNat 7 (lop - 8)) rd ra imm
     else if 16 ≤ lop ∧ lop ≤ 19 then .longStore t g (Fin.ofNat 4 (lop - 16)) rd ra imm
     else illegalAt t w)

/-- The majors of the scalar core, 0x01 to 0x1E (R228). -/
def decodeScalar (t : TileId) (w : BitVec 32) : Instr :=
  let g := guardAt w
  let rd := regAt w 16
  let ra := regAt w 11
  let rb := regAt w 6
  let imm : BitVec 11 := BitVec.ofNat 11 (fld w 10 0)
  let pd := predAt w 17
  let ca := regAt w 12
  let op := majorAt w
  match op with
  | 0x01 => .alu t g rd ra rb (Fin.ofNat 64 (fld w 5 0))
  | 0x02 => .addi t g rd ra imm
  | 0x03 => .andi t g rd ra imm
  | 0x04 => .ori t g rd ra imm
  | 0x05 => .xori t g rd ra imm
  | 0x06 => whenZero t w (fld w 7 6) (.shifti t g rd ra (Fin.ofNat 4 (fld w 10 9)) (bit w 8) (Fin.ofNat 64 (fld w 5 0)))
  | 0x07 => decodeMd t w
  | 0x08 => whenZero t w (fld w 2 0) (.cmp t g pd ca (regAt w 7) (Fin.ofNat 16 (fld w 6 3)))
  | 0x09 => .cmpi t g pd ca (Fin.ofNat 16 (fld w 11 8)) (BitVec.ofNat 8 (fld w 7 0))
  | 0x0A => whenZero t w (fld w 5 0) (.plogic t g pd (predAt w 13) (predAt w 9) (Fin.ofNat 8 (fld w 8 6)))
  | 0x0B => decodeMove t w
  | 0x0C => .br t g (BitVec.ofNat 21 (fld w 20 0))
  | 0x0D => .call t g (BitVec.ofNat 21 (fld w 20 0))
  | 0x0E => whenZero t w (fld w 10 0) (.jump t g rd ra)
  | 0x0F => decodeSystem t w
  | 0x1C => decodeFp t w
  | 0x1D => .fma t g (bit w 0) rd ra rb (regAt w 1)
  | 0x1E => whenZero t w (fld w 1 0) (.fcmp t g (bit w 2) pd ca (regAt w 7) (Fin.ofNat 16 (fld w 6 3)))
  | _ =>
    if 0x10 ≤ op ∧ op ≤ 0x16 then .load t g (Fin.ofNat 7 (op - 0x10)) rd ra imm
    else if 0x18 ≤ op ∧ op ≤ 0x1B then .store t g (Fin.ofNat 4 (op - 0x18)) rd ra imm
    else illegalAt t w

/-! ### Short vectors (R226, R245 to R253) -/

/-- The majors 0x20 to 0x25. -/
def decodeSv (t : TileId) (w : BitVec 32) : Instr :=
  let g := guardAt w
  let full := bit w 8
  let et : Fin 8 := Fin.ofNat 8 (fld w 7 5)
  let fn : Fin 32 := Fin.ofNat 32 (fld w 4 0)
  let vd := predAt w 17
  let va := predAt w 13
  let vb := predAt w 9
  match majorAt w with
  | 0x20 => .svInt t g full et fn vd va vb
  | 0x21 => .svFp t g full et fn vd va vb
  | 0x22 =>
    (match fld w 4 0 with
     | 0 => .vperm t g full et vd va vb
     | 1 => .vzipl t g full et vd va vb
     | 2 => .vziph t g full et vd va vb
     | _ => illegalAt t w)
  | 0x23 =>
    whenZero t w (fld w 3 0)
      (if bit w 4 then .vsada t g full (bit w 7) (Fin.ofNat 4 (fld w 6 5)) vd va vb
       else .vsad t g full (bit w 7) (Fin.ofNat 4 (fld w 6 5)) vd va vb)
  | 0x24 =>
    if bit w 11 then .svst t g (bit w 10) vd (regAt w 12) (BitVec.ofNat 10 (fld w 9 0))
    else .svld t g (bit w 10) vd (regAt w 12) (BitVec.ofNat 10 (fld w 9 0))
  | 0x25 =>
    let e : Fin 8 := Fin.ofNat 8 (fld w 11 9)
    let idx : Fin 64 := Fin.ofNat 64 (fld w 7 2)
    (match fld w 1 0 with
     | 0 => .svVbcast t g full e vd (regAt w 12) idx
     | 1 => .vins t g full e vd (regAt w 12) idx
     | 2 => .vext t g full e (regAt w 12) vd idx
     | _ => .vrsum t g full e (regAt w 12) vd idx)
  | _ => illegalAt t w

/-! ### The long-vector unit and the spindles (R259, R265, R266, R283) -/

/-- The memory functions of major 0x2C: `vlm` and `vsm` have VB and VM zero. -/
def decodeLvMem (t : TileId) (w : BitVec 32) : Instr :=
  let g := guardAt w
  let vd := regAt w 16
  let ra := regAt w 11
  let rb := regAt w 6
  let vm : Fin 8 := Fin.ofNat 8 (fld w 5 3)
  match fld w 2 0 with
  | 0 => .vld t g vd ra vm
  | 1 => .vlds t g vd ra rb vm
  | 2 => .vldx t g vd ra rb vm
  | 3 => .vst t g vd ra vm
  | 4 => .vsts t g vd ra rb vm
  | 5 => .vstx t g vd ra rb vm
  | 6 => whenZero t w (fld w 10 3) (.vlm t g vd ra)
  | _ => whenZero t w (fld w 10 3) (.vsm t g vd ra)

/-- The moves of major 0x2D. -/
def decodeLvMove (t : TileId) (w : BitVec 32) : Instr :=
  let g := guardAt w
  let vd := regAt w 16
  let va := regAt w 11
  let vm : Fin 8 := Fin.ofNat 8 (fld w 5 3)
  match fld w 2 0 with
  | 0 => .lvVbcast t g vd va vm
  | 1 => .vmv t g vd va vm
  | 2 => whenZero t w vm (.vmfs t g vd va)
  | 3 => whenZero t w vm (.vmsf t g vd va)
  | 4 => .vfirst t g vd va vm
  | 5 => .vpopc t g vd va vm
  | 6 => whenZero t w vm (.vcompress t g vd va (regAt w 6))
  | _ => .vid t g vd vm

/-- The row primitives and transcendentals of major 0x2E. -/
def decodeLvRow (t : TileId) (w : BitVec 32) : Instr :=
  let g := guardAt w
  let vd := regAt w 16
  let va := regAt w 11
  let vm : Fin 8 := Fin.ofNat 8 (fld w 5 3)
  match fld w 2 0 with
  | 0 => .vexp t g vd va vm
  | 1 => .vlog t g vd va vm
  | 2 => .vrcp t g vd va vm
  | 3 => .vrsqrt t g vd va vm
  | 4 => .vtanh t g vd va vm
  | 5 => .vmaxr t g vd va vm
  | 6 => .vsumr t g vd va vm
  | _ => .vsoftmax t g vd va vm

/-- The control and mask functions of major 0x2F. -/
def decodeLvCtl (t : TileId) (w : BitVec 32) : Instr :=
  let g := guardAt w
  let vd := regAt w 16
  let va := regAt w 11
  let vb := regAt w 6
  let vm := fld w 5 3
  match fld w 2 0 with
  | 0 => whenZero t w (fld w 10 9) (.setvl t g vd va (Fin.ofNat 4 (fld w 7 6)) (bit w 8))
  | 1 => .vsync t g
  | 2 => whenZero t w vm (.vmand t g vd va vb)
  | 3 => whenZero t w vm (.vmor t g vd va vb)
  | 4 => whenZero t w vm (.vmxor t g vd va vb)
  | 5 => whenZero t w vm (.vmandn t g vd va vb)
  | _ => illegalAt t w

/-- The majors 0x28 to 0x2F. -/
def decodeLv (t : TileId) (w : BitVec 32) : Instr :=
  let g := guardAt w
  let vd := regAt w 16
  let va := regAt w 11
  let vb := regAt w 6
  let vm : Fin 8 := Fin.ofNat 8 (fld w 5 3)
  let fn : Fin 8 := Fin.ofNat 8 (fld w 2 0)
  match majorAt w with
  | 0x28 => .lvInteger t g fn vd va vb vm
  | 0x29 =>
    if fn = 7 then
      whenZero t w (fld w 10 10)
        (if bit w 9 then .vcvtI t g vd va (Fin.ofNat 8 (fld w 8 6)) vm else .vcvt t g vd va (Fin.ofNat 8 (fld w 8 6)) vm)
    else .lvLogicShift t g (Fin.ofNat 7 fn) vd va vb vm
  | 0x2A => .lvFloat t g fn vd va vb vm
  | 0x2B => .lvCompare t g fn vd va vb vm
  | 0x2C => decodeLvMem t w
  | 0x2D => decodeLvMove t w
  | 0x2E => decodeLvRow t w
  | 0x2F => decodeLvCtl t w
  | _ => illegalAt t w

/-- Spindle control, major 0x38 of the scalar stream (R283). -/
def decodeSpindle (t : TileId) (w : BitVec 32) : Instr :=
  let g := guardAt w
  match fld w 5 0 with
  | 0 => .spload t g (regAt w 11) (regAt w 6)
  | 1 => .spenter t g (regAt w 11)
  | 2 => .spresume t g
  | 3 => .spexit t g (regAt w 16)
  | 4 => .spstop t g
  | _ => illegalAt t w

/-! ### The matrix engine, the transfer engines, the dowels and the clamp (R298, R299, R380, R391, R406) -/

/-- The majors 0x30 to 0x33 (R298, R299). -/
def decodeMe (t : TileId) (w : BitVec 32) : Instr :=
  let g := guardAt w
  let ra := regAt w 16
  let rb := regAt w 11
  let rc := regAt w 6
  let acc : Fin 4 := Fin.ofNat 4 (fld w 5 4)
  let dw := bit w 3
  match majorAt w with
  | 0x30 => whenZero t w (fld w 2 0) (.mma t g ra rb rc acc dw)
  | 0x31 => whenZero t w (fld w 2 0 + rb.val) (.mstore t g ra rc acc dw)
  | 0x32 => whenZero t w (fld w 2 0 + rb.val + acc.val) (.mscale t g ra rc dw)
  | 0x33 =>
    whenZero t w (fld w 20 6) (match fld w 2 0 with
      | 0 => .mzero t g acc dw
      | 1 => .mzeroP t g acc dw
      | 2 => whenZero t w (fld w 5 3) (.msync t g)
      | _ => illegalAt t w)
  | _ => illegalAt t w

/-- Major 0x34 (R406): RD is zero but for `tstat`. -/
def decodeTe (t : TileId) (w : BitVec 32) : Instr :=
  let g := guardAt w
  let rd := regAt w 16
  let ra := regAt w 11
  let rb := regAt w 6
  match fld w 5 0 with
  | 0 => whenZero t w rd (.tsub t g ra rb)
  | 1 => .tstat t g rd rb
  | 2 => whenZero t w rd (.tsync t g rb)
  | 3 => whenZero t w rd (.tclear t g ra rb)
  | 4 => whenZero t w rd (.tstop t g rb)
  | 5 => whenZero t w rd (.tgo t g rb)
  | 6 => whenZero t w rd (.tsave t g ra rb)
  | 7 => whenZero t w rd (.trest t g ra rb)
  | _ => illegalAt t w

/-- Major 0x36 (R380): bits [5:3] are zero, and so are the destination and RB where the instruction has none. -/
def decodeDowel (t : TileId) (w : BitVec 32) : Instr :=
  let g := guardAt w
  let d := fld w 20 16
  let pd := predAt w 16
  let ra := regAt w 11
  let rb := regAt w 6
  whenZero t w (fld w 5 3) (match fld w 2 0 with
    | 0 => whenZero t w d (.darrive t g ra rb)
    | 1 => whenZero t w d (.dset t g ra rb)
    | 2 => whenZero t w (d + rb.val) (.dreset t g ra)
    | 3 => whenZero t w (d / 16) (.dwait t g pd ra rb)
    | 4 => whenZero t w (d / 16) (.dtest t g pd ra rb)
    | 5 => whenZero t w rb (.dread t g (regAt w 16) ra)
    | _ => illegalAt t w)

/-- Major 0x37 (R391): as R380 with RB zero. -/
def decodeClamp (t : TileId) (w : BitVec 32) : Instr :=
  let g := guardAt w
  let d := fld w 20 16
  let pd := predAt w 16
  let ra := regAt w 11
  whenZero t w (fld w 10 3) (match fld w 2 0 with
    | 0 => whenZero t w d (.carrive t g ra)
    | 1 => whenZero t w (d / 16) (.cwait t g pd ra)
    | 2 => whenZero t w (d / 16) (.ctest t g pd ra)
    | 3 => whenZero t w (d / 16) (.cbar t g pd ra)
    | _ => illegalAt t w)

/-! ### The stream (R225, R228) -/

/-- The command that a word, and the word after it, spell in tile `t`'s stream (R228). Majors 0x00, 0x17, 0x1F, 0x26,
0x27, 0x35, 0x39 to 0x3D and 0x3F spell none. -/
def coreDecode (t : TileId) (w w2 : BitVec 32) : Instr :=
  let op := majorAt w
  if op < 0x20 then decodeScalar t w
  else if op < 0x28 then decodeSv t w
  else if op < 0x30 then decodeLv t w
  else if op < 0x34 then decodeMe t w
  else match op with
  | 0x34 => decodeTe t w
  | 0x36 => decodeDowel t w
  | 0x37 => decodeClamp t w
  | 0x38 => decodeSpindle t w
  | 0x3E => decodeLong t w w2
  | _ => illegalAt t w

/-- The word a core decodes at an address: the prefetch queue's where it holds the fetch word, else the store's (R182,
R201). -/
def fetchedWord (x : Tile) (a : Nat) : BitVec 32 :=
  match x.core.pq.find? (fun e => e.1 == a / 8 * 8) with
  | some e => BitVec.ofNat 32 (e.2.1.toNat / 2 ^ (8 * (a % 8)))
  | none => BitVec.ofNat 32 (leNat (mbytes 0 x.istore a 4))

/-- The instruction a core issues next, as its instruction store spells it at its PC. -/
def spelledAt (s : Dev) (t : TileId) : Instr :=
  let x := tileOf s t
  let pc := x.core.pc.toNat
  coreDecode t (fetchedWord x pc) (fetchedWord x (pc + 4))

end Sys2Proof.Machine
end

