-- ==== Sys2Proof/Machine/Dispatch.lean ====
section
/-! DEFINITION. The one place where a command meets its meaning: one arm per constructor of Instr. -/

namespace Sys2Proof.Machine

def exec (i : Instr) (s : State) : Host.Outcome State Fault Refusal :=
  match i with
  | .registerWrite agent tcb off four v => Sys2Proof.Machine.execRegisterWrite agent tcb off four v s
  | .rcRead agent tcb off four => Sys2Proof.Machine.execRcRead agent tcb off four s
  | .registerAccessInReset agent tcb off four wr => Sys2Proof.Machine.execRegisterAccessInReset agent tcb off four wr s
  | .tileFailure phys => Sys2Proof.Machine.execTileFailure phys s
  | .spareSelfTestDone col pass => Sys2Proof.Machine.execSpareSelfTestDone col pass s
  | .fieldEntryCommit => Sys2Proof.Machine.execFieldEntryCommit s
  | .meshLinkOut unit axis bridge => Sys2Proof.Machine.execMeshLinkOut unit axis bridge s
  | .flitReplay phys => Sys2Proof.Machine.execFlitReplay phys s
  | .routerFailure phys => Sys2Proof.Machine.execRouterFailure phys s
  | .pllLockLost pll => Sys2Proof.Machine.execPllLockLost pll s
  | .dvfsStep leaf => Sys2Proof.Machine.execDvfsStep leaf s
  | .dvfsStepDone leaf => Sys2Proof.Machine.execDvfsStepDone leaf s
  | .fastLoopTick p vin iin => Sys2Proof.Machine.execFastLoopTick p vin iin s
  | .epochBoundary => Sys2Proof.Machine.execEpochBoundary s
  | .epochMessage term epoch cords slew start stopOk resume shedClear => Sys2Proof.Machine.execEpochMessage term epoch cords slew start stopOk resume shedClear s
  | .slowLoop => Sys2Proof.Machine.execSlowLoop s
  | .silentEntry => Sys2Proof.Machine.execSilentEntry s
  | .shedOrder term ident target slope => Sys2Proof.Machine.execShedOrder term ident target slope s
  | .droopGuard => Sys2Proof.Machine.execDroopGuard s
  | .droopGuardRelease => Sys2Proof.Machine.execDroopGuardRelease s
  | .kindlingQuantum t engine => Sys2Proof.Machine.execKindlingQuantum t engine s
  | .kindlingQuantumEnd t engine sig => Sys2Proof.Machine.execKindlingQuantumEnd t engine sig s
  | .bankSmoulder slope => Sys2Proof.Machine.execBankSmoulder slope s
  | .bankCold slope => Sys2Proof.Machine.execBankCold slope s
  | .bankCancel => Sys2Proof.Machine.execBankCancel s
  | .bankColdDrained => Sys2Proof.Machine.execBankColdDrained s
  | .thermalCap leaf temp => Sys2Proof.Machine.execThermalCap leaf temp s
  | .thermalTrip => Sys2Proof.Machine.execThermalTrip s
  | .inputExcursionStart vin => Sys2Proof.Machine.execInputExcursionStart vin s
  | .inputExcursionEnd vin => Sys2Proof.Machine.execInputExcursionEnd vin s
  | .inputFault high vin => Sys2Proof.Machine.execInputFault high vin s
  | .inputDebounceDone => Sys2Proof.Machine.execInputDebounceDone s
  | .inrushNodeUp => Sys2Proof.Machine.execInrushNodeUp s
  | .ibGood => Sys2Proof.Machine.execIbGood s
  | .inrushWindowFault => Sys2Proof.Machine.execInrushWindowFault s
  | .vmgmtGood => Sys2Proof.Machine.execVmgmtGood s
  | .railGood rail reading => Sys2Proof.Machine.execRailGood rail reading s
  | .nextRailEnable => Sys2Proof.Machine.execNextRailEnable s
  | .railDown rail => Sys2Proof.Machine.execRailDown rail s
  | .dischargeWindowEnd rail ilim mv da => Sys2Proof.Machine.execDischargeWindowEnd rail ilim mv da s
  | .pllLockDone => Sys2Proof.Machine.execPllLockDone s
  | .qclamp stack mv da => Sys2Proof.Machine.execQclamp stack mv da s
  | .softStartFault rail kind mv da => Sys2Proof.Machine.execSoftStartFault rail kind mv da s
  | .retryBackoffEnd => Sys2Proof.Machine.execRetryBackoffEnd s
  | .pwrClearLatch => Sys2Proof.Machine.execPwrClearLatch s
  | .inputReturn back => Sys2Proof.Machine.execInputReturn back s
  | .offTimeEnd => Sys2Proof.Machine.execOffTimeEnd s
  | .railFault rail mv da => Sys2Proof.Machine.execRailFault rail mv da s
  | .mgmtSupplyLost => Sys2Proof.Machine.execMgmtSupplyLost s
  | .pwrEnLow => Sys2Proof.Machine.execPwrEnLow s
  | .funcPowerUp f => Sys2Proof.Machine.execFuncPowerUp f s
  | .funcPowerDown f => Sys2Proof.Machine.execFuncPowerDown f s
  | .funcTransitionDone f fail => Sys2Proof.Machine.execFuncTransitionDone f fail s
  | .alwaysOnLogCommit => Sys2Proof.Machine.execAlwaysOnLogCommit s
  | .prefetchFetch t ecc => Sys2Proof.Machine.execPrefetchFetch t ecc s
  | .alu t gu rd ra rb fn => Sys2Proof.Machine.execAlu t gu rd ra rb fn s
  | .addi t gu rd ra imm => Sys2Proof.Machine.execAddi t gu rd ra imm s
  | .andi t gu rd ra imm => Sys2Proof.Machine.execAndi t gu rd ra imm s
  | .ori t gu rd ra imm => Sys2Proof.Machine.execOri t gu rd ra imm s
  | .xori t gu rd ra imm => Sys2Proof.Machine.execXori t gu rd ra imm s
  | .shifti t gu rd ra kind w shamt => Sys2Proof.Machine.execShifti t gu rd ra kind w shamt s
  | .mul t gu ra rb => Sys2Proof.Machine.execMul t gu ra rb s
  | .mulh t gu ra rb => Sys2Proof.Machine.execMulh t gu ra rb s
  | .div t gu ra rb => Sys2Proof.Machine.execDiv t gu ra rb s
  | .divu t gu ra rb => Sys2Proof.Machine.execDivu t gu ra rb s
  | .divW t gu ra rb => Sys2Proof.Machine.execDivW t gu ra rb s
  | .divuW t gu ra rb => Sys2Proof.Machine.execDivuW t gu ra rb s
  | .productLands t => Sys2Proof.Machine.execProductLands t s
  | .li t gu rd imm => Sys2Proof.Machine.execLi t gu rd imm s
  | .lih t gu rd imm => Sys2Proof.Machine.execLih t gu rd imm s
  | .longAlu t gu op rd ra imm => Sys2Proof.Machine.execLongAlu t gu op rd ra imm s
  | .longLoad t gu op rd ra imm => Sys2Proof.Machine.execLongLoad t gu op rd ra imm s
  | .longStore t gu op rs ra imm => Sys2Proof.Machine.execLongStore t gu op rs ra imm s
  | .cmp t gu pd ra rb cc => Sys2Proof.Machine.execCmp t gu pd ra rb cc s
  | .cmpi t gu pd ra cc imm => Sys2Proof.Machine.execCmpi t gu pd ra cc imm s
  | .plogic t gu pd pa pb fn => Sys2Proof.Machine.execPlogic t gu pd pa pb fn s
  | .load t gu op rd ra imm => Sys2Proof.Machine.execLoad t gu op rd ra imm s
  | .store t gu op rs ra imm => Sys2Proof.Machine.execStore t gu op rs ra imm s
  | .loadDataReturn t ext => Sys2Proof.Machine.execLoadDataReturn t ext s
  | .loadLands t => Sys2Proof.Machine.execLoadLands t s
  | .storeBufferDrain t => Sys2Proof.Machine.execStoreBufferDrain t s
  | .br t gu disp => Sys2Proof.Machine.execBr t gu disp s
  | .call t gu disp => Sys2Proof.Machine.execCall t gu disp s
  | .jump t gu rd ra => Sys2Proof.Machine.execJump t gu rd ra s
  | .nop t gu => Sys2Proof.Machine.execNop t gu s
  | .sys t gu => Sys2Proof.Machine.execSys t gu s
  | .brk t gu => Sys2Proof.Machine.execBrk t gu s
  | .eret t gu => Sys2Proof.Machine.execEret t gu s
  | .fence t gu => Sys2Proof.Machine.execFence t gu s
  | .isync t gu => Sys2Proof.Machine.execIsync t gu s
  | .mfc t gu rd idx => Sys2Proof.Machine.execMfc t gu rd idx s
  | .mtc t gu idx ra => Sys2Proof.Machine.execMtc t gu idx ra s
  | .mfpr t gu rd => Sys2Proof.Machine.execMfpr t gu rd s
  | .mtpr t gu ra => Sys2Proof.Machine.execMtpr t gu ra s
  | .fadd t gu single rd ra rb => Sys2Proof.Machine.execFadd t gu single rd ra rb s
  | .fsub t gu single rd ra rb => Sys2Proof.Machine.execFsub t gu single rd ra rb s
  | .fmul t gu single rd ra rb => Sys2Proof.Machine.execFmul t gu single rd ra rb s
  | .fdiv t gu single rd ra rb => Sys2Proof.Machine.execFdiv t gu single rd ra rb s
  | .fsqrt t gu single rd ra => Sys2Proof.Machine.execFsqrt t gu single rd ra s
  | .fmin t gu single rd ra rb => Sys2Proof.Machine.execFmin t gu single rd ra rb s
  | .fmax t gu single rd ra rb => Sys2Proof.Machine.execFmax t gu single rd ra rb s
  | .fabs t gu single rd ra => Sys2Proof.Machine.execFabs t gu single rd ra s
  | .fneg t gu single rd ra => Sys2Proof.Machine.execFneg t gu single rd ra s
  | .fcvt t gu single rd ra => Sys2Proof.Machine.execFcvt t gu single rd ra s
  | .fcvtL t gu single rd ra => Sys2Proof.Machine.execFcvtL t gu single rd ra s
  | .fcvtFL t gu single rd ra => Sys2Proof.Machine.execFcvtFL t gu single rd ra s
  | .fcvtLu t gu single rd ra => Sys2Proof.Machine.execFcvtLu t gu single rd ra s
  | .fcvtFLu t gu single rd ra => Sys2Proof.Machine.execFcvtFLu t gu single rd ra s
  | .fclass t gu single rd ra => Sys2Proof.Machine.execFclass t gu single rd ra s
  | .fma t gu single rd ra rb rc => Sys2Proof.Machine.execFma t gu single rd ra rb rc s
  | .fcmp t gu single pd ra rb cc => Sys2Proof.Machine.execFcmp t gu single pd ra rb cc s
  | .interruptEntry t => Sys2Proof.Machine.execInterruptEntry t s
  | .timerInterruptPending t => Sys2Proof.Machine.execTimerInterruptPending t s
  | .quiesceInterrupt t => Sys2Proof.Machine.execQuiesceInterrupt t s
  | .tcbDoorbell t msg => Sys2Proof.Machine.execTcbDoorbell t msg s
  | .coreHalt t => Sys2Proof.Machine.execCoreHalt t s
  | .coreResume t => Sys2Proof.Machine.execCoreResume t s
  | .coreSreset t => Sys2Proof.Machine.execCoreSreset t s
  | .cregDataWrite t v => Sys2Proof.Machine.execCregDataWrite t v s
  | .istoreWinWrite t off size v => Sys2Proof.Machine.execIstoreWinWrite t off size v s
  | .svld t gu full v ra imm => Sys2Proof.Machine.execSvld t gu full v ra imm s
  | .svst t gu full v ra imm => Sys2Proof.Machine.execSvst t gu full v ra imm s
  | .svInt t gu full et fn vd va vb => Sys2Proof.Machine.execSvInt t gu full et fn vd va vb s
  | .svFp t gu full et fn vd va vb => Sys2Proof.Machine.execSvFp t gu full et fn vd va vb s
  | .vperm t gu full et vd va vb => Sys2Proof.Machine.execVperm t gu full et vd va vb s
  | .vzipl t gu full et vd va vb => Sys2Proof.Machine.execVzipl t gu full et vd va vb s
  | .vziph t gu full et vd va vb => Sys2Proof.Machine.execVziph t gu full et vd va vb s
  | .svVbcast t gu full et vd ra idx => Sys2Proof.Machine.execSvVbcast t gu full et vd ra idx s
  | .vins t gu full et vd ra idx => Sys2Proof.Machine.execVins t gu full et vd ra idx s
  | .vext t gu full et rd va idx => Sys2Proof.Machine.execVext t gu full et rd va idx s
  | .vrsum t gu full et rd va idx => Sys2Proof.Machine.execVrsum t gu full et rd va idx s
  | .vsad t gu full lw ty vd va vb => Sys2Proof.Machine.execVsad t gu full lw ty vd va vb s
  | .vsada t gu full lw ty vd va vb => Sys2Proof.Machine.execVsada t gu full lw ty vd va vb s
  | .setvl t gu rd ra sew alt => Sys2Proof.Machine.execSetvl t gu rd ra sew alt s
  | .lvStart t => Sys2Proof.Machine.execLvStart t s
  | .lvInteger t gu fn vd va vb vm => Sys2Proof.Machine.execLvInteger t gu fn vd va vb vm s
  | .lvLogicShift t gu fn vd va vb vm => Sys2Proof.Machine.execLvLogicShift t gu fn vd va vb vm s
  | .vcvt t gu vd va ty vm => Sys2Proof.Machine.execVcvt t gu vd va ty vm s
  | .vcvtI t gu vd va ty vm => Sys2Proof.Machine.execVcvtI t gu vd va ty vm s
  | .lvFloat t gu fn vd va vb vm => Sys2Proof.Machine.execLvFloat t gu fn vd va vb vm s
  | .lvCompare t gu fn vd va vb vm => Sys2Proof.Machine.execLvCompare t gu fn vd va vb vm s
  | .vld t gu vd ra vm => Sys2Proof.Machine.execVld t gu vd ra vm s
  | .vlds t gu vd ra rb vm => Sys2Proof.Machine.execVlds t gu vd ra rb vm s
  | .vldx t gu vd ra rb vm => Sys2Proof.Machine.execVldx t gu vd ra rb vm s
  | .vst t gu vd ra vm => Sys2Proof.Machine.execVst t gu vd ra vm s
  | .vsts t gu vd ra rb vm => Sys2Proof.Machine.execVsts t gu vd ra rb vm s
  | .vstx t gu vd ra rb vm => Sys2Proof.Machine.execVstx t gu vd ra rb vm s
  | .vlm t gu vd ra => Sys2Proof.Machine.execVlm t gu vd ra s
  | .vsm t gu vd ra => Sys2Proof.Machine.execVsm t gu vd ra s
  | .lvVbcast t gu vd ra vm => Sys2Proof.Machine.execLvVbcast t gu vd ra vm s
  | .vmv t gu vd va vm => Sys2Proof.Machine.execVmv t gu vd va vm s
  | .vmfs t gu rd va => Sys2Proof.Machine.execVmfs t gu rd va s
  | .vmsf t gu vd ra => Sys2Proof.Machine.execVmsf t gu vd ra s
  | .vfirst t gu rd va vm => Sys2Proof.Machine.execVfirst t gu rd va vm s
  | .vpopc t gu rd va vm => Sys2Proof.Machine.execVpopc t gu rd va vm s
  | .vcompress t gu vd va vb => Sys2Proof.Machine.execVcompress t gu vd va vb s
  | .vid t gu vd vm => Sys2Proof.Machine.execVid t gu vd vm s
  | .vexp t gu vd va vm => Sys2Proof.Machine.execVexp t gu vd va vm s
  | .vlog t gu vd va vm => Sys2Proof.Machine.execVlog t gu vd va vm s
  | .vrcp t gu vd va vm => Sys2Proof.Machine.execVrcp t gu vd va vm s
  | .vrsqrt t gu vd va vm => Sys2Proof.Machine.execVrsqrt t gu vd va vm s
  | .vtanh t gu vd va vm => Sys2Proof.Machine.execVtanh t gu vd va vm s
  | .vmaxr t gu vd va vm => Sys2Proof.Machine.execVmaxr t gu vd va vm s
  | .vsumr t gu vd va vm => Sys2Proof.Machine.execVsumr t gu vd va vm s
  | .vsoftmax t gu vd va vm => Sys2Proof.Machine.execVsoftmax t gu vd va vm s
  | .vsync t gu => Sys2Proof.Machine.execVsync t gu s
  | .vmand t gu vd va vb => Sys2Proof.Machine.execVmand t gu vd va vb s
  | .vmor t gu vd va vb => Sys2Proof.Machine.execVmor t gu vd va vb s
  | .vmxor t gu vd va vb => Sys2Proof.Machine.execVmxor t gu vd va vb s
  | .vmandn t gu vd va vb => Sys2Proof.Machine.execVmandn t gu vd va vb s
  | .spload t gu ra rb => Sys2Proof.Machine.execSpload t gu ra rb s
  | .spenter t gu ra => Sys2Proof.Machine.execSpenter t gu ra s
  | .spresume t gu => Sys2Proof.Machine.execSpresume t gu s
  | .spexit t gu rd => Sys2Proof.Machine.execSpexit t gu rd s
  | .spstop t gu => Sys2Proof.Machine.execSpstop t gu s
  | .tcbSpstop t => Sys2Proof.Machine.execTcbSpstop t s
  | .spindleInstruction t lane => Sys2Proof.Machine.execSpindleInstruction t lane s
  | .sphalt t lane gu => Sys2Proof.Machine.execSphalt t lane gu s
  | .sid t lane gu td => Sys2Proof.Machine.execSid t lane gu td s
  | .sparrive t lane gu ta => Sys2Proof.Machine.execSparrive t lane gu ta s
  | .vregWinAccess t off size wr => Sys2Proof.Machine.execVregWinAccess t off size wr s
  | .mma t gu ra rb rc acc dw => Sys2Proof.Machine.execMma t gu ra rb rc acc dw s
  | .mstore t gu ra rc acc dw => Sys2Proof.Machine.execMstore t gu ra rc acc dw s
  | .mscale t gu ra rc dw => Sys2Proof.Machine.execMscale t gu ra rc dw s
  | .mzero t gu acc dw => Sys2Proof.Machine.execMzero t gu acc dw s
  | .mzeroP t gu acc dw => Sys2Proof.Machine.execMzeroP t gu acc dw s
  | .msync t gu => Sys2Proof.Machine.execMsync t gu s
  | .meCommandStart t => Sys2Proof.Machine.execMeCommandStart t s
  | .meCommandComplete t corr ue => Sys2Proof.Machine.execMeCommandComplete t corr ue s
  | .maccWinAccess t off size wr => Sys2Proof.Machine.execMaccWinAccess t off size wr s
  | .drawerOwnWrite t d v => Sys2Proof.Machine.execDrawerOwnWrite t d v s
  | .drawerZeroingStart t => Sys2Proof.Machine.execDrawerZeroingStart t s
  | .drawerZeroingDone t => Sys2Proof.Machine.execDrawerZeroingDone t s
  | .scrubSlot t bank free ecc => Sys2Proof.Machine.execScrubSlot t bank free ecc s
  | .scrubWriteback t => Sys2Proof.Machine.execScrubWriteback t s
  | .transferPortRequest t src => Sys2Proof.Machine.execTransferPortRequest t src s
  | .darrive t gu ra rb => Sys2Proof.Machine.execDarrive t gu ra rb s
  | .dset t gu ra rb => Sys2Proof.Machine.execDset t gu ra rb s
  | .dreset t gu ra => Sys2Proof.Machine.execDreset t gu ra s
  | .dwait t gu pd ra rb => Sys2Proof.Machine.execDwait t gu pd ra rb s
  | .dtest t gu pd ra rb => Sys2Proof.Machine.execDtest t gu pd ra rb s
  | .dread t gu rd ra => Sys2Proof.Machine.execDread t gu rd ra s
  | .dowelStoreCommand port tile idx v => Sys2Proof.Machine.execDowelStoreCommand port tile idx v s
  | .dowelOpArrival src tile idx => Sys2Proof.Machine.execDowelOpArrival src tile idx s
  | .dowelWake t => Sys2Proof.Machine.execDowelWake t s
  | .dwaitPoll t => Sys2Proof.Machine.execDwaitPoll t s
  | .carrive t gu ra => Sys2Proof.Machine.execCarrive t gu ra s
  | .cwait t gu pd ra => Sys2Proof.Machine.execCwait t gu pd ra s
  | .ctest t gu pd ra => Sys2Proof.Machine.execCtest t gu pd ra s
  | .cbar t gu pd ra => Sys2Proof.Machine.execCbar t gu pd ra s
  | .clampRelease c => Sys2Proof.Machine.execClampRelease c s
  | .tsub t gu ra rb => Sys2Proof.Machine.execTsub t gu ra rb s
  | .tstat t gu rd rb => Sys2Proof.Machine.execTstat t gu rd rb s
  | .tsync t gu rb => Sys2Proof.Machine.execTsync t gu rb s
  | .tclear t gu ra rb => Sys2Proof.Machine.execTclear t gu ra rb s
  | .tstop t gu rb => Sys2Proof.Machine.execTstop t gu rb s
  | .tgo t gu rb => Sys2Proof.Machine.execTgo t gu rb s
  | .tsave t gu ra rb => Sys2Proof.Machine.execTsave t gu ra rb s
  | .trest t gu ra rb => Sys2Proof.Machine.execTrest t gu ra rb s
  | .teCtrlStop t ch => Sys2Proof.Machine.execTeCtrlStop t ch s
  | .teCtrlGo t ch => Sys2Proof.Machine.execTeCtrlGo t ch s
  | .teCtrlClear t ch mode => Sys2Proof.Machine.execTeCtrlClear t ch mode s
  | .descriptorStart t ch => Sys2Proof.Machine.execDescriptorStart t ch s
  | .blockPretranslate t ch => Sys2Proof.Machine.execBlockPretranslate t ch s
  | .blockCommit t ch ext => Sys2Proof.Machine.execBlockCommit t ch ext s
  | .teStopDone t ch => Sys2Proof.Machine.execTeStopDone t ch s
  | .pageWalk leaf => Sys2Proof.Machine.execPageWalk leaf s
  | .pageWalkEntryRead leaf k entry cas => Sys2Proof.Machine.execPageWalkEntryRead leaf k entry cas s
  | .pageGroupResponse port fn idx pasid code => Sys2Proof.Machine.execPageGroupResponse port fn idx pasid code s
  | .priTimeout port fn idx => Sys2Proof.Machine.execPriTimeout port fn idx s
  | .xltInvWrite v => Sys2Proof.Machine.execXltInvWrite v s
  | .atsInvalidateRequest port fn pasid => Sys2Proof.Machine.execAtsInvalidateRequest port fn pasid s
  | .invalidationComplete => Sys2Proof.Machine.execInvalidationComplete s
  | .xltCtxWrite agent n k v => Sys2Proof.Machine.execXltCtxWrite agent n k v s
  | .stopMarker n => Sys2Proof.Machine.execStopMarker n s
  | .xltFmtWrite agent f k v => Sys2Proof.Machine.execXltFmtWrite agent f k v s
  | .priDisable port fn => Sys2Proof.Machine.execPriDisable port fn s
  | .hostLinkTraining port rate width flit cache cxl => Sys2Proof.Machine.execHostLinkTraining port rate width flit cache cxl s
  | .dataLinkDown port => Sys2Proof.Machine.execDataLinkDown port s
  | .downTimerExpiry port => Sys2Proof.Machine.execDownTimerExpiry port s
  | .hotReset port => Sys2Proof.Machine.execHotReset port s
  | .perstAssert port => Sys2Proof.Machine.execPerstAssert port s
  | .linkDisable port => Sys2Proof.Machine.execLinkDisable port s
  | .functionLevelReset port fn => Sys2Proof.Machine.execFunctionLevelReset port fn s
  | .hostBarWrite port fn requester bar off data ep => Sys2Proof.Machine.execHostBarWrite port fn requester bar off data ep s
  | .hostBarRead port fn requester bar off n => Sys2Proof.Machine.execHostBarRead port fn requester bar off n s
  | .configRequest port fn field v => Sys2Proof.Machine.execConfigRequest port fn field v s
  | .flushRead port => Sys2Proof.Machine.execFlushRead port s
  | .hostReadCompletion reader ans => Sys2Proof.Machine.execHostReadCompletion reader ans s
  | .completionTimeout reader => Sys2Proof.Machine.execCompletionTimeout reader s
  | .hportRetrain port => Sys2Proof.Machine.execHportRetrain port s
  | .hlcRequest port line tiles walkers others ecc => Sys2Proof.Machine.execHlcRequest port line tiles walkers others ecc s
  | .hlcFill port line st data poison => Sys2Proof.Machine.execHlcFill port line st data poison s
  | .hostSnoop port line kind => Sys2Proof.Machine.execHostSnoop port line kind s
  | .evictionWritebackDone port line => Sys2Proof.Machine.execEvictionWritebackDone port line s
  | .hlcPreload v => Sys2Proof.Machine.execHlcPreload v s
  | .hlcUnlock => Sys2Proof.Machine.execHlcUnlock s
  | .wqDoorbell q tail => Sys2Proof.Machine.execWqDoorbell q tail s
  | .descriptorFetch q ans => Sys2Proof.Machine.execDescriptorFetch q ans s
  | .grainHashInputs q list host => Sys2Proof.Machine.execGrainHashInputs q list host s
  | .workOrderDispatch q => Sys2Proof.Machine.execWorkOrderDispatch q s
  | .wqDoneWrite agent q v host => Sys2Proof.Machine.execWqDoneWrite agent q v host s
  | .completionRecordWrite q => Sys2Proof.Machine.execCompletionRecordWrite q s
  | .wqEnable q => Sys2Proof.Machine.execWqEnable q s
  | .wqDisable q => Sys2Proof.Machine.execWqDisable q s
  | .wqCqheadWrite q v => Sys2Proof.Machine.execWqCqheadWrite q v s
  | .memoryWriteAccept pc => Sys2Proof.Machine.execMemoryWriteAccept pc s
  | .hbmCommandSlot pc loc ecc => Sys2Proof.Machine.execHbmCommandSlot pc loc ecc s
  | .refresh pc => Sys2Proof.Machine.execRefresh pc s
  | .refreshRateChange stack temp => Sys2Proof.Machine.execRefreshRateChange stack temp s
  | .hbmScrubSlot pc ecc => Sys2Proof.Machine.execHbmScrubSlot pc ecc s
  | .rowRemap late => Sys2Proof.Machine.execRowRemap late s
  | .rowRemapDone => Sys2Proof.Machine.execRowRemapDone s
  | .pcMapOut pc => Sys2Proof.Machine.execPcMapOut pc s
  | .memoryRecalWindow pc late => Sys2Proof.Machine.execMemoryRecalWindow pc late s
  | .stackTraining stack fails => Sys2Proof.Machine.execStackTraining stack fails s
  | .stackZeroFillDone stack => Sys2Proof.Machine.execStackZeroFillDone stack s
  | .stackThermalTrip stack => Sys2Proof.Machine.execStackThermalTrip stack s
  | .lenysTraining port gen2 farSlot farPort farCab farInc ok => Sys2Proof.Machine.execLenysTraining port gen2 farSlot farPort farCab farInc ok s
  | .codewordReceive port seq ack errs idle ms => Sys2Proof.Machine.execCodewordReceive port seq ack errs idle ms s
  | .linkReplay port seq => Sys2Proof.Machine.execLinkReplay port seq s
  | .portRetrain port => Sys2Proof.Machine.execPortRetrain port s
  | .laneFail port lane => Sys2Proof.Machine.execLaneFail port lane s
  | .lenysRecalWindow port => Sys2Proof.Machine.execLenysRecalWindow port s
  | .portDown port => Sys2Proof.Machine.execPortDown port s
  | .localReroute => Sys2Proof.Machine.execLocalReroute s
  | .routeTableLoad entries => Sys2Proof.Machine.execRouteTableLoad entries s
  | .e2eReceive src => Sys2Proof.Machine.execE2eReceive src s
  | .e2eAck src seq refs inc dinc stale => Sys2Proof.Machine.execE2eAck src seq refs inc dinc stale s
  | .e2eRetransmit d => Sys2Proof.Machine.execE2eRetransmit d s
  | .destinationUnreachable d => Sys2Proof.Machine.execDestinationUnreachable d s
  | .buildNotice => Sys2Proof.Machine.execBuildNotice s
  | .barrierArriveAtRoot => Sys2Proof.Machine.execBarrierArriveAtRoot s
  | .barrierRelease => Sys2Proof.Machine.execBarrierRelease s
  | .barrierAbort => Sys2Proof.Machine.execBarrierAbort s
  | .timeExchange off now => Sys2Proof.Machine.execTimeExchange off now s
  | .holdover => Sys2Proof.Machine.execHoldover s
  | .lenysRetrainWrite port => Sys2Proof.Machine.execLenysRetrainWrite port s
  | .partBuild v => Sys2Proof.Machine.execPartBuild v s
  | .partReset v => Sys2Proof.Machine.execPartReset v s
  | .partTeardown v => Sys2Proof.Machine.execPartTeardown v s
  | .partCmdHoldEnd => Sys2Proof.Machine.execPartCmdHoldEnd s
  | .partitionFatal p id phys => Sys2Proof.Machine.execPartitionFatal p id phys s
  | .rollbackCommit src typ => Sys2Proof.Machine.execRollbackCommit src typ s
  | .getVersion tr => Sys2Proof.Machine.execGetVersion tr s
  | .getCapabilities tr flags => Sys2Proof.Machine.execGetCapabilities tr flags s
  | .negotiateAlgorithms tr p384 sha secp aes => Sys2Proof.Machine.execNegotiateAlgorithms tr p384 sha secp aes s
  | .getDigests tr => Sys2Proof.Machine.execGetDigests tr s
  | .getCertificate tr slot off len => Sys2Proof.Machine.execGetCertificate tr slot off len s
  | .challenge tr slot nonce => Sys2Proof.Machine.execChallenge tr slot nonce s
  | .getMeasurements tr index signed nonce => Sys2Proof.Machine.execGetMeasurements tr index signed nonce s
  | .keyExchange tr slot share => Sys2Proof.Machine.execKeyExchange tr slot share s
  | .finish tr sess mac => Sys2Proof.Machine.execFinish tr sess mac s
  | .spdmHeartbeat tr sess => Sys2Proof.Machine.execSpdmHeartbeat tr sess s
  | .keyUpdate tr sess op => Sys2Proof.Machine.execKeyUpdate tr sess op s
  | .endSession tr sess => Sys2Proof.Machine.execEndSession tr sess s
  | .bmStart part twin => Sys2Proof.Machine.execBmStart part twin s
  | .bmHello => Sys2Proof.Machine.execBmHello s
  | .bmReady => Sys2Proof.Machine.execBmReady s
  | .bmStop => Sys2Proof.Machine.execBmStop s
  | .checkpointCompare => Sys2Proof.Machine.execCheckpointCompare s
  | .bmCheckpointTimeout rank => Sys2Proof.Machine.execBmCheckpointTimeout rank s
  | .bmLost => Sys2Proof.Machine.execBmLost s
  | .flueEpoch m reports draw want => Sys2Proof.Machine.execFlueEpoch m reports draw want s
  | .flueHeartbeat m now heard => Sys2Proof.Machine.execFlueHeartbeat m now heard s
  | .managerFailover m now => Sys2Proof.Machine.execManagerFailover m now s
  | .higherTermSeen m term => Sys2Proof.Machine.execHigherTermSeen m term s
  | .shelfFailure => Sys2Proof.Machine.execShelfFailure s
  | .envelopeRequest watts ms => Sys2Proof.Machine.execEnvelopeRequest watts ms s
  | .contractChange param v => Sys2Proof.Machine.execContractChange param v s
  | .flueStart m => Sys2Proof.Machine.execFlueStart m s
  | .watchdogExpiry => Sys2Proof.Machine.execWatchdogExpiry s
  | .firmwareStart => Sys2Proof.Machine.execFirmwareStart s
  | .selfTest => Sys2Proof.Machine.execSelfTest s
  | .selfTestDone tiles defects => Sys2Proof.Machine.execSelfTestDone tiles defects s
  | .bootReady => Sys2Proof.Machine.execBootReady s
  | .logRecordWrite => Sys2Proof.Machine.execLogRecordWrite s
  | .logCompaction => Sys2Proof.Machine.execLogCompaction s
  | .setdasa iface addr => Sys2Proof.Machine.execSetdasa iface addr s
  | .setEndpointId port eid => Sys2Proof.Machine.execSetEndpointId port eid s
  | .relay iface toLenys dst packet => Sys2Proof.Machine.execRelay iface toLenys dst packet s
  | .getId src => Sys2Proof.Machine.execGetId src s
  | .regRead src off => Sys2Proof.Machine.execRegRead src off s
  | .regWrite src off v => Sys2Proof.Machine.execRegWrite src off v s
  | .getKnot src off len => Sys2Proof.Machine.execGetKnot src off len s
  | .getLog src stream first count => Sys2Proof.Machine.execGetLog src stream first count s
  | .getTlm src first count => Sys2Proof.Machine.execGetTlm src first count s
  | .imageWrite src typ slot off data => Sys2Proof.Machine.execImageWrite src typ slot off data s
  | .imageSelect src typ slot => Sys2Proof.Machine.execImageSelect src typ slot s
  | .setTime src v => Sys2Proof.Machine.execSetTime src v s
  | .setDefine src k valid base m0 m1 m2 => Sys2Proof.Machine.execSetDefine src k valid base m0 m1 m2 s
  | .clampJoin src c cab group => Sys2Proof.Machine.execClampJoin src c cab group s
  | .mbxGo port => Sys2Proof.Machine.execMbxGo port s
  | .telemetrySample late => Sys2Proof.Machine.execTelemetrySample late s
  | .errorHarvest => Sys2Proof.Machine.execErrorHarvest s
  | .partFatalSelfReset => Sys2Proof.Machine.execPartFatalSelfReset s
  | .domainResetAssert => Sys2Proof.Machine.execDomainResetAssert s
  | .domainResetRelease => Sys2Proof.Machine.execDomainResetRelease s
  | .resetNotice => Sys2Proof.Machine.execResetNotice s
  | .errInject ident tile pc => Sys2Proof.Machine.execErrInject ident tile pc s
  | .errorRingRecord p => Sys2Proof.Machine.execErrorRingRecord p s
  | .errorRingEnable p => Sys2Proof.Machine.execErrorRingEnable p s
  | .correctedSummaryWindow log => Sys2Proof.Machine.execCorrectedSummaryWindow log s
  | .errorRingMsix p => Sys2Proof.Machine.execErrorRingMsix p s
  | .illegalInstruction t gu long => Sys2Proof.Machine.execIllegalInstruction t gu long s
  | .remoteStoreAck t => Sys2Proof.Machine.execRemoteStoreAck t s
  | .blockWriteRefused t ch code => Sys2Proof.Machine.execBlockWriteRefused t ch code s
  | .grantZeroingDone => Sys2Proof.Machine.execGrantZeroingDone s
  | .bmHelloTimeout => Sys2Proof.Machine.execBmHelloTimeout s
  | .mgmtSramUe => Sys2Proof.Machine.execMgmtSramUe s
  | .perstDeassert port => Sys2Proof.Machine.execPerstDeassert port s
  | .pwrEnHigh vin => Sys2Proof.Machine.execPwrEnHigh vin s
  | .portPllLockLost pll => Sys2Proof.Machine.execPortPllLockLost pll s

end Sys2Proof.Machine
end

