-- ==== Sys2Proof/Safety.lean ====
section
/-! DEFINITION. What a safe run is: every command completes; and the terms in which the obligations speak: a command that
completes, an instruction that issues, the state with one tile or the part replaced. -/

namespace Sys2Proof.Machine
open Sys2Proof

/-- A command completes from a state, in a state of which `post` holds. -/
def Completes (c : Instr) (s : State) (post : State → Prop) : Prop := ∃ t, exec c s = .next t ∧ post t

/-- A state from which the next step completes. -/
def Safe (s : State) : Prop := ∃ t, step s = .next t

/-- `k` steps from a state, every one of which completes. -/
def SafeRun : Nat → State → Prop
  | 0, _ => True
  | k + 1, s => ∃ t, step s = .next t ∧ SafeRun k t

/-- The state with the part replaced; queue and managers stay. -/
def withDev (s : State) (d : Dev) : State := { s with dev := d }

/-- The state with one tile replaced; every other tile and everything else stays. -/
def putTile (s : State) (t : Nat) (x : Tile) : State := withDev s (setTile s.dev t x)

/-- A tile as the next instruction finds it: every write due has landed (R186, R189). -/
def tileIn (s : State) (t : Nat) : Tile := landDue (tileOf s.dev t)

/-- An instruction of `size` bytes issues on a tile and does its work: issue is not held, the core runs and can issue (R180,
R215), no exception is found in D (R204), the guard is true (R184). -/
def Issues (s : State) (t : TileId) (gu : Guard) (size : Nat) : Prop :=
  s.dev.hold = false ∧ canIssue (tileOf s.dev t) = true ∧ fetchFault (tileIn s t) size false = none ∧
    guardOf (tileIn s t) gu = true ∧ (tileOf s.dev t).core.run = true

/-- The device-physical address of a byte of a tile's scratchpad (R760). -/
def ownAddr (t off : Nat) : Word := BitVec.ofNat 64 (0x4000000000 + 0x400000 * t + off)

/-- The store-buffer entries of a store of `n` bytes into a tile's scratchpad: one inside an aligned 8-byte word, else one
for each of the two words (R193, R195). -/
def ownEntries (t off n v : Nat) : List SbEntry :=
  let k := 8 - off % 8
  if n ≤ k then [⟨.scratch t off, n, BitVec.ofNat 64 (v % 2 ^ (8 * n))⟩]
  else [⟨.scratch t off, k, BitVec.ofNat 64 (v % 2 ^ (8 * k))⟩,
        ⟨.scratch t (off + k), n - k, BitVec.ofNat 64 (v / 2 ^ (8 * k) % 2 ^ (8 * (n - k)))⟩]

/-- The scalar port may reach `n` bytes of the tile's own scratchpad in monitor mode, and no drawer of theirs is being
zeroed (R354, R355, R363). -/
def ownBytes (x : Tile) (off n : Nat) : Prop :=
  isUser x = false ∧ x.member ≠ 0 ∧ off + n ≤ 0x300000 ∧
    ∀ a, off ≤ a → a < off + n → drawerBusy x a = false ∧ bit (drawerOwn x (drawerOf a)) 0 = true

/-- The memories of a tile are in canonical form: instruction store, scratchpad and their poison marks. -/
def tileMemWf (x : Tile) : Bool := mwf 0 x.istore && mwf false x.istPoison && mwf 0 x.spad && mwf false x.dr.poison

/-- Every addressed memory of the part is in canonical form: addresses strictly rising, none that reads as an unlisted one. -/
def Memory.wf (s : Dev) : Bool :=
  mwf 0 s.stack && mwf false s.stackPoison && mwf 0xFF s.mgmt.flash && mwf 0xFF s.mgmt.sram && mwf Tile.reset s.tiles &&
    s.tiles.all (fun e => tileMemWf e.2)

end Sys2Proof.Machine
end

