-- ==== Sys2Proof/Certificates/Slice0/Obligations.lean ====
section
/-! DEFINITION. The statements for the provers. Each cites the rules of spec/ it speaks of; a statement that rests on a
choice of the model names the log entry. -/

open Sys2Proof Sys2Proof.Machine

/-! ### The queue, the managers, every command -/

/-- A step takes the command at the front of the queue and runs it on the state with the queue's rest; with no command
waiting the block idles (log entry 3). -/
def Obligations.StepRunsFrontCommand : Prop :=
  (∀ (s : State) (c : Instr) (rest : List Instr), s.pending = c :: rest → step s = exec c { s with pending := rest }) ∧
  (∀ s : State, s.pending = [] → step s = .next s)

/-- A command that is not one of the cabinet managers' (R682 to R698) leaves both managers exactly as they are, and no
command puts another into the queue or takes one out (log entry 2).
Every run of every length completes, from every state and with every queue: no command of the table faults or is
refused. -/
def Obligations.EveryRunCompletesAndKeepsManagers : Prop :=
  (∀ (c : Instr) (s t : State), exec c s = .next t → t.pending = s.pending ∧
     (match c with
      | .flueEpoch .. => True
      | .flueHeartbeat .. => True
      | .managerFailover .. => True
      | .higherTermSeen .. => True
      | .shelfFailure => True
      | .envelopeRequest .. => True
      | .contractChange .. => True
      | .flueStart .. => True
      | _ => t.flue = s.flue)) ∧
  ((∀ (c : Instr) (s : State), ∃ t, exec c s = .next t) ∧ (∀ (k : Nat) (s : State), SafeRun k s))

/-- What reset leaves: no command waits; the cabinet contract has its default S 40 kW/s, ENVELOPE 310 kW and FIXED 16 kW
(R690); every general register that is read gives a value, g0 zero (R178); every memory is in canonical form.
Corners the rules leave open are the model’s choices of log entries 11, 20 and 40. -/
def Obligations.ResetLeaves : Prop :=
  State.reset.pending = [] ∧
  State.reset.flue.a.slewS = 40 ∧ State.reset.flue.a.envelope = 310000 ∧ State.reset.flue.a.fixed = 16000 ∧
  State.reset.flue.b.slewS = 40 ∧ State.reset.flue.b.envelope = 310000 ∧ State.reset.flue.b.fixed = 16000 ∧
  State.reset.flue.a.budget = 200000 ∧ State.reset.flue.b.budget = 200000 ∧
  State.reset.flue.a.parts = [] ∧ State.reset.flue.b.parts = [] ∧
  (∀ t : TileId, getG (tileOf State.reset.dev t) 0 = 0 ∧ getP (tileOf State.reset.dev t) 0 = true) ∧
  Memory.wf State.reset.dev = true ∧ State.reset.dev.out = []

/-! ### Registers and the ends of an instruction -/

/-- Writing a general register changes that register, and no other register, predicate, accumulator, control register or
memory; a write to g0 is discarded, that of a load that lands among them, and g0 reads zero (R178). Advancing moves the pc
by the instruction's bytes and counts one instruction, a count that is full staying full (R773); a taken branch puts the
target into the pc and throws the fetched words away (R183).
Writing a predicate changes that predicate and no other, and no register, control register or memory; p0 reads true
and a write to it is discarded (R178). -/
def Obligations.RegisterAndPredicateWriteFrame : Prop :=
  (∀ (x : Tile) (rd : RegNo) (v : Word),
     getG x 0 = 0 ∧ setG x 0 v = x ∧
     (∀ r : RegNo, x.core.prod = none →
       getG (landDue { x with core := { x.core with loads := [⟨0, v, x.core.slot⟩] } }) r = getG x r) ∧
     (∀ r : RegNo, getG (setG x rd v) r = if r = rd ∧ rd ≠ 0 then v else getG x r) ∧
     (setG x rd v).core = { x.core with g := (setG x rd v).core.g } ∧
     setG x rd v = { x with core := (setG x rd v).core, dig := (setG x rd v).dig } ∧
     (∀ size occ : Nat, (advance x size occ).core.pc = x.core.pc + BitVec.ofNat 64 size ∧
       (advance x size occ).core.instret.toNat = min (x.core.instret.toNat + 1) (2 ^ 64 - 1) ∧
       advance x size occ = { x with core := { x.core with
         pc := x.core.pc + BitVec.ofNat 64 size, instret := countUp x.core.instret 1, slot := x.core.slot + occ
         cycle := countUp x.core.cycle occ, pq := (advance x size occ).core.pq, stalled := false } }) ∧
     (∀ target : Word, (takeBranch x target).core.pc = target ∧ (takeBranch x target).core.pq = [] ∧
       takeBranch x target = { x with core := { x.core with
         pc := target, instret := countUp x.core.instret 1, slot := x.core.slot + 4, cycle := countUp x.core.cycle 4
         pq := [], fetchPc := target.toNat / 8 * 8, stalled := false } })) ∧
  (∀ (x : Tile) (pd : PredNo) (b : Bool),
     getP x 0 = true ∧ setP x 0 b = x ∧
     (∀ p : PredNo, getP (setP x pd b) p = if p = pd ∧ pd ≠ 0 then b else getP x p) ∧
     (setP x pd b).core = { x.core with p := (setP x pd b).core.p } ∧
     setP x pd b = { x with core := (setP x pd b).core, dig := (setP x pd b).dig })

/-! ### Integer instructions -/

/-- The 27 ALU functions; a function above 0x1A, or a unary form (0x12 to 0x1A) whose RB field is not zero, is no
instruction (R230, R223).
The integer register instructions: on every tile, register and immediate, an instruction that issues writes its result
to rd (a write to g0 is discarded), advances by its size and changes nothing else (R230, R231, R233). -/
def Obligations.IntegerInstructionsComplete : Prop :=
  (∀ a b : Word,
     aluOp 0x00 a b = a + b ∧ aluOp 0x01 a b = a - b ∧ aluOp 0x02 a b = a &&& b ∧ aluOp 0x03 a b = a ||| b ∧
     aluOp 0x04 a b = a ^^^ b ∧ aluOp 0x05 a b = a &&& ~~~b ∧
     aluOp 0x06 a b = a <<< (b.toNat % 64) ∧ aluOp 0x07 a b = a >>> (b.toNat % 64) ∧
     aluOp 0x08 a b = a.sshiftRight (b.toNat % 64) ∧
     (aluOp 0x09 a b).toInt = min a.toInt b.toInt ∧ (aluOp 0x0A a b).toInt = max a.toInt b.toInt ∧
     (aluOp 0x0B a b).toNat = min a.toNat b.toNat ∧ (aluOp 0x0C a b).toNat = max a.toNat b.toNat ∧
     aluOp 0x0D a b = (BitVec.ofNat 32 (a.toNat + b.toNat)).signExtend 64 ∧
     aluOp 0x0E a b = (BitVec.ofNat 32 (a - b).toNat).signExtend 64 ∧
     aluOp 0x0F a b = ((BitVec.ofNat 32 a.toNat) <<< (b.toNat % 32)).signExtend 64 ∧
     aluOp 0x10 a b = ((BitVec.ofNat 32 a.toNat) >>> (b.toNat % 32)).signExtend 64 ∧
     aluOp 0x11 a b = ((BitVec.ofNat 32 a.toNat).sshiftRight (b.toNat % 32)).signExtend 64 ∧
     aluOp 0x16 a b = (BitVec.ofNat 8 a.toNat).signExtend 64 ∧ aluOp 0x17 a b = (BitVec.ofNat 16 a.toNat).signExtend 64 ∧
     aluOp 0x18 a b = (BitVec.ofNat 32 a.toNat).signExtend 64 ∧
     aluOp 0x19 a b = BitVec.ofNat 64 (a.toNat % 2 ^ 16) ∧ aluOp 0x1A a b = BitVec.ofNat 64 (a.toNat % 2 ^ 32) ∧
     (∀ i : Fin 8, (aluOp 0x15 a b >>> (8 * i.val)).truncate 8 = (a >>> (56 - 8 * i.val)).truncate 8) ∧
     (aluOp 0x14 a b).toNat = (List.range 64).countP (fun i => a.getLsbD i) ∧
     (∀ n, n ≤ 64 →
       ((aluOp 0x12 a b).toNat = n ↔ (∀ i, i < n → a.getLsbD (63 - i) = false) ∧ (n < 64 → a.getLsbD (63 - n) = true)) ∧
       ((aluOp 0x13 a b).toNat = n ↔ (∀ i, i < n → a.getLsbD i = false) ∧ (n < 64 → a.getLsbD n = true)))) ∧
  (∀ (s : State) (t : TileId) (gu : Guard),
     let x := tileIn s t
     (Issues s t gu 4 → ∀ rd ra rb : RegNo,
       (∀ fn : Fin 64, fn.val ≤ 0x1A → (0x12 ≤ fn.val → rb = 0) →
         exec (.alu t gu rd ra rb fn) s = .next (putTile s t (advance (setG x rd (aluOp fn (getG x ra) (getG x rb))) 4 1))) ∧
       (∀ fn : Fin 64, 0x1A < fn.val ∨ (0x12 ≤ fn.val ∧ rb ≠ 0) →
         exec (.alu t gu rd ra rb fn) s = .next (putTile s t (enterException x 1 0 0))) ∧
       (∀ imm : BitVec 11,
         exec (.addi t gu rd ra imm) s = .next (putTile s t (advance (setG x rd (getG x ra + imm.signExtend 64)) 4 1)) ∧
         exec (.andi t gu rd ra imm) s = .next (putTile s t (advance (setG x rd (getG x ra &&& imm.signExtend 64)) 4 1)) ∧
         exec (.ori t gu rd ra imm) s = .next (putTile s t (advance (setG x rd (getG x ra ||| imm.signExtend 64)) 4 1)) ∧
         exec (.xori t gu rd ra imm) s = .next (putTile s t (advance (setG x rd (getG x ra ^^^ imm.signExtend 64)) 4 1))) ∧
       (∀ sh : Fin 64,
         exec (.shifti t gu rd ra 0 false sh) s = .next (putTile s t (advance (setG x rd (getG x ra <<< sh.val)) 4 1)) ∧
         exec (.shifti t gu rd ra 1 false sh) s = .next (putTile s t (advance (setG x rd (getG x ra >>> sh.val)) 4 1)) ∧
         exec (.shifti t gu rd ra 2 false sh) s = .next (putTile s t (advance (setG x rd ((getG x ra).sshiftRight sh.val)) 4 1)) ∧
         (sh.val < 32 → ∀ kind : Fin 4, kind.val < 3 →
           exec (.shifti t gu rd ra kind true sh) s =
             .next (putTile s t (advance (setG x rd (shiftOp kind true (getG x ra) sh)) 4 1))))) ∧
     (Issues s t gu 8 → ∀ (rd ra : RegNo) (imm : BitVec 32),
       exec (.li t gu rd imm) s = .next (putTile s t (advance (setG x rd (imm.signExtend 64)) 8 1)) ∧
       exec (.lih t gu rd imm) s = .next (putTile s t (advance (setG x rd (imm ++ (getG x rd).truncate 32)) 8 1)) ∧
       exec (.longAlu t gu 0 rd ra imm) s = .next (putTile s t (advance (setG x rd (getG x ra + imm.signExtend 64)) 8 1)) ∧
       exec (.longAlu t gu 1 rd ra imm) s = .next (putTile s t (advance (setG x rd (getG x ra &&& imm.signExtend 64)) 8 1)) ∧
       exec (.longAlu t gu 2 rd ra imm) s = .next (putTile s t (advance (setG x rd (getG x ra ||| imm.signExtend 64)) 8 1)) ∧
       exec (.longAlu t gu 3 rd ra imm) s = .next (putTile s t (advance (setG x rd (getG x ra ^^^ imm.signExtend 64)) 8 1))))

/-- The product pair is the exact 128-bit product: PHI:PLO of `mul` is the signed, of `mulh` the unsigned product (R232).
The quotient and remainder of a 64-bit division (R191, R232): for a divisor that is not zero, the unsigned pair is the
Euclidean one; the signed pair satisfies dividend = quotient · divisor + remainder with the remainder smaller than the
divisor and of the dividend's sign, except that the most negative number divided by −1 gives itself and remainder zero; a
division by zero gives all ones and the dividend. -/
def Obligations.ProductAndQuotientAreExact : Prop :=
  (∀ a b : Word,
     ((mulOp true a b).2.toInt * 2 ^ 64 + (mulOp true a b).1.toNat = a.toInt * b.toInt) ∧
     ((mulOp false a b).2.toNat * 2 ^ 64 + (mulOp false a b).1.toNat = a.toNat * b.toNat)) ∧
  (∀ a b : Word,
     (b ≠ 0 → (divOp false 64 a b).1.toNat * b.toNat + (divOp false 64 a b).2.toNat = a.toNat ∧
       (divOp false 64 a b).2.toNat < b.toNat) ∧
     (b ≠ 0 → ¬ (a.toInt = -2 ^ 63 ∧ b.toInt = -1) →
       (divOp true 64 a b).1.toInt * b.toInt + (divOp true 64 a b).2.toInt = a.toInt ∧
       (divOp true 64 a b).2.toInt.natAbs < b.toInt.natAbs ∧
       ((divOp true 64 a b).2.toInt = 0 ∨ ((divOp true 64 a b).2.toInt < 0 ↔ a.toInt < 0))) ∧
     (a.toInt = -2 ^ 63 → b.toInt = -1 → divOp true 64 a b = (a, 0)) ∧
     divOp false 64 a 0 = (BitVec.allOnes 64, a) ∧ divOp true 64 a 0 = (BitVec.allOnes 64, a))

/-- Multiply and divide: an instruction that issues advances and puts the pair in flight, 4, 34 or 18 slots from landing,
in place of any pair already in flight; `PRODUCT_LANDS` lets the pair reach plo and phi (R189 to R191, R232). -/
def Obligations.MultiplyDivideComplete : Prop :=
  ∀ (s : State) (t : TileId) (gu : Guard),
    let x := tileIn s t
    let flies (p : Word × Word) (l : Nat) : State :=
      putTile s t (advance { x with core := { x.core with prod := some ⟨p.1, p.2, x.core.slot + l⟩ } } 4 1)
    (Issues s t gu 4 → ∀ ra rb : RegNo,
      exec (.mul t gu ra rb) s = .next (flies (mulOp true (getG x ra) (getG x rb)) 4) ∧
      exec (.mulh t gu ra rb) s = .next (flies (mulOp false (getG x ra) (getG x rb)) 4) ∧
      exec (.div t gu ra rb) s = .next (flies (divOp true 64 (getG x ra) (getG x rb)) 34) ∧
      exec (.divu t gu ra rb) s = .next (flies (divOp false 64 (getG x ra) (getG x rb)) 34) ∧
      exec (.divW t gu ra rb) s = .next (flies (divOp true 32 (getG x ra) (getG x rb)) 18) ∧
      exec (.divuW t gu ra rb) s = .next (flies (divOp false 32 (getG x ra) (getG x rb)) 18)) ∧
    (∀ p : PendProd, canIssue (tileOf s.dev t) = true → (tileOf s.dev t).core.prod = some p →
      (tileOf s.dev t).core.slot ≤ p.due →
      Completes (.productLands t) s (fun u =>
        (tileOf u.dev t).core.plo = p.plo ∧ (tileOf u.dev t).core.phi = p.phi ∧ (tileOf u.dev t).core.prod = none ∧
        (tileOf u.dev t).core.slot = p.due ∧ (tileOf u.dev t).core.pc = (tileOf s.dev t).core.pc ∧
        u = putTile s t (tileOf u.dev t)))

/-- Compares, predicate logic, moves between predicates and a register, and `nop`: an instruction that issues writes its
predicate or register, advances by 4 and changes nothing else (R234, R235, R241). -/
def Obligations.PredicateInstructionsComplete : Prop :=
  ∀ (s : State) (t : TileId) (gu : Guard), Issues s t gu 4 →
    let x := tileIn s t
    (∀ (pd : PredNo) (ra rb : RegNo) (imm : BitVec 8),
      let cmps (cc : Fin 16) (v : Word → Word → Bool) : Prop :=
        exec (.cmp t gu pd ra rb cc) s = .next (putTile s t (advance (setP x pd (v (getG x ra) (getG x rb))) 4 1)) ∧
        exec (.cmpi t gu pd ra cc imm) s = .next (putTile s t (advance (setP x pd (v (getG x ra) (imm.signExtend 64))) 4 1))
      cmps 0 (fun a b => decide (a = b)) ∧ cmps 1 (fun a b => decide (a ≠ b)) ∧
      cmps 2 (fun a b => decide (a.toInt < b.toInt)) ∧ cmps 3 (fun a b => decide (b.toInt ≤ a.toInt)) ∧
      cmps 4 (fun a b => decide (a.toNat < b.toNat)) ∧ cmps 5 (fun a b => decide (b.toNat ≤ a.toNat)) ∧
      cmps 6 (fun a b => decide (a &&& b ≠ 0)) ∧ cmps 7 (fun a b => decide (a &&& b = 0))) ∧
    (∀ pd pa pb : PredNo,
      let gives (fn : Fin 8) (v : Bool) : Prop :=
        exec (.plogic t gu pd pa pb fn) s = .next (putTile s t (advance (setP x pd v) 4 1))
      let a := getP x pa
      let b := getP x pb
      gives 0 (a && b) ∧ gives 1 (a || b) ∧ gives 2 (a ^^ b) ∧ gives 3 (a && !b) ∧ gives 4 (!(a && b)) ∧ gives 5 (!(a || b))) ∧
    (∀ rd : RegNo, exec (.mfpr t gu rd) s = .next (putTile s t (advance (setG x rd ((x.core.p ||| 1).zeroExtend 64)) 4 1))) ∧
    (∀ ra : RegNo, Completes (.mtpr t gu ra) s (fun u =>
      (∀ p : PredNo, p ≠ 0 → getP (tileOf u.dev t) p = (getG x ra).getLsbD p) ∧
      (tileOf u.dev t).core.pc = x.core.pc + 4 ∧ (∀ r, getG (tileOf u.dev t) r = getG x r) ∧
      u = putTile s t (tileOf u.dev t))) ∧
    exec (.nop t gu) s = .next (putTile s t (advance x 4 1))

/-! ### Floating point -/

/-- The scalar floating-point instructions: an instruction that issues writes the rounded result of its operands under
`fcsr`.RM to its register (or its predicate, `fcmp`), accrues the flags into `fcsr`, advances by 4, and changes nothing
else; FP32 operands are bits [31:0] and FP32 results clear bits [63:32] (R242, R243). -/
def Obligations.FloatInstructionsComplete : Prop :=
  ∀ (s : State) (t : TileId) (gu : Guard), Issues s t gu 4 → ∀ (single : Bool) (rd ra rb rc : RegNo),
    let x := tileIn s t
    let f := if single then fmt32 else fmt64
    let a := if single then (getG x ra).toNat % 2 ^ 32 else (getG x ra).toNat
    let b := if single then (getG x rb).toNat % 2 ^ 32 else (getG x rb).toNat
    let c := if single then (getG x rc).toNat % 2 ^ 32 else (getG x rc).toNat
    let rm := x.core.fcsr.toNat % 8
    let w := if single then 31 else 63
    let goes (r : Nat × Nat) (occ : Nat) : State :=
      putTile s t (advance (accrueF (setG x rd (BitVec.ofNat 64 r.1)) r.2) 4 occ)
    exec (.fadd t gu single rd ra rb) s = .next (goes (faddOp f rm a b) 4) ∧
    exec (.fsub t gu single rd ra rb) s = .next (goes (fsubOp f rm a b) 4) ∧
    exec (.fmul t gu single rd ra rb) s = .next (goes (fmulOp f rm a b) 4) ∧
    exec (.fdiv t gu single rd ra rb) s = .next (goes (fdivOp f rm a b) (if single then 12 else 22)) ∧
    exec (.fsqrt t gu single rd ra) s = .next (goes (fsqrtOp f rm a) (if single then 14 else 26)) ∧
    exec (.fmin t gu single rd ra rb) s = .next (goes (fminmaxOp f false a b) 1) ∧
    exec (.fmax t gu single rd ra rb) s = .next (goes (fminmaxOp f true a b) 1) ∧
    exec (.fma t gu single rd ra rb rc) s = .next (goes (fmaOp f rm a b c) 4) ∧
    exec (.fcvt t gu false rd ra) s =
      .next (goes (fcvtOp fmt32 fmt64 rm ((getG x ra).toNat % 2 ^ 32)) 2) ∧
    exec (.fcvt t gu true rd ra) s = .next (goes (fcvtOp fmt64 fmt32 rm (getG x ra).toNat) 2) ∧
    exec (.fcvtFL t gu single rd ra) s = .next (goes (fofInt f rm (getG x ra).toInt) 2) ∧
    exec (.fcvtFLu t gu single rd ra) s = .next (goes (fofInt f rm (getG x ra).toNat) 2) ∧
    (let r := ftoInt f rm a (-(2 ^ 63)) (2 ^ 63 - 1);
      exec (.fcvtL t gu single rd ra) s =
        .next (putTile s t (advance (accrueF (setG x rd (BitVec.ofInt 64 r.1)) r.2) 4 2))) ∧
    (let r := ftoInt f rm a 0 (2 ^ 64 - 1);
      exec (.fcvtLu t gu single rd ra) s =
        .next (putTile s t (advance (accrueF (setG x rd (BitVec.ofInt 64 r.1)) r.2) 4 2))) ∧
    exec (.fabs t gu single rd ra) s = .next (putTile s t (advance (setG x rd (BitVec.ofNat 64 (a % 2 ^ w))) 4 1)) ∧
    exec (.fneg t gu single rd ra) s = .next (putTile s t (advance (setG x rd (BitVec.ofNat 64 a ^^^ (1 <<< w))) 4 1)) ∧
    exec (.fclass t gu single rd ra) s = .next (putTile s t (advance (setG x rd (BitVec.ofNat 64 (fclassOp f a))) 4 1)) ∧
    (∀ (pd : PredNo) (cc : Fin 16), cc.val < 4 →
      let r := fcompare f cc a b
      exec (.fcmp t gu single pd ra rb cc) s = .next (putTile s t (advance (accrueF (setP x pd r.1) r.2) 4 1)))

/-! ### Control flow, exceptions, waiting -/

/-- Branches: a branch that issues goes to its target, `call` writes g31 and `jump` gd with the pc plus 4, `jump` reads ga
before it writes gd, and one whose target is not a multiple of 4 raises IALIGN instead (R239); `isync` flushes the prefetch
queue once the stores have drained, and `fence` goes on once the stores have drained and the long-vector unit is idle, with
no engine error recorded (R199, R201, R240).
`sys`, `break` and an encoding that is no instruction take their exceptions SYS, BREAK and ILLEGAL; `eret` returns in
monitor mode and raises PRIV in user mode (R204, R205, R240); an enabled pending interrupt is taken at the lowest source,
INTERRUPT with that source as sub-code, by a core that is not stalled (R207).
In the stream a word of a reserved major and an MD whose zero field is not zero spell no instruction, and the two worked
words spell `(!p3) add g4, g5, g6` and `(!p0) nop` (R223, R225, R228). -/
def Obligations.ControlFlowCompletes : Prop :=
  (∀ (s : State) (t : TileId) (gu : Guard), Issues s t gu 4 →
     let x := tileIn s t
     (∀ disp : BitVec 21,
       exec (.br t gu disp) s = .next (putTile s t (takeBranch x (x.core.pc + 4 * disp.signExtend 64))) ∧
       exec (.call t gu disp) s =
         .next (putTile s t (takeBranch (setG x 31 (x.core.pc + 4)) (x.core.pc + 4 * disp.signExtend 64)))) ∧
     (∀ rd ra : RegNo,
       ((getG x ra).toNat % 4 = 0 →
         exec (.jump t gu rd ra) s = .next (putTile s t (takeBranch (setG x rd (x.core.pc + 4)) (getG x ra)))) ∧
       ((getG x ra).toNat % 4 ≠ 0 → exec (.jump t gu rd ra) s = .next (putTile s t (enterException x 3 0 0)))) ∧
     (storesDrained x = true → exec (.isync t gu) s = .next (putTile s t (takeBranch x (x.core.pc + 4)))) ∧
     (storesDrained x = true → x.lvu.queue = [] →
       ((bit x.core.engErr 0 || bit x.core.engErr 1) = false → exec (.fence t gu) s = .next (putTile s t (advance x 4 1))) ∧
       ((bit x.core.engErr 0 || bit x.core.engErr 1) = true →
         exec (.fence t gu) s = .next (putTile s t (enterException x 11 0 0))))) ∧
  (∀ (s : State) (t : TileId) (gu : Guard),
     let x := tileIn s t
     (Issues s t gu 4 →
       exec (.sys t gu) s = .next (putTile s t (enterException x 9 0 0)) ∧
       exec (.brk t gu) s = .next (putTile s t (enterException x 10 0 0)) ∧
       (isUser x = false → exec (.eret t gu) s = .next (putTile s t (returnException x))) ∧
       (isUser x = true → exec (.eret t gu) s = .next (putTile s t (enterException x 2 0 0)))) ∧
     (∀ long : Bool, Issues s t gu (if long then 8 else 4) →
       exec (.illegalInstruction t gu long) s = .next (putTile s t (enterException x 1 0 0))) ∧
     (∀ k : Fin 3, (tileOf s.dev t).core.run = true → (tileOf s.dev t).core.halted = false →
       (tileOf s.dev t).core.wait = .none → (tileOf s.dev t).core.stalled = false →
       bit (tileOf s.dev t).core.status 1 = true →
       bit ((tileOf s.dev t).core.ien &&& (tileOf s.dev t).core.ipend) k = true →
       (∀ j : Fin 3, j < k → bit ((tileOf s.dev t).core.ien &&& (tileOf s.dev t).core.ipend) j = false) →
       Completes (.interruptEntry t) s (fun u => tileOf u.dev t = enterException x 0x10 k 0 ∧
         (∀ q : TileId, q ≠ t → tileOf u.dev q = tileOf s.dev q)))) ∧
  (∀ (t : TileId) (w w2 : BitVec 32),
     majorAt w ∈ [0x00, 0x17, 0x1F, 0x26, 0x27, 0x35, 0x39, 0x3A, 0x3B, 0x3C, 0x3D, 0x3F] ∨ (majorAt w = 7 ∧ fld w 20 16 ≠ 0) →
       coreDecode t w w2 = .illegalInstruction t (guardAt w) (longAt w)) ∧
  (∀ (t : TileId) (w2 : BitVec 32), coreDecode t 0x98242980 w2 = .alu t ⟨true, 3⟩ 4 5 6 0 ∧
     coreDecode t 0x81E00000 w2 = .nop t ⟨true, 0⟩)

/-- Taking an exception or interrupt (R205): `epc` gets the pc of the instruction, `cause` the code and the sub-code,
`badaddr` the address for DALIGN, DRAWER, ACCESS and POISON only; `status` saves mode and interrupt enable and goes to
monitor mode with interrupts disabled; fetching goes on at `evec`, at `evec` + 0x40 for an interrupt, 6 tile cycles later;
every general register, predicate, accumulator and memory stays.
What an exception freezes and a return restores: with at most two loads in flight, at most two slots from landing, and
a product at most 33 slots from landing, an `eret` at once after the entry restores pc, mode, interrupt enable and every
write in flight with the slots it has left (R205, R206, R212). -/
def Obligations.ExceptionEntryAndReturn : Prop :=
  (∀ (x : Tile) (code sub : Nat) (bad : Word), code < 256 → sub < 256 →
     let y := enterException x code sub bad
     y.core.epc = x.core.pc ∧ y.core.cause = BitVec.ofNat 64 (code + 256 * sub) ∧
     y.core.badaddr = (if code = 5 ∨ code = 6 ∨ code = 7 ∨ code = 8 then bad else x.core.badaddr) ∧
     bit y.core.status 0 = true ∧ bit y.core.status 1 = false ∧
     bit y.core.status 2 = bit x.core.status 0 ∧ bit y.core.status 3 = bit x.core.status 1 ∧
     (∀ i, 4 ≤ i → bit y.core.status i = bit x.core.status i) ∧
     y.core.pc = x.core.evec + (if code = 0x10 then 0x40 else 0) ∧ y.core.loads = [] ∧ y.core.prod = none ∧
     y.core.cycle = countUp x.core.cycle 6 ∧
     (∀ r, getG y r = getG x r) ∧ y.core.p = x.core.p ∧ y.core.sv = x.core.sv ∧ y.core.plo = x.core.plo ∧
     y.core.phi = x.core.phi ∧ y.core.fcsr = x.core.fcsr ∧ y.core.sb = x.core.sb ∧ y.spad = x.spad ∧ y.lvu = x.lvu ∧
     y.me = x.me ∧ y.istore = x.istore) ∧
  (∀ (x : Tile) (code sub : Nat) (bad : Word), x.core.loads.length ≤ 2 →
     (∀ l ∈ x.core.loads, l.dst < 32 ∧ x.core.slot ≤ l.due ∧ l.due ≤ x.core.slot + 2) →
     (∀ p, x.core.prod = some p → x.core.slot ≤ p.due ∧ p.due ≤ x.core.slot + 33) →
     let y := returnException (enterException x code sub bad)
     y.core.pc = x.core.pc ∧ bit y.core.status 0 = bit x.core.status 0 ∧ bit y.core.status 1 = bit x.core.status 1 ∧
     y.core.loads = x.core.loads ∧ y.core.prod = x.core.prod ∧ (∀ r, getG y r = getG x r) ∧ y.core.p = x.core.p ∧
     y.core.plo = x.core.plo ∧ y.core.phi = x.core.phi)

/-! ### Control registers and the core from outside -/

/-- `mfc` copies a control register that is not reserved into gd, in monitor mode every one and in user mode those the
table lets users read, `vcsr` once the long-vector unit is idle, and a read of `mbox` clears its pending bit; `mtc` writes
`epc`, `evec`, `ctx`, `fcsr`, `ien`, `plo`, `mscratch0` in monitor mode as the table says and leaves the general registers;
either raises PRIV for a register user mode may not reach (R203, R209 to R212, R241). A write of TCB_CREG_DATA writes a
halted core's selected register and is an access error on one that runs (R216). -/
def Obligations.ControlRegisterAccessCompletes : Prop :=
  ∀ (s : State) (t : TileId) (gu : Guard),
    let x := tileIn s t
    (Issues s t gu 4 → ∀ (idx : Fin 64) (r : RegNo), cregReserved idx = false →
      ((isUser x = false ∨ cregUserReads idx = true) → idx ≠ 15 → (idx = 34 → x.lvu.queue = []) →
        exec (.mfc t gu r idx) s = .next (putTile s t (advance (setG x r (readCreg s.dev t x idx)) 4 1))) ∧
      (isUser x = false → Completes (.mfc t gu r 15) s (fun u =>
        (r ≠ 0 → getG (tileOf u.dev t) r = x.core.mbox) ∧ bit (tileOf u.dev t).core.ipend 1 = false ∧
        (tileOf u.dev t).core.pc = x.core.pc + 4 ∧ u = putTile s t (tileOf u.dev t))) ∧
      (isUser x = true → cregUserReads idx = false →
        exec (.mfc t gu r idx) s = .next (putTile s t (enterException x 2 0 0))) ∧
      (cregRefuses idx (getG x r) = false → isUser x = true → cregUserWrites idx = false →
        exec (.mtc t gu idx r) s = .next (putTile s t (enterException x 2 0 0))) ∧
      (cregRefuses idx (getG x r) = false → isUser x = false →
        Completes (.mtc t gu idx r) s (fun u =>
          (tileOf u.dev t).core.epc = (if idx = 1 then getG x r else x.core.epc) ∧
          (tileOf u.dev t).core.cause = x.core.cause ∧
          (tileOf u.dev t).core.evec = (if idx = 4 then setFld (getG x r) 5 0 0 else x.core.evec) ∧
          (tileOf u.dev t).core.mscratch0 = (if idx = 5 then getG x r else x.core.mscratch0) ∧
          (tileOf u.dev t).core.ctx = (if idx = 7 then BitVec.ofNat 64 ((getG x r).toNat % 2 ^ 8) else x.core.ctx) ∧
          (tileOf u.dev t).core.fcsr = (if idx = 8 then BitVec.ofNat 64 ((getG x r).toNat % 2 ^ 8) else x.core.fcsr) ∧
          (tileOf u.dev t).core.ien = (if idx = 13 then BitVec.ofNat 64 ((getG x r).toNat % 2 ^ 3) else x.core.ien) ∧
          (tileOf u.dev t).core.plo = (if idx = 24 then getG x r else x.core.plo) ∧
          (tileOf u.dev t).core.pc = x.core.pc + 4 ∧ (∀ q, getG (tileOf u.dev t) q = getG x q) ∧
          (tileOf u.dev t).core.p = x.core.p ∧ (tileOf u.dev t).spad = x.spad ∧ u = putTile s t (tileOf u.dev t)))) ∧
    (∀ v : Word, Completes (.cregDataWrite t v) s (fun u =>
      let y := tileOf s.dev t
      u = putTile s t (tileOf u.dev t) ∧
      (y.core.halted = false → tileOf u.dev t = { y with core := { y.core with accessErr := true } }) ∧
      (y.core.halted = true → fld y.core.cregSel 6 0 = 1 →
        tileOf u.dev t = { y with core := { y.core with epc := v } }) ∧
      (y.core.halted = true → fld y.core.cregSel 6 0 = 65 →
        tileOf u.dev t = { y with core := { y.core with halt := { y.core.halt with ld0 := v } } })))

/-- What acts on a core from outside: a doorbell writes the mailbox and sets pending bit 1 (R208); a quiesce interrupt sets
bit 2; a timer that `ctime` has reached sets bit 0 (R207); a halt at a slot boundary freezes the delay state, one of a core
that stalls or waits for data only clears RUN, and the instruction that stalled issues before the core halts; a resume goes
on at TCB_CORE_PC with the frozen delay state, and RUN set on a core that is not halted lets it run (R206, R215); a core reset
leaves core, engines and transfer channels as reset and keeps scratchpad and instruction store, but for the destination bytes
of transfer blocks in flight (R217 to R219, R411); a window write puts an aligned unit into the selected page of the
instruction store (R214). No other tile changes. -/
def Obligations.CoreControlCompletes : Prop :=
  ∀ (s : State) (t : TileId),
    let y := tileOf s.dev t
    (∀ msg : BitVec 32, exec (.tcbDoorbell t msg) s = .next (putTile s t { y with core := { y.core with
      mbox := msg.zeroExtend 64, ipend := setBit y.core.ipend 1 true } })) ∧
    exec (.quiesceInterrupt t) s = .next (putTile s t { y with core := { y.core with ipend := setBit y.core.ipend 2 true } }) ∧
    (y.core.tcmp.toNat ≤ ctimeOf s.dev t →
      exec (.timerInterruptPending t) s = .next (putTile s t { y with core := { y.core with ipend := setBit y.core.ipend 0 true } })) ∧
    (y.core.halted = false → y.core.wait = .none → y.core.stalled = false → Completes (.coreHalt t) s (fun u =>
      tileOf u.dev t = { landDue y with core := { (landDue y).core with
        run := false, halted := true, halt := freezeDelay (landDue y), loads := [], prod := none, pq := []
        corePc := BitVec.ofNat 64 (y.core.pc.toNat % 2 ^ 17) } } ∧
      (∀ q : TileId, q ≠ t → tileOf u.dev q = tileOf s.dev q))) ∧
    (y.core.halted = false → (y.core.stalled = true ∨ ∃ l, y.core.wait = .load l) →
      exec (.coreHalt t) s = .next (putTile s t { y with core := { y.core with run := false } })) ∧
    (∀ gu : Guard, s.dev.hold = false → canIssue y = true → y.core.run = false → fetchFault (landDue y) 4 false = none →
      Completes (.nop t gu) s (fun u =>
        (tileOf u.dev t).core.halted = true ∧ (tileOf u.dev t).core.run = false ∧
        (tileOf u.dev t).core.corePc = BitVec.ofNat 64 ((y.core.pc + 4).toNat % 2 ^ 17) ∧ u = putTile s t (tileOf u.dev t))) ∧
    (y.core.halted = true → exec (.coreResume t) s = .next (putTile s t { y with core := { y.core with
      run := true, halted := false, loads := thawLoads y.core.halt y.core.slot, prod := thawProd y.core.halt y.core.slot
      halt := .empty, pc := y.core.corePc, pq := [], fetchPc := y.core.corePc.toNat / 8 * 8 } })) ∧
    (y.core.halted = false →
      exec (.coreResume t) s = .next (putTile s t { y with core := { y.core with run := true } })) ∧
    Completes (.coreSreset t) s (fun u =>
      (tileOf u.dev t).core = CoreSt.reset ∧ (tileOf u.dev t).me = MeSt.reset ∧ (tileOf u.dev t).te = [] ∧
      (tileOf u.dev t).lvu = { LvuSt.reset with nlvl := y.lvu.nlvl } ∧
      ((∀ e ∈ y.te, ∀ k ∈ e.2.blks, k.asked = false) →
        tileOf u.dev t = { y with core := CoreSt.reset, me := MeSt.reset, te := []
                                  lvu := { LvuSt.reset with nlvl := y.lvu.nlvl }
                                  teStats := 0, teDiscarded := 0, teFilter := [], inject := [] } ∧
        (∀ q : TileId, q ≠ t → tileOf u.dev q = tileOf s.dev q))) ∧
    (∀ (off : Fin 4096) (size : Fin 9) (v : Word), size.val = 4 ∨ size.val = 8 → off.val % size.val = 0 →
      Completes (.istoreWinWrite t off size v) s (fun u =>
        mbytes 0 (tileOf u.dev t).istore (y.core.istorePage * 0x1000 + off) size = leBytes size v.toNat ∧
        (∀ a, (a < y.core.istorePage * 0x1000 + off ∨ y.core.istorePage * 0x1000 + off + size ≤ a) →
          mget 0 (tileOf u.dev t).istore a = mget 0 y.istore a) ∧
        (tileOf u.dev t).spad = y.spad ∧ (tileOf u.dev t).core = y.core ∧ u = putTile s t (tileOf u.dev t)))

/-! ### Loads, stores, fetching -/

/-- Scalar accesses of the tile's own scratchpad in monitor mode, at any alignment, to drawers the scalar port owns and that
are not being zeroed: a load with no buffered store on its bytes puts the little-endian bytes, extended as its form says, in
flight to gd for the slot three later, and changes nothing else of registers or memory; a store enters its bytes into the
store buffer, as one entry inside an aligned 8-byte word and as two across its end, and no byte of memory changes
(R186, R193, R195, R236).
Short-vector accesses of the tile's own scratchpad in monitor mode at an aligned address: a load writes the 32 or 64
bytes to the register; a store enters them as 4 or 8 entries of the store buffer, oldest address first (R247, R248). -/
def Obligations.OwnScratchpadAccessesComplete : Prop :=
  (∀ (s : State) (t : TileId) (gu : Guard) (off : Nat),
     let x := tileIn s t
     (∀ (op : Fin 7) (rd ra : RegNo), ownBytes x off (loadSize op) →
       x.core.sb.any (sbOverlaps t off (loadSize op)) = false → x.inject = [] →
       spadPoisoned x off (loadSize op) = false →
       let y := { x with core := { x.core with
         loads := x.core.loads ++ [⟨rd, loadExt op (leNat (spadGet x off (loadSize op))), x.core.slot + 3⟩] } }
       (∀ imm : BitVec 11, Issues s t gu 4 → getG x ra + imm.signExtend 64 = ownAddr t off →
         exec (.load t gu op rd ra imm) s = .next (putTile s t (advance y 4 1))) ∧
       (∀ imm : BitVec 32, Issues s t gu 8 → getG x ra + imm.signExtend 64 = ownAddr t off →
         exec (.longLoad t gu op rd ra imm) s = .next (putTile s t (advance y 8 1)))) ∧
     (∀ (op : Fin 4) (rs ra : RegNo), ownBytes x off (storeSize op) →
       x.core.sb.length + (ownEntries t off (storeSize op) (getG x rs).toNat).length ≤ 8 →
       let stored (u : State) (size : Nat) : Prop :=
         (tileOf u.dev t).core.sb = x.core.sb ++ ownEntries t off (storeSize op) (getG x rs).toNat ∧
         (∀ a, mget 0 (tileOf u.dev t).spad a = mget 0 x.spad a) ∧ (∀ r, getG (tileOf u.dev t) r = getG x r) ∧
         (tileOf u.dev t).core.p = x.core.p ∧ (tileOf u.dev t).core.pc = x.core.pc + BitVec.ofNat 64 size ∧
         u = putTile s t (tileOf u.dev t)
       (∀ imm : BitVec 11, Issues s t gu 4 → getG x ra + imm.signExtend 64 = ownAddr t off →
         Completes (.store t gu op rs ra imm) s (fun u => stored u 4)) ∧
       (∀ imm : BitVec 32, Issues s t gu 8 → getG x ra + imm.signExtend 64 = ownAddr t off →
         Completes (.longStore t gu op rs ra imm) s (fun u => stored u 8)))) ∧
  (∀ (s : State) (t : TileId) (gu : Guard) (full : Bool) (v : PredNo) (ra : RegNo) (imm : BitVec 10) (off : Nat),
     let x := tileIn s t
     let n := if full then 64 else 32
     Issues s t gu 4 → ownBytes x off n → off % n = 0 →
     getG x ra + imm.signExtend 64 * BitVec.ofNat 64 n = ownAddr t off →
     (x.core.sb.any (sbOverlaps t off n) = false → x.inject = [] → spadPoisoned x off n = false →
       exec (.svld t gu full v ra imm) s =
         .next (putTile s t (advance (setSv x v full (leNat (spadGet x off n))) 4 (n / 8)))) ∧
     (x.core.sb.length + n / 8 ≤ 8 → Completes (.svst t gu full v ra imm) s (fun u =>
       (tileOf u.dev t).core.sb = x.core.sb ++ (List.range (n / 8)).map (fun i =>
         (⟨.scratch t (off + 8 * i), 8, BitVec.ofNat 64 (elem (getSv x v) 64 i)⟩ : SbEntry)) ∧
       (∀ a, mget 0 (tileOf u.dev t).spad a = mget 0 x.spad a) ∧ (tileOf u.dev t).core.sv = x.core.sv ∧
       (tileOf u.dev t).core.pc = x.core.pc + 4 ∧ u = putTile s t (tileOf u.dev t))))

/-- What happens behind the core: the oldest store-buffer entry drains into its bytes of the scratchpad, and no other byte
changes (R195); a load in flight lands in its register in its slot (R186); data from host memory over a link without a
cache ends the wait of a load, which then is in flight (R188); the acknowledgement of the oldest store to host memory is taken
once it has been made there (R382); a good fetch word enters the prefetch queue (R182).
Corners the rules leave open are the model’s choices of log entries 12 and 58. -/
def Obligations.CoreBackgroundCompletes : Prop :=
  ∀ (s : State) (t : TileId),
    let x := tileOf s.dev t
    (∀ (off n : Nat) (v : Word) (r : List SbEntry), x.core.sb = ⟨.scratch t off, n, v⟩ :: r → x.inject = [] →
      Completes (.storeBufferDrain t) s (fun u =>
        spadGet (tileOf u.dev t) off n = leBytes n v.toNat ∧
        (∀ a, a < off ∨ off + n ≤ a → mget 0 (tileOf u.dev t).spad a = mget 0 x.spad a) ∧
        (tileOf u.dev t).core = { x.core with sb := r } ∧ (∀ q : TileId, q ≠ t → tileOf u.dev q = tileOf s.dev q))) ∧
    (∀ l : PendLoad, canIssue x = true → x.core.loads = [l] → x.core.slot ≤ l.due → l.dst ≠ 0 →
      Completes (.loadLands t) s (fun u =>
        getG (tileOf u.dev t) l.dst = l.val ∧ (∀ q, q ≠ l.dst → getG (tileOf u.dev t) q = getG x q) ∧
        (tileOf u.dev t).core.loads = [] ∧ (tileOf u.dev t).core.slot = l.due ∧ (tileOf u.dev t).core.pc = x.core.pc ∧
        u = putTile s t (tileOf u.dev t))) ∧
    (∀ (op rd a va size id : Nat) (v : List Byte), op < 7 → x.core.run = true →
      x.core.wait = .load ⟨op, rd, [(.host a, va, v.length)], size, id⟩ →
      (hportOf s.dev (tilePort s.dev t)).cache = false →
      Completes (.loadDataReturn t (.data v)) s (fun u =>
        (tileOf u.dev t).core.loads = x.core.loads ++ [⟨rd, loadExt op (leNat v), x.core.slot + 3⟩] ∧
        (tileOf u.dev t).core.wait = .none ∧ (tileOf u.dev t).core.pc = x.core.pc + BitVec.ofNat 64 size ∧
        (∀ q, getG (tileOf u.dev t) q = getG x q) ∧ (tileOf u.dev t).spad = x.spad)) ∧
    (∀ (a n : Nat) (v : Word) (r : List SbEntry), x.core.unacked = ⟨.host a, n, v⟩ :: r →
      hostPending s.dev (.store t) = false →
      exec (.remoteStoreAck t) s = .next (putTile s t { x with core := { x.core with unacked := r } })) ∧
    (x.core.run = true → x.core.halted = false → x.core.pq.length < 4 → x.core.fetchPc < 0x20000 → x.inject = [] →
      mget false x.istPoison (x.core.fetchPc / 8) = false →
      exec (.prefetchFetch t 0) s = .next (putTile s t { x with core := { x.core with
        pq := x.core.pq ++ [(x.core.fetchPc, BitVec.ofNat 64 (leNat (mbytes 0 x.istore x.core.fetchPc 8)), 0)]
        fetchPc := x.core.fetchPc + 8 } }))

/-! ### Short vectors -/

/-- Writing a short-vector register element by element: every element of the width reads what was written, cut to its
width; `.h` leaves bits [511:256] as they were; every other short-vector register, every general register and every
predicate is as before (R245, R246).
The short-vector instructions on registers: one that issues writes its elements to vd (or its scalar to gd), advances
by 4 with its occupancy, and changes nothing else (R249 to R253).
A corner the rules leave open is the model’s choice of log entry 41. -/
def Obligations.ShortVectorInstructionsComplete : Prop :=
  (∀ (x : Tile) (vd : PredNo) (full : Bool) (w : Nat) (f : Nat → Nat), w ∈ [8, 16, 32, 64] →
     let y := setSv x vd full (packElems w (svCount full w) f)
     (∀ i, i < svCount full w → elem (getSv y vd) w i = f i % 2 ^ w) ∧
     (full = false → ∀ i, 256 ≤ i → bit (getSv y vd) i = bit (getSv x vd) i) ∧
     (∀ v : PredNo, v ≠ vd → getSv y v = getSv x v) ∧ (∀ r, getG y r = getG x r) ∧ y.core.p = x.core.p ∧ y.spad = x.spad) ∧
  (∀ (s : State) (t : TileId) (gu : Guard), Issues s t gu 4 → ∀ (full : Bool) (et : Fin 8) (vd va vb : PredNo) (ra rd : RegNo),
     let x := tileIn s t
     let a := getSv x va
     let b := getSv x vb
     let w := etWidth et
     let puts (w : Nat) (f : Nat → Nat) (occ : Nat) : State :=
       putTile s t (advance (setSv x vd full (packElems w (svCount full w) f)) 4 occ)
     (∀ fn : Fin 32, svIntIllegal fn et = false → (fn.val < 0x0B ∨ 0x0F < fn.val) →
       exec (.svInt t gu full et fn vd va vb) s =
         .next (puts w (fun i => svIntElem fn w (elem a w i) (elem b w i) (elem (getSv x vd) w i)) (if fn = 6 then 2 else 1))) ∧
     (∀ fn : Fin 32, 0x0B ≤ fn.val → fn.val ≤ 0x0F →
       exec (.svInt t gu full et fn vd va vb) s =
         .next (puts 64 (fun i => svIntElem fn 64 (elem a 64 i) (elem b 64 i) (elem (getSv x vd) 64 i)) 1)) ∧
     (∀ fn : Fin 32, fn ≠ 8 → svFpIllegal fn et vb = false → Completes (.svFp t gu full et fn vd va vb) s (fun u =>
       let r := gather w (svCount full w) (fun i => svFpElem fn (fld x.core.fcsr 2 0) (etFmt et) (elem a w i) (elem b w i)
         (elem (getSv x vd) w i))
       u = putTile s t (advance (accrueF (setSv x vd full r.1) r.2) 4 (svFpOcc fn)))) ∧
     exec (.vperm t gu full et vd va vb) s =
       .next (puts 8 (fun i => elem a 8 (elem b 8 i % (if full then 64 else 32))) (if full then 2 else 1)) ∧
     (et.val < 4 →
       exec (.vzipl t gu full et vd va vb) s =
         .next (puts w (fun i => elem (if i % 2 = 0 then a else b) w (i / 2)) 1) ∧
       exec (.vziph t gu full et vd va vb) s =
         .next (puts w (fun i => elem (if i % 2 = 0 then a else b) w (i / 2 + svCount full w / 2)) 1) ∧
       exec (.vrsum t gu full et rd va 0) s =
         .next (putTile s t (advance (setG x rd (BitVec.ofNat 64
           ((List.range (svCount full w)).foldl (fun n i => n + elem a w i) 0))) 4 (if full then 3 else 2)))) ∧
     exec (.svVbcast t gu full et vd ra 0) s = .next (puts w (fun _ => (getG x ra).toNat) 1) ∧
     (∀ idx : Fin 64, idx.val < svCount full w →
       exec (.vins t gu full et vd ra idx) s =
         .next (puts w (fun i => if i = idx.val then (getG x ra).toNat else elem (getSv x vd) w i) 1) ∧
       exec (.vext t gu full et rd va idx) s =
         .next (putTile s t (advance (setG x rd (BitVec.ofNat 64 (elem a w idx))) 4 1))) ∧
     (∀ (lw : Bool) (ty : Fin 4), ty.val < 3 →
       let e := if ty.val = 2 then 16 else 8
       let l := if lw then 64 else 32
       let val (v : SvWord) (i : Nat) : Int := if ty.val = 1 then toSigned e (elem v e i) else (elem v e i : Int)
       let sad (j : Nat) : Nat :=
         (List.range (l / e)).foldl (fun n k => n + (val a (j * (l / e) + k) - val b (j * (l / e) + k)).natAbs) 0
       exec (.vsad t gu full lw ty vd va vb) s = .next (puts l sad (if full then 2 else 1)) ∧
       exec (.vsada t gu full lw ty vd va vb) s =
         .next (puts l (fun j => if lw then (elem (getSv x vd) 64 j + sad j) % 2 ^ 64
           else min (elem (getSv x vd) 32 j + sad j) (2 ^ 32 - 1)) (if full then 2 else 1))))

/-! ### The long-vector unit -/

/-- A long-vector register instruction that issues while the unit takes instructions enters the unit's queue with what it
captured, and the core goes on after one slot; nothing else changes (R260, R261, R268).
A long-vector memory instruction, `spload` among them, issues the same way once every earlier scalar store has drained
(R199, R261, R269, R283); it moves no byte yet. -/
def Obligations.LongVectorInstructionsQueue : Prop :=
  (∀ (s : State) (t : TileId) (gu : Guard), Issues s t gu 4 →
     let x := tileIn s t
     x.lvu.spin = false → lvDropping x = false → x.lvu.queue.length < 16 →
     let q (e : LvEntry) : Host.Outcome State Fault Refusal :=
       .next (putTile s t (advance { x with lvu := { x.lvu with queue := x.lvu.queue ++ [e] } } 4 1))
     ∀ (vd va vb ra : RegNo) (vm : Fin 8),
       (∀ fn, exec (.lvInteger t gu fn vd va vb vm) s = q (lvCapture x 0x28 fn vd va vb vm 0 0)) ∧
       (∀ fn, exec (.lvLogicShift t gu fn vd va vb vm) s = q (lvCapture x 0x29 fn vd va vb vm 0 0)) ∧
       (∀ ty : Fin 8, x.lvu.vl ≤ 16384 / etWidth ty →
         exec (.vcvtI t gu vd va ty vm) s = q (lvCapture x 0x29 7 vd va (ty + 8) vm 0 0) ∧
         (fpAtSew0 x = false → exec (.vcvt t gu vd va ty vm) s = q (lvCapture x 0x29 7 vd va ty vm 0 0))) ∧
       (∀ fn, fpAtSew0 x = false → (fn = 4 → vb = 0) →
         exec (.lvFloat t gu fn vd va vb vm) s = q (lvCapture x 0x2A fn vd va vb vm 0 0)) ∧
       (∀ fn, vd.val < 8 → (4 ≤ fn.val → fpAtSew0 x = false) →
         exec (.lvCompare t gu fn vd va vb vm) s = q (lvCapture x 0x2B fn vd va vb vm 0 0)) ∧
       exec (.lvVbcast t gu vd ra vm) s = q (lvCapture x 0x2D 0 vd 0 0 vm (getG x ra) 0) ∧
       exec (.vmv t gu vd va vm) s = q (lvCapture x 0x2D 1 vd va 0 vm 0 0) ∧
       exec (.vmsf t gu vd ra) s = q (lvCapture x 0x2D 3 vd 0 0 0 (getG x ra) 0) ∧
       (vb.val < 8 → exec (.vcompress t gu vd va vb) s = q (lvCapture x 0x2D 6 vd va vb 0 0 0)) ∧
       exec (.vid t gu vd vm) s = q (lvCapture x 0x2D 7 vd 0 0 vm 0 0) ∧
       (fpAtSew0 x = false →
         exec (.vexp t gu vd va vm) s = q (lvCapture x 0x2E 0 vd va 0 vm 0 0) ∧
         exec (.vlog t gu vd va vm) s = q (lvCapture x 0x2E 1 vd va 0 vm 0 0) ∧
         exec (.vrcp t gu vd va vm) s = q (lvCapture x 0x2E 2 vd va 0 vm 0 0) ∧
         exec (.vrsqrt t gu vd va vm) s = q (lvCapture x 0x2E 3 vd va 0 vm 0 0) ∧
         exec (.vtanh t gu vd va vm) s = q (lvCapture x 0x2E 4 vd va 0 vm 0 0) ∧
         exec (.vmaxr t gu vd va vm) s = q (lvCapture x 0x2E 5 vd va 0 vm 0 0) ∧
         exec (.vsumr t gu vd va vm) s = q (lvCapture x 0x2E 6 vd va 0 vm 0 0) ∧
         exec (.vsoftmax t gu vd va vm) s = q (lvCapture x 0x2E 7 vd va 0 vm 0 0)) ∧
       (vd.val < 8 → va.val < 8 → vb.val < 8 →
         exec (.vmand t gu vd va vb) s = q (lvCapture x 0x2F 2 vd va vb 0 0 0) ∧
         exec (.vmor t gu vd va vb) s = q (lvCapture x 0x2F 3 vd va vb 0 0 0) ∧
         exec (.vmxor t gu vd va vb) s = q (lvCapture x 0x2F 4 vd va vb 0 0 0) ∧
         exec (.vmandn t gu vd va vb) s = q (lvCapture x 0x2F 5 vd va vb 0 0 0))) ∧
  (∀ (s : State) (t : TileId) (gu : Guard), Issues s t gu 4 →
     let x := tileIn s t
     x.lvu.spin = false → lvDropping x = false → x.lvu.queue.length < 16 → storesDrained x = true →
     let q (e : LvEntry) : Host.Outcome State Fault Refusal :=
       .next (putTile s t (advance { x with lvu := { x.lvu with queue := x.lvu.queue ++ [e] } } 4 1))
     ∀ (vd ra rb : RegNo) (vm : Fin 8),
       exec (.vld t gu vd ra vm) s = q (lvCapture x 0x2C 0 vd 0 0 vm (getG x ra) 0) ∧
       exec (.vlds t gu vd ra rb vm) s = q (lvCapture x 0x2C 1 vd 0 0 vm (getG x ra) (getG x rb)) ∧
       exec (.vldx t gu vd ra rb vm) s = q (lvCapture x 0x2C 2 vd 0 rb vm (getG x ra) 0) ∧
       exec (.vst t gu vd ra vm) s = q (lvCapture x 0x2C 3 vd 0 0 vm (getG x ra) 0) ∧
       exec (.vsts t gu vd ra rb vm) s = q (lvCapture x 0x2C 4 vd 0 0 vm (getG x ra) (getG x rb)) ∧
       exec (.vstx t gu vd ra rb vm) s = q (lvCapture x 0x2C 5 vd 0 rb vm (getG x ra) 0) ∧
       (vd.val < 8 → exec (.vlm t gu vd ra) s = q (lvCapture x 0x2C 6 vd 0 0 0 (getG x ra) 0) ∧
         exec (.vsm t gu vd ra) s = q (lvCapture x 0x2C 7 vd 0 0 0 (getG x ra) 0)) ∧
       exec (.spload t gu ra rb) s = q (lvCapture x 0x38 0 0 0 0 0 (getG x ra) (getG x rb)))

/-- SETVL writes vl, vtype and gd with the smaller of ga and VLMAX, or only zero to gd while instructions are dropped; where
the unit is idle and no error is recorded,
VMFS, VFIRST and VPOPC return element 0, the lowest active set bit or all ones, and the count of active set bits; VSYNC
only advances (R259, R263, R266, R272, R276). -/
def Obligations.LongVectorScalarFormsComplete : Prop :=
  ∀ (s : State) (t : TileId) (gu : Guard), Issues s t gu 4 → ∀ (rd ra va : RegNo) (vm : Fin 8),
    let x := tileIn s t
    (∀ (sew : Fin 4) (alt : Bool), (alt = true → sew = 1) → lvDropping x = true →
      exec (.setvl t gu rd ra sew alt) s = .next (putTile s t (advance (setG x rd 0) 4 1))) ∧
    (∀ (sew : Fin 4) (alt : Bool), (alt = true → sew = 1) → lvDropping x = false →
      let vl := min (getG x ra).toNat (2048 / 2 ^ sew.val)
      exec (.setvl t gu rd ra sew alt) s = .next (putTile s t (advance
        (setG { x with lvu := { x.lvu with vl := vl, vtype := sew + (if alt then 4 else 0) } } rd (BitVec.ofNat 64 vl)) 4 1))) ∧
    (x.lvu.spin = false → lvIdle x = true →
      exec (.vsync t gu) s = .next (putTile s t (advance x 4 1)) ∧
      (lvDropping x = false →
        let act (i : Nat) : Bool := decide (i < x.lvu.vl) && (vm.val == 0 || (getVm x vm).getLsbD i) && (getVm x va).getLsbD i
        exec (.vmfs t gu rd va) s =
          .next (putTile s t (advance (setG x rd (BitVec.ofNat 64 (elem (getV x va) (8 * 2 ^ (x.lvu.vtype % 4)) 0))) 4 1)) ∧
        (va.val < 8 →
          exec (.vpopc t gu rd va vm) s =
            .next (putTile s t (advance (setG x rd (BitVec.ofNat 64 ((List.range x.lvu.vl).countP act))) 4 1)) ∧
          ((∀ i, act i = false) → exec (.vfirst t gu rd va vm) s =
            .next (putTile s t (advance (setG x rd (BitVec.allOnes 64)) 4 1))) ∧
          (∀ i, act i = true → (∀ j, j < i → act j = false) → exec (.vfirst t gu rd va vm) s =
            .next (putTile s t (advance (setG x rd (BitVec.ofNat 64 i)) 4 1))))))

/-- The elements a long-vector instruction writes: the active ones get the value computed, cut to the element width; the
others, every other vector register, every mask, the core and the scratchpad are as before (R263).
The unit starts the instruction at the head of its queue: a register instruction has its effect and leaves the queue.
For the integer majors the effect is the masked write of the element function; the core, the scratchpad and every register
but vd are as before (R261, R263, R266). -/
def Obligations.LongVectorStartComputes : Prop :=
  (∀ (x : Tile) (e : LvEntry) (f : Nat → Nat × Nat),
     let w := 8 * 2 ^ (e.vtype % 4)
     let y := lvMap x e f
     (∀ i, i < 16384 / w → elem (getV y e.vd) w i =
       if i < e.vl ∧ (e.vm = 0 ∨ (getVm x e.vm).getLsbD i = true) then (f i).1 % 2 ^ w else elem (getV x e.vd) w i) ∧
     (∀ r, r ≠ e.vd → getV y r = getV x r) ∧ (∀ m, getVm y m = getVm x m) ∧ y.core = x.core ∧ y.spad = x.spad ∧
     y.me = x.me ∧ y.dr = x.dr ∧ y.lvu.vl = x.lvu.vl ∧ y.lvu.queue = x.lvu.queue) ∧
  (∀ (s : State) (t : TileId) (e : LvEntry) (r : List LvEntry),
     let x := tileOf s.dev t
     x.lvu.queue = e :: r → s.dev.hold = false → lvDropping x = false → e.vl ≠ 0 →
     (lvMem e = none → Completes (.lvStart t) s (fun u =>
       let y := lvCompute (tileNative s.dev t) x e
       u = putTile s t { y with lvu := { y.lvu with queue := r } })) ∧
     (e.major = 0x28 ∨ e.major = 0x29 ∧ e.fn ≠ 7 → Completes (.lvStart t) s (fun u =>
       let y := tileOf u.dev t
       let w := 8 * 2 ^ (e.vtype % 4)
       let val (i : Nat) : Nat :=
         let a := elem (getV x e.va) w i
         let b := elem (getV x e.vb) w i
         if e.major = 0x28 then lvIntElem e.fn w a b else lvLogicElem e.fn w a b
       (∀ i, i < 16384 / w → elem (getV y e.vd) w i =
         if i < e.vl ∧ (e.vm = 0 ∨ (getVm x e.vm).getLsbD i = true) then val i % 2 ^ w else elem (getV x e.vd) w i) ∧
       (∀ k, k ≠ e.vd → getV y k = getV x k) ∧ (∀ m, getVm y m = getVm x m) ∧ y.core = x.core ∧ y.spad = x.spad ∧
       y.lvu.queue = r ∧ u = putTile s t y)))

/-! ### Spindle mode -/

/-- Entering and leaving spindle mode from the scalar core. With every earlier store performed, the unit idle and no error
recorded, SPENTER starts all 32 spindles at ga[13:0] and SPRESUME those recorded STOPPED at their recorded PC, capturing
context, mode and rounding; SPEXIT gives 0 while a spindle runs and else ends the mode and gives 1; SPSTOP, and the stop
bit of TCB_LVU_CTRL, halt every running spindle where it stands as STOPPED (R284, R285, R286, R289).
A running spindle whose guard is true executes one instruction at its PC: of its own three, `sphalt` halts it behind
itself, `sid` puts its number into td, `sparrive` adds 1 to a dowel of the tile; from the stream, an add-immediate word
(major 0x02) and a long load-immediate (major 0x3E, function 0) write td and advance by their size. No other t register,
no spindle's state but its own, no general register and no byte of the scratchpad changes (R278 to R282).
Corners the rules leave open are the model’s choices of log entries 43 and 67. -/
def Obligations.SpindleInstructionsComplete : Prop :=
  (∀ (s : State) (t : TileId) (gu : Guard) (rd ra : RegNo),
     (Issues s t gu 4 →
       let x := tileIn s t
       (x.lvu.spin = false → storesDrained x = true → lvIdle x = true → lvDropping x = false →
         let entered (u : State) (lane : SpinSt → SpinSt) : Prop :=
           let y := tileOf u.dev t
           (∀ l, l < 32 → laneOf y l = lane (laneOf x l)) ∧
           y = { advance x 4 1 with lvu := { x.lvu with
                   spin := true, stopped := false, flags := 0, capCtx := fld x.core.ctx 7 0, capUser := isUser x
                   capRm := fld x.lvu.vcsr 2 0, lanes := y.lvu.lanes } } ∧ u = putTile s t y
         Completes (.spenter t gu ra) s (fun u => entered u (fun _ => ⟨fld (getG x ra) 13 0, 4, 0⟩)) ∧
         Completes (.spresume t gu) s (fun u => entered u (fun z => if z.st = 0 then { z with st := 4 } else z))) ∧
       (x.lvu.spin = true → lvDropping x = false →
         ((∃ l, l < 32 ∧ (laneOf x l).st = 4) →
           exec (.spexit t gu rd) s = .next (putTile s t (advance (setG x rd 0) 4 1))) ∧
         ((∀ l, l < 32 → (laneOf x l).st ≠ 4) → Completes (.spexit t gu rd) s (fun u =>
           let y := tileOf u.dev t
           y.lvu.spin = false ∧ (∀ r, getG y r = if r = rd.val ∧ r ≠ 0 then 1 else getG x r) ∧ y.lvu.v = x.lvu.v ∧
           y.lvu.vm = x.lvu.vm ∧ (∀ l, l < 32 → laneOf y l = { laneOf x l with pc := (laneOf x l).pc % 2 ^ 14 }) ∧
           y.core.pc = x.core.pc + 4 ∧ y.spad = x.spad ∧ u = putTile s t y)) ∧
         Completes (.spstop t gu) s (fun u =>
           let y := tileOf u.dev t
           y.lvu.spin = false ∧ y.lvu.stopped = true ∧
           (∀ l, l < 32 → laneOf y l = (if (laneOf x l).st = 4 then ⟨(laneOf x l).pc % 2 ^ 14, 0, 0⟩
             else { laneOf x l with pc := (laneOf x l).pc % 2 ^ 14 })) ∧
           (∀ r, getG y r = getG x r) ∧ y.lvu.v = x.lvu.v ∧ y.core.pc = x.core.pc + 4 ∧ y.spad = x.spad ∧
           (∀ q : TileId, q ≠ t → tileOf u.dev q = tileOf s.dev q)))) ∧
     (let x := tileOf s.dev t
      x.lvu.spin = true → Completes (.tcbSpstop t) s (fun u =>
       let y := tileOf u.dev t
       y.lvu.spin = false ∧ y.lvu.stopped = true ∧
       (∀ l, l < 32 → laneOf y l = (if (laneOf x l).st = 4 then ⟨(laneOf x l).pc % 2 ^ 14, 0, 0⟩
         else { laneOf x l with pc := (laneOf x l).pc % 2 ^ 14 })) ∧
       y.lvu.v = x.lvu.v ∧ y.core = x.core ∧ y.spad = x.spad ∧
       (∀ q : TileId, q ≠ t → tileOf u.dev q = tileOf s.dev q)))) ∧
  (∀ (s : State) (t : TileId) (lane : Fin 32) (gu : Guard) (td ta : RegNo),
     let x := tileOf s.dev t
     let z := laneOf x lane
     s.dev.hold = false → x.lvu.spin = true → z.st = 4 → z.pc < 0x4000 → z.pc % 4 = 0 →
     let wrote (u : State) (rd : Nat) (v : Word) (size : Nat) : Prop :=
       let y := tileOf u.dev t
       (∀ (l r : Nat), l < 32 → r < 32 → getT y l r = if l = lane.val ∧ r = rd ∧ r ≠ 0 then v else getT x l r) ∧
       (∀ l, l < 32 → laneOf y l = if l = lane.val then { z with pc := z.pc + size } else laneOf x l) ∧
       y.lvu.vm = x.lvu.vm ∧ y.core = x.core ∧ y.spad = x.spad ∧ y.lvu.spin = true ∧ u = putTile s t y
     (gu.pred.val < 8 → getQ x lane gu.pred ≠ gu.neg →
       exec (.sphalt t lane gu) s = .next (putTile s t (setLane x lane { z with st := 1, pc := z.pc + 4 })) ∧
       Completes (.sid t lane gu td) s (fun u => wrote u td (BitVec.ofNat 64 lane) 4) ∧
       (let idx := fld (getT x lane ta) 8 0
        dowelCount s.dev t idx + 1 < 2 ^ 32 → Completes (.sparrive t lane gu ta) s (fun u =>
         dowelCount u.dev t idx = dowelCount s.dev t idx + 1 ∧
         (∀ k, k ≠ dowelKey t idx → mget 0 u.dev.dowels k = mget 0 s.dev.dowels k) ∧
         tileOf u.dev t = setLane x lane { z with pc := z.pc + 4 }))) ∧
     (let w := sbufWord x z.pc
      fld w 30 27 < 8 → getQ x lane (fld w 30 27) ≠ bit w 31 →
       (fld w 26 21 = 0x02 → Completes (.spindleInstruction t lane) s (fun u =>
         wrote u (fld w 20 16) (getT x lane (fld w 15 11) + sext64 11 (fld w 10 0)) 4)) ∧
       (fld w 26 21 = 0x3E → fld w 10 5 = 0 → fld w 4 0 = 0 → z.pc % 8 = 0 →
         Completes (.spindleInstruction t lane) s (fun u =>
           wrote u (fld w 20 16) ((sbufWord x (z.pc + 4)).signExtend 64) 8))))

/-- The window onto the vector registers while the core is halted, the unit idle and not in spindle mode: a read answers
the little-endian bytes of the selected register, a write replaces exactly those bytes (R289).
The window onto the accumulators with the engine idle: a read answers the bytes shown, a write replaces those bytes of
the selected accumulator only (R318). -/
def Obligations.EngineWindowsComplete : Prop :=
  (∀ (s : State) (t : TileId) (off : Fin 2048) (size : Fin 9) (w : Word),
     let x := tileOf s.dev t
     let n := min size.val (2048 - off.val)
     x.core.halted = true → lvIdle x = true → x.lvu.spin = false → x.lvu.vregSel < 32 →
     let v := (getV x x.lvu.vregSel).toNat
     exec (.vregWinAccess t off size none) s =
       .next (withDev s (send s.dev (.hostReply (leBytes n (v / 2 ^ (8 * off.val))) false))) ∧
     Completes (.vregWinAccess t off size (some w)) s (fun u =>
       let y := tileOf u.dev t
       (∀ i, i < 2048 → elem (getV y x.lvu.vregSel) 8 i =
         if off.val ≤ i ∧ i < off.val + n then elem w 8 (i - off.val) else elem (getV x x.lvu.vregSel) 8 i) ∧
       (∀ r, r ≠ x.lvu.vregSel → getV y r = getV x r) ∧ y.core = x.core ∧ y.spad = x.spad ∧ u = putTile s t y)) ∧
  (∀ (s : State) (t : TileId) (off : Fin 4096) (size : Fin 9) (w : Word),
     let x := tileOf s.dev t
     let n := min size.val (4096 - off.val)
     meIdle x = true → x.me.sel < 4 →
     exec (.maccWinAccess t off size none) s =
       .next (withDev s (send s.dev (.hostReply ((List.range n).map (fun k => maccByte x (off + k))) false))) ∧
     Completes (.maccWinAccess t off size (some w)) s (fun u =>
       let y := tileOf u.dev t
       (∀ i, i < 4096 → maccByte y i =
         if off.val ≤ i ∧ i < off.val + n then BitVec.ofNat 8 (elem w 8 (i - off.val)) else maccByte x i) ∧
       (∀ m i j, i < 32 → j < 32 → m ≠ x.me.sel → accGet y m i j = accGet x m i j) ∧
       y.me.scale = x.me.scale ∧ y.core = x.core ∧ y.spad = x.spad ∧ y.me.sel = x.me.sel))

/-! ### The matrix engine -/

/-- A matrix-engine command that issues, once the scalar and long-vector stores before it are performed, takes the next
ISSUED number and enters the engine's queue with what it captured; MSYNC with the engine idle only advances (R293, R296 to
R299).
The engine starts the command at the head of its queue, and ends the one that runs: MZERO and MZERO.P touch no memory,
pass every check and clear every element of one accumulator or of a pair, and no other (R294, R295, R299, R309). A command
whose fields R309 forbids fails with FORMAT: the error is recorded and every queued command is dropped (R313). -/
def Obligations.MatrixEngineCompletes : Prop :=
  (∀ (s : State) (t : TileId) (gu : Guard), Issues s t gu 4 →
     let x := tileIn s t
     (meIdle x = true → exec (.msync t gu) s = .next (putTile s t (advance x 4 1))) ∧
     (storesDrained x = true → lvStoresDone x = true → bit x.core.engErr 1 = false → x.me.queue.length < 8 →
       let q (c : MeCmd) : Host.Outcome State Fault Refusal :=
         .next (putTile s t (advance { x with me := { x.me with issued := x.me.issued + 1, queue := x.me.queue ++ [c] } } 4 1))
       ∀ (ra rb rc : RegNo) (acc : Fin 4) (dw : Bool),
         exec (.mma t gu ra rb rc acc dw) s = q (meCapture x 0 (getG x ra) (getG x rb) (getG x rc) acc dw) ∧
         exec (.mstore t gu ra rc acc dw) s = q (meCapture x 1 (getG x ra) 0 (getG x rc) acc dw) ∧
         exec (.mscale t gu ra rc dw) s = q (meCapture x 2 (getG x ra) 0 (getG x rc) 0 dw) ∧
         exec (.mzero t gu acc dw) s = q (meCapture x 3 0 0 0 acc dw) ∧
         (acc.val % 2 = 0 → exec (.mzeroP t gu acc dw) s = q (meCapture x 4 0 0 0 acc dw)))) ∧
  (∀ (s : State) (t : TileId) (c : MeCmd) (r : List MeCmd),
     let x := tileOf s.dev t
     (x.me.run = none → x.me.queue = c :: r → s.dev.hold = false →
       (3 ≤ c.kind → unitWaits s.dev (.me t) = false → exec (.meCommandStart t) s =
         .next (putTile s t { x with me := { x.me with run := some (c, []), queue := r } })) ∧
       (meFormatBad c = true → Completes (.meCommandStart t) s (fun u =>
         let y := tileOf u.dev t
         y.me.queue = [] ∧ y.me.run = none ∧ bit y.core.engErr 1 = true ∧ y.me.acc = x.me.acc ∧ y.spad = x.spad))) ∧
     (∀ pages, x.me.run = some (c, pages) → 3 ≤ c.kind → c.kind ≤ 4 → c.dw = false → c.acc < 4 →
       s.dev.knots.due.contains (physOf s.dev t) = false →
       ∀ corr : Nat, Completes (.meCommandComplete t corr none) s (fun u =>
         let y := tileOf u.dev t
         (∀ n i j, i < 32 → j < 32 → accGet y n i j =
           if n = c.acc ∨ c.kind = 4 ∧ n = c.acc + 1 then 0 else accGet x n i j) ∧
         y.me.run = none ∧ y.me.queue = x.me.queue ∧ y.me.scale = x.me.scale ∧ y.core = x.core ∧ y.spad = x.spad ∧
         u = putTile s t y)))

/-- What an MMA writes: every element of the M × N corner of its accumulator is the old element with the groups of the
two rows added in ascending order; every other element, every scale, the core and the scratchpad are as before. With FP64
operands the accumulator is a pair (R300, R303, R329). -/
def Obligations.MatrixMultiplyWrites : Prop :=
  ∀ (x : Tile) (c : MeCmd) (pages : List (Nat × Nat)),
    let pair := fmtA c.c == 0
    let bytes (f : Nat) : Nat := meK c.c * meBits ((meElem f).getD 0) / 8
    let rowA (i : Nat) := rowNat x pages ((c.a.toNat + 16 * i * meAstr c) % 2 ^ 64) (bytes (fmtA c.c))
    let rowB (j : Nat) := rowNat x pages ((c.b.toNat + 16 * j * meBstr c) % 2 ^ 64) (bytes (fmtB c.c))
    let y := mmaRun x c pages
    (∀ i j, i < mmaM c.c → j < mmaN c.c →
      accRead y pair c.acc i j = mmaElem x c (rowA i) (rowB j) i j % 2 ^ (if pair then 64 else 32)) ∧
    (∀ n i j, i < 32 → j < 32 → (mmaM c.c ≤ i ∨ mmaN c.c ≤ j ∨ n ≠ c.acc ∧ (pair = true → n ≠ c.acc + 1)) →
      accGet y n i j = accGet x n i j) ∧
    y.me.scale = x.me.scale ∧ y.core = x.core ∧ y.spad = x.spad ∧ y.lvu = x.lvu ∧ y.dr = x.dr

/-! ### Drawers -/

/-- Drawer ownership and zeroing. A write of TCB_DRAWER_OWN stores its 14 bits; one that would move a drawer whose
owner is locked only sets REJECT; one that moves the owning context makes the drawer wait for zeroing unless it is clean
(R358, R361, R364). Zeroing starts at the lowest drawer that waits once nothing checked before is still to be performed,
clears its 0x80000 bytes and no other, and at its end the drawer is clean and waits no more (R362).
Behind the drawers: the oldest store of a tile on its way to another enters the target's scratchpad at its address, byte by
byte, unless the drawer is being zeroed, and one that the target's ownership refuses is recorded there and changes no byte
(R66, R355, R365, R366); the patrol scrubber reads the next word of a bank and goes on, counting a pass when all 24
banks are through (R369); the oldest corrected word is written back, its bytes unchanged (R369).
Corners the rules leave open are the model’s choices of log entries 45 and 69. -/
def Obligations.DrawersComplete : Prop :=
  (∀ (s : State) (t : TileId) (d : Fin 6),
     let x := tileOf s.dev t
     (∀ v : Word,
       let old := drawerOwn x d
       let moves := fld old 13 5 ≠ fld v 13 5
       (bit old 4 = true → moves → exec (.drawerOwnWrite t d v) s =
         .next (putTile s t { x with dr := { x.dr with reject := true } })) ∧
       (bit old 4 = false ∨ ¬ moves → Completes (.drawerOwnWrite t d v) s (fun u =>
         let y := tileOf u.dev t
         (∀ k, drawerOwn y k = if k = d.val then BitVec.ofNat 64 (v.toNat % 2 ^ 14) else drawerOwn x k) ∧
         (∀ k : Fin 6, y.dr.zeroing.getLsbD k = (x.dr.zeroing.getLsbD k || decide (k = d ∧ moves ∧ x.dr.clean.getLsbD d = false))) ∧
         y.spad = x.spad ∧ y.core = x.core ∧ y.dr.clean = x.dr.clean ∧ u = putTile s t y))) ∧
     (x.dr.zeroRun = none → x.dr.zeroing.getLsbD d = true → (∀ k : Fin 6, k < d → x.dr.zeroing.getLsbD k = false) →
       drawerInUse s.dev t d = false → Completes (.drawerZeroingStart t) s (fun u =>
         let y := tileOf u.dev t
         (∀ a, mget 0 y.spad a = if d.val * 0x80000 ≤ a ∧ a < (d.val + 1) * 0x80000 then 0 else mget 0 x.spad a) ∧
         (∀ w, mget false y.dr.poison w =
           if d.val * 0x2000 ≤ w ∧ w < (d.val + 1) * 0x2000 then false else mget false x.dr.poison w) ∧
         y.dr.zeroRun = some d.val ∧ y.dr.zeroing = x.dr.zeroing ∧ y.core = x.core ∧ u = putTile s t y)) ∧
     (x.dr.zeroRun = some d.val → s.dev.knots.jobs = [] → s.dev.barq = [] → Completes (.drawerZeroingDone t) s (fun u =>
       let y := tileOf u.dev t
       y.dr.zeroRun = none ∧
       (∀ k : Fin 6, y.dr.zeroing.getLsbD k = (x.dr.zeroing.getLsbD k && decide (k ≠ d))) ∧
       (∀ k : Fin 6, y.dr.clean.getLsbD k = (x.dr.clean.getLsbD k || decide (k = d))) ∧
       y.spad = x.spad ∧ y.core = x.core ∧ u = putTile s t y))) ∧
  (∀ (s : State) (t src : TileId),
     let x := tileOf s.dev t
     (∀ m : PortReq, s.dev.mesh.find? (fun m => m.src == src.val && m.dst == t.val) = some m →
       zeroRunning x m.off = false → earlierSent s.dev src t m.ord = false →
       (transferMay x m.off = true → x.inject = [] → m.n ≠ 0 → Completes (.transferPortRequest t src) s (fun u =>
         let y := tileOf u.dev t
         spadGet y m.off m.n = leBytes m.n m.val.toNat ∧
         (∀ a, a < m.off ∨ m.off + m.n ≤ a → mget 0 y.spad a = mget 0 x.spad a) ∧ y.core = x.core ∧
         u.dev.mesh = s.dev.mesh.erase m ∧ (∀ q : TileId, q ≠ t → tileOf u.dev q = tileOf s.dev q))) ∧
       (transferMay x m.off = false → Completes (.transferPortRequest t src) s (fun u =>
         let y := tileOf u.dev t
         y = drawerFault x 5 m.off ∧ y.spad = x.spad ∧
         u = withDev s { (putTile s t y).dev with mesh := s.dev.mesh.erase m }))) ∧
     (∀ bank : Fin 24, x.dr.scrubDone.getLsbD bank = false → x.inject = [] → s.dev.knots.due.contains (physOf s.dev t) = false →
       let pos := mget 0 x.dr.scrubPos bank
       Completes (.scrubSlot t bank false 0) s (fun u =>
         let y := tileOf u.dev t
         (∀ k, mget 0 y.dr.scrubPos k = if k = bank.val then (if pos + 1 < 2048 then pos + 1 else 0) else mget 0 x.dr.scrubPos k) ∧
         (pos + 1 < 2048 → y.dr.scrubDone = x.dr.scrubDone ∧ y.dr.scrubPasses = x.dr.scrubPasses) ∧
         (2048 ≤ pos + 1 → (∀ k : Fin 24, k ≠ bank → x.dr.scrubDone.getLsbD k = true) →
           y.dr.scrubDone = 0 ∧ y.dr.scrubPasses = x.dr.scrubPasses + 1) ∧
         y.spad = x.spad ∧ y.dr.poison = x.dr.poison ∧ y.core = x.core)) ∧
     exec (.scrubWriteback t) s = .next (putTile s t { x with dr := { x.dr with wbPend := x.dr.wbPend.drop 1 } }))

/-! ### Dowels and clamps -/

/-- What an operation does to a dowel of the part that neither overflows nor wakes anyone: ARRIVE adds, SET replaces, RESET
clears COUNT; no other dowel and nothing else of the part changes (R373, R379). A waiter is woken exactly when its condition
holds (R384). -/
def Obligations.DowelOperationEffect : Prop :=
  ∀ (d : Dev) (tile idx v : Nat),
    let ready (n : Nat) (w : DowelWaiter) : Bool := w.tile == tile && w.idx == idx && decide (w.n ≤ n)
    let done (e : Dev) (n : Nat) : Prop := dowelCount e tile idx = n ∧
      (∀ k, k ≠ dowelKey tile idx → mget 0 e.dowels k = mget 0 d.dowels k) ∧ e.tiles = d.tiles ∧ e.dops = d.dops ∧
      e.clamps = d.clamps ∧ e.stack = d.stack ∧ e.io = d.io ∧
      e.waiters = d.waiters.filter (fun w => !(ready n w)) ∧
      ((∀ w ∈ d.waiters, w.peer = none) →
        e.wakes = d.wakes ++ (d.waiters.filter (ready n)).map (fun w => (w.src, w.id, true)) ∧ e.out = d.out)
    (dowelCount d tile idx + v < 2 ^ 32 → done (applyDowel d tile idx 0 v) (dowelCount d tile idx + v)) ∧
    (v < 2 ^ 32 → done (applyDowel d tile idx 1 v) v) ∧ done (applyDowel d tile idx 2 v) 0

/-- The dowel instructions on a name that leads to a dowel of the partition. With every earlier store performed, an
operation on the tile's own dowel is applied at once and one on another tile's leaves with its tags (R380, R382, R388);
DTEST and DREAD of an own dowel read COUNT (R380); a DWAIT whose condition holds completes and sets its predicate (R384,
R385).
Behind the dowels: a host store command applies its operation (R378); the oldest tagged operation of a source whose build
number is present applies at its dowel (R383, R388); the wake of a wait's own number, and the poll of a waiter that could not
register, end the wait with the predicate true once the condition holds (R384, R386, R387).
The numbers of waits are the model’s own (log entry 68). -/
def Obligations.DowelInstructionsComplete : Prop :=
  (∀ (s : State) (t : TileId) (gu : Guard) (pd : PredNo) (rd ra rb : RegNo) (tile idx : Nat), Issues s t gu 4 →
     let x := tileIn s t
     let n := fld (getG x rb) 31 0
     let x' (op v : Nat) : Tile := advance (foldSync x op (getG x ra) v) 4 1
     dowelName s.dev t (getG x ra) = .own tile idx →
     (storesDrained x = true → lvStoresDone x = true → tile = t.val →
       exec (.darrive t gu ra rb) s = .next (withDev s (setTile (applyDowel (setTile s.dev t x) t idx 0 n) t (x' 0 n))) ∧
       exec (.dset t gu ra rb) s = .next (withDev s (setTile (applyDowel (setTile s.dev t x) t idx 1 n) t (x' 1 n))) ∧
       exec (.dreset t gu ra) s = .next (withDev s (setTile (applyDowel (setTile s.dev t x) t idx 2 0) t (x' 2 0)))) ∧
     (storesDrained x = true → lvStoresDone x = true → tile ≠ t.val →
       let sent (op v : Nat) : State :=
         let d := setTile s.dev t (x' op v)
         let k := srcKey (.core t)
         withDev s { d with
           dops := d.dops ++ [⟨.core t, tile, idx, op, v, mget 0 d.dseq k, buildOf s.dev t, none, d.sent⟩]
           dseq := mset 0 d.dseq k (mget 0 d.dseq k + 1)
           sent := d.sent + 1 }
       exec (.darrive t gu ra rb) s = .next (sent 0 n) ∧ exec (.dset t gu ra rb) s = .next (sent 1 n) ∧
       exec (.dreset t gu ra) s = .next (sent 2 0)) ∧
     (tile = t.val →
       Completes (.dtest t gu pd ra rb) s (fun u =>
         let y := tileOf u.dev t
         (∀ q : PredNo, getP y q = if q = pd ∧ pd ≠ 0 then decide (n ≤ dowelCount s.dev t idx) else getP x q) ∧
         (∀ r, getG y r = getG x r) ∧ y.core.pc = x.core.pc + 4 ∧ y.spad = x.spad ∧ u = putTile s t y) ∧
       (x.core.sb = [] → Completes (.dread t gu rd ra) s (fun u =>
         let y := tileOf u.dev t
         (∃ v : Word, y.core.loads = x.core.loads ++ [⟨rd, v, x.core.slot + 3⟩] ∧ fld v 31 0 = dowelCount s.dev t idx) ∧
         (∀ r, getG y r = getG x r) ∧ y.core.pc = x.core.pc + 4 ∧ y.core.p = x.core.p ∧ y.spad = x.spad ∧ u = putTile s t y)) ∧
       (bit x.core.engErr 0 = false → bit x.core.engErr 1 = false → x.dig.armed = false → n ≤ dowelCount s.dev t idx →
         Completes (.dwait t gu pd ra rb) s (fun u =>
           let y := tileOf u.dev t
           (∀ q : PredNo, getP y q = if q = pd ∧ pd ≠ 0 then true else getP x q) ∧
           (∀ r, getG y r = getG x r) ∧ y.core.pc = x.core.pc + 4 ∧ y.spad = x.spad ∧
           u = withDev s { (putTile s t y).dev with reqCtr := s.dev.reqCtr + 1 })))) ∧
  (∀ (s : State) (t : TileId) (idx : Fin 512),
     (∀ (port : Fin 2) (v : Word), fld v 33 32 ≠ 3 → fld v 63 34 = 0 →
       exec (.dowelStoreCommand port t idx v) s = .next (withDev s (applyDowel s.dev t idx (fld v 33 32) (fld v 31 0)))) ∧
     (∀ (src : DowelSrc) (m : DowelMsg),
       s.dev.dops.find? (fun m => decide (m.src = src) && m.tile == t.val && m.idx == idx.val) = some m →
       m.build = buildOf s.dev t → m.block = none → oldestOp s.dev m = true →
       exec (.dowelOpArrival src t idx) s =
         .next (withDev s (applyDowel { s.dev with dops := s.dev.dops.erase m } t idx m.op m.v))) ∧
     (∀ d : DwaitRec, let x := tileOf s.dev t
       x.core.wait = .dwait d → d.ckpt = false → x.core.run = true → x.dig.armed = false →
       let ended (u : State) : Prop :=
         let y := tileOf u.dev t
         (d.pd ≠ 0 → d.pd < 16 → getP y d.pd = true) ∧ y.core.wait = .none ∧ y.core.pc = x.core.pc + 4 ∧
         (∀ r, getG y r = getG x r) ∧ y.spad = x.spad ∧ u.dev.dowels = s.dev.dowels ∧
         (∀ q : TileId, q ≠ t → tileOf u.dev q = tileOf s.dev q)
       (s.dev.wakes.find? (fun w => w.1 == t.val) = some (t.val, d.id, true) → Completes (.dowelWake t) s ended) ∧
       (d.registered = false → d.peer = none → d.n ≤ dowelCount s.dev d.tile d.idx →
         d.tile = t.val ∨ meshClear s.dev t d.tile = true → Completes (.dwaitPoll t) s ended)))

/-- The clamp instructions on a channel the partition owns. CARRIVE counts one arrive and marks it pending; CWAIT with
none pending and CTEST set a predicate; CBAR arrives and waits, and ends as CWAIT when its arrive has been released (R390,
R391). A channel at which every tile of its partition has arrived is released: GEN goes up, ARRIVED is 0 and no member's
arrive is pending (R390).
A corner the rules leave open is the model’s choice of log entry 42. -/
def Obligations.ClampsComplete : Prop :=
  ∀ (s : State) (t : TileId) (gu : Guard) (pd : PredNo) (ra : RegNo) (c : Fin 16),
    (Issues s t gu 4 →
      let x := tileIn s t
      clampName s.dev x (getG x ra) = some c.val →
      let pended (u : State) : Prop :=
        (clampOf u.dev c).arrived = (clampOf s.dev c).arrived + 1 ∧ (clampOf u.dev c).gen = (clampOf s.dev c).gen ∧
        (∀ k, k ≠ c.val → clampOf u.dev k = clampOf s.dev k) ∧
        (∀ k : Fin 16, (tileOf u.dev t).dwl.clampPend.getLsbD k = (x.dwl.clampPend.getLsbD k || decide (k = c))) ∧
        (∀ r, getG (tileOf u.dev t) r = getG x r) ∧ (tileOf u.dev t).core.p = x.core.p ∧ (tileOf u.dev t).spad = x.spad
      let set (u : State) (b : Bool) : Prop :=
        let y := tileOf u.dev t
        (∀ q : PredNo, getP y q = if q = pd ∧ pd ≠ 0 then b else getP x q) ∧ (∀ r, getG y r = getG x r) ∧
        y.core.pc = x.core.pc + 4 ∧ y.spad = x.spad ∧ y.dwl.clampPend = x.dwl.clampPend ∧ u = putTile s t y
      Completes (.ctest t gu pd ra) s (fun u => set u (!(x.dwl.clampPend.getLsbD c))) ∧
      (x.dwl.clampPend.getLsbD c = false →
        Completes (.cwait t gu pd ra) s (fun u => set u (!(x.dwl.lastBroken.getLsbD c))) ∧
        (x.dwl.barDone.getLsbD c = true →
          Completes (.cbar t gu pd ra) s (fun u => set u (!(x.dwl.lastBroken.getLsbD c)))) ∧
        (storesDrained x = true → lvStoresDone x = true → x.dwl.clampOwed.getLsbD c = false →
          Completes (.carrive t gu ra) s (fun u => pended u ∧ (tileOf u.dev t).core.pc = x.core.pc + 4) ∧
          (x.dwl.barDone.getLsbD c = false → Completes (.cbar t gu pd ra) s (fun u =>
            pended u ∧ (tileOf u.dev t).core.pc = x.core.pc ∧ (tileOf u.dev t).dwl.barDone.getLsbD c = true))))) ∧
    (let k := clampOf s.dev c
     let q := partSt s.dev k.part
     k.valid = true → k.cab = false → k.arrived = pTiles q → k.arrived ≠ 0 → Completes (.clampRelease c) s (fun u =>
      clampOf u.dev c = { k with gen := (k.gen + 1) % 2 ^ 16, arrived := 0, brokenLast := false, sent := false } ∧
      (∀ j, j ≠ c.val → clampOf u.dev j = clampOf s.dev j) ∧
      (∀ m, m ∈ membersOf q → (tileOf u.dev m).dwl.clampPend.getLsbD c = false ∧
        (tileOf u.dev m).dwl.lastBroken.getLsbD c = false) ∧
      (∀ m, (tileOf u.dev m).core = (tileOf s.dev m).core ∧ (tileOf u.dev m).spad = (tileOf s.dev m).spad)))

/-! ### Transfer engines -/

/-- Submitting, saving and restoring at a tile in monitor mode, on a 64-byte-aligned range of its own scratchpad whose
drawers the scalar port owns and that holds no poison: TSUB gives the channel a descriptor of the 16 words there with what
it captured, TSAVE writes the 768 bytes of the record and no other and stops a channel that waits on a fault, TREST loads a record into an IDLE channel (R400, R407,
R424, R425).
Control of the channels. TSTAT reads a channel's status; TSYNC with no selected channel running only advances; TCLEAR
resumes, skips or empties a FAILED channel; TSTOP and TGO, in monitor mode, and the fields of TCB_TE_CTRL stop an IDLE
channel at once and a running one behind its blocks, and let a STOPPED one go on (R406, R422, R423, R427).
A corner the rules leave open is the model’s choice of log entry 46. -/
def Obligations.TransferControlCompletes : Prop :=
  (∀ (s : State) (t : TileId) (gu : Guard) (ra rb : RegNo) (off : Nat), Issues s t gu 4 →
     let x := tileIn s t
     let ch := fld (getG x rb) 1 0
     let c := chanOf x ch
     let open' (n : Nat) : Prop := off + n ≤ 0x300000 ∧ spadPoisoned x off n = false ∧
       (∀ i, i < n → drawerBusy x (off + i) = false ∧ bit (drawerOwn x (drawerOf (off + i))) 0 = true)
     isUser x = false → x.member ≠ 0 → x.inject = [] → storesDrained x = true → off % 64 = 0 → getG x ra = ownAddr t off →
     (lvStoresDone x = true → open' 128 → c.queue.length < 4 →
       exec (.tsub t gu ra rb) s = .next (putTile s t (advance (setChan x ch
         (teSubmit c ⟨wordsOfBytes 16 (spadGet x off 128), fld x.core.ctx 7 0, false, c.next⟩)) 4 1))) ∧
     (open' 768 → c.st ≠ 1 → c.st ≠ 2 → c.stopping = false → Completes (.tsave t gu ra rb) s (fun u =>
       let y := tileOf u.dev t
       spadGet y off 768 = (saveRecord c).flatMap (fun w => leBytes 8 w.toNat) ∧
       (∀ a, a < off ∨ off + 768 ≤ a → mget 0 y.spad a = mget 0 x.spad a) ∧ y.te = x.te ∧ (∀ r, getG y r = getG x r) ∧
       y.core.pc = x.core.pc + 4 ∧ u = putTile s t y)) ∧
     (open' 768 → c.st = 2 → c.blks = [] → Completes (.tsave t gu ra rb) s (fun u =>
       let y := tileOf u.dev t
       let k : TeChan := { c with st := 4, stopping := false }
       spadGet y off 768 = (saveRecord k).flatMap (fun w => leBytes 8 w.toNat) ∧ chanOf y ch = k ∧
       (∀ a, a < off ∨ off + 768 ≤ a → mget 0 y.spad a = mget 0 x.spad a) ∧ y.core.pc = x.core.pc + 4)) ∧
     (open' 768 → c.st = 0 → exec (.trest t gu ra rb) s =
       .next (putTile s t (advance (setChan x ch (restored c (wordsOfBytes 96 (spadGet x off 768)))) 4 1)))) ∧
  (∀ (s : State) (t : TileId) (gu : Guard) (rd ra rb : RegNo),
     (Issues s t gu 4 →
       let x := tileIn s t
       let w := getG x rb
       let only (u : State) (f : Nat → TeChan → TeChan) : Prop :=
         let y := tileOf u.dev t
         (∀ ch, ch < 4 → chanOf y ch = if bit w ch then f ch (chanOf x ch) else chanOf x ch) ∧
         y.core = (advance x 4 1).core ∧ y.spad = x.spad ∧ (∀ q : TileId, q ≠ t → tileOf u.dev q = tileOf s.dev q)
       exec (.tstat t gu rd rb) s = .next (putTile s t (advance (setG x rd (teStatus s.dev t (fld w 1 0))) 4 1)) ∧
       ((∀ ch, ch < 4 → bit w ch = true → (chanOf x ch).st ≠ 1 ∧ (chanOf x ch).st ≠ 2 ∧ (chanOf x ch).stopping = false) →
         exec (.tsync t gu rb) s = .next (putTile s t (advance x 4 1))) ∧
       exec (.tclear t gu ra rb) s = .next (putTile s t (advance
         (setChan x (fld w 1 0) (teClear (chanOf x (fld w 1 0)) (fld (getG x ra) 1 0))) 4 1)) ∧
       (isUser x = false →
         Completes (.tstop t gu rb) s (fun u => only u (fun _ c =>
           if c.st = 0 then { c with st := 4 } else if c.st = 3 ∨ c.st = 4 then c
           else if c.st = 2 ∧ c.blks = [] then { c with st := 4, stopping := false }
           else { c with st := if c.st = 2 then 1 else c.st, stopping := true })) ∧
         Completes (.tgo t gu rb) s (fun u => only u (fun _ c =>
           if c.st ≠ 4 then c else if c.run.isSome then { c with st := 1 } else nextDesc c)))) ∧
     (∀ (ch mode : Fin 4), let x := tileOf s.dev t
       let c := chanOf x ch
       (c.st = 0 → exec (.teCtrlStop t ch) s = .next (putTile s t (setChan x ch { c with st := 4 }))) ∧
       (c.st = 1 → Completes (.teCtrlStop t ch) s (fun u => tileOf u.dev t = setChan x ch { c with stopping := true })) ∧
       (c.st = 4 → exec (.teCtrlGo t ch) s =
         .next (putTile s t (setChan x ch (if c.run.isSome then { c with st := 1 } else nextDesc c)))) ∧
       (c.st = 3 → mode.val = 0 → c.run.isSome = true →
         exec (.teCtrlClear t ch mode) s = .next (putTile s t (setChan x ch { c with err := 0, st := 1 }))) ∧
       (c.st = 3 → mode.val = 1 → exec (.teCtrlClear t ch mode) s = .next (putTile s t (setChan x ch (nextDesc { c with err := 0 })))) ∧
       (c.st = 3 → mode.val = 2 → exec (.teCtrlClear t ch mode) s = .next (putTile s t (setChan x ch
         { c with err := 0, queue := [], st := 0, run := none, checked := false, blks := [], failAt := none }))) ∧
       (c.stopping = true → c.blks.any (·.sent.isSome) = false → exec (.teStopDone t ch) s =
         .next (putTile s t (setChan x ch { c with st := 4, stopping := false, blks := [], failAt := none })))))

/-- A channel runs. Its descriptor passes the checks of R405 once; a block between scratchpads of the partition (kind 1
to kind 1, a row in one page each) is translated, at most five at a time, of which two are in flight (R403, R408, R410); its
commit copies the bytes, read before they are written, where no byte is one the descriptor leaves undefined (R416), and no
others, raises DONE by one and takes the next block (R409, R410, R412). A write refused at its target fails the channel with the
code and leaves the block uncommitted; no byte outside the destinations of the blocks in flight changes (R411, R420).
Corners the rules leave open are the model’s choices of log entries 5, 46, 51 and 73. -/
def Obligations.TransferBlocksComplete : Prop :=
  ∀ (s : State) (t : TileId) (ch : Fin 4) (d : TeDesc),
    let x := tileOf s.dev t
    let c := chanOf x ch
    c.run = some d → c.st = 1 → c.stopping = false → s.dev.hold = false →
    (c.checked = false → teFormatBad s.dev t d = false → c.done < dBlocks d →
      exec (.descriptorStart t ch) s = .next (putTile s t (setChan x ch { c with checked := true }))) ∧
    (∀ (p a n r o a' n' r' o' : Nat), partOf x = some p → c.checked = true → c.done + c.blks.length < dBlocks d →
      c.blks.length < 5 → c.failAt = none → (∀ k ∈ c.blks.take 2, k.asked = true) → unitWaits s.dev (.te t ch) = false → dSkind d = 1 → dDkind d = 1 →
      let b := c.done + c.blks.length
      blockPieces d false b = [(a, n)] → blockPieces d true b = [(a', n')] →
      rankAddr a = some (r, o) → r < pTiles (partSt s.dev p) → o + n ≤ 0x300000 → 0 < n →
      rankAddr a' = some (r', o') → r' < pTiles (partSt s.dev p) → o' + n' ≤ 0x300000 → 0 < n' →
      exec (.blockPretranslate t ch) s = .next (putTile s t (setChan x ch { c with blks := c.blks ++
        [⟨b, [(.scratch (tileOfRank (partSt s.dev p) r) o, a, n)], [(.scratch (tileOfRank (partSt s.dev p) r') o', a', n')],
          decide (c.blks.length < 2), none⟩] }))) ∧
    (∀ (tt tt' : TileId) (b o a n o' a' : Nat) (r : List TeBlk),
      c.blks = ⟨b, [(.scratch tt o, a, n)], [(.scratch tt' o', a', n)], true, none⟩ :: r → c.failAt = none →
      (∀ i, i < n → byteUndefined s.dev t d b i = false) →
      (tileOf s.dev tt).inject = [] → (tileOf s.dev tt').inject = [] →
      drawerBusy (tileOf s.dev tt) o = false → drawerBusy (tileOf s.dev tt') o' = false →
      transferMay (tileOf s.dev tt) o = true → transferMay (tileOf s.dev tt') o' = true →
      (∀ i, i < n → mget false (tileOf s.dev tt).dr.poison ((o + i) / 64) = false) →
      dDw d = false → b + 1 < dBlocks d → unitWaits s.dev (.te t ch) = false →
      Completes (.blockCommit t ch (.data [])) s (fun u =>
        spadGet (tileOf u.dev tt') o' n = spadGet (tileOf s.dev tt) o n ∧
        (∀ k, k < o' ∨ o' + n ≤ k → mget 0 (tileOf u.dev tt').spad k = mget 0 (tileOf s.dev tt').spad k) ∧
        (∀ q : TileId, q ≠ tt' → (tileOf u.dev q).spad = (tileOf s.dev q).spad) ∧
        (∀ q : TileId, (tileOf u.dev q).core = (tileOf s.dev q).core) ∧
        (let c' := chanOf (tileOf u.dev t) ch
         c'.done = b + 1 ∧ c'.blks = (r.take 2).map (fun k => { k with asked := true }) ++ r.drop 2 ∧ c'.run = some d ∧ c'.queue = c.queue))) ∧
    (∀ (k : TeBlk) (r : List TeBlk) (code : Fin 3), c.blks = k :: r → dFw d = false →
      Completes (.blockWriteRefused t ch code) s (fun u =>
        let c' := chanOf (tileOf u.dev t) ch
        c'.st = 3 ∧ c'.err = 0x42 + code.val ∧ c'.fault = BitVec.ofNat 64 (rowAddr d true k.b 0) ∧ c'.blks = [] ∧
        c'.done = c.done ∧ (tileOf u.dev t).core = x.core ∧
        (∀ a, (∀ j ∈ c.blks, ∀ q ∈ j.dst, match q.1 with
            | .scratch tt o => tt ≠ t.val ∨ a < o ∨ o + q.2.2 ≤ a
            | _ => True) → mget 0 (tileOf u.dev t).spad a = mget 0 x.spad a)))

/-! ### Translation -/

/-- A walk starts and ends. A leaf with a free walker takes the first waiting page no walk serves: it asks host memory for
the entry of the top level, over the link or through the host line cache where the port has one (R437, R438, R443, R496). A present level-0 entry of a format without accessed and dirty rules ends a
read's walk over a link without a cache: the access waits no more, and the tile's micro-TLB leads its page to the entry's frame
(R436, R437, R444).
The service of page requests. Success lets the access that waits on the request walk again and frees the request's
index (R453, R454); a request that times out keeps its index held, and a scalar access that waits on it takes ACCESS at its
address (R455); clearing PRI Enable frees every index of the function (R452).
A corner the rules leave open is the model’s choice of log entry 17. -/
def Obligations.PageWalksAndRequestsComplete : Prop :=
  (∀ (s : State) (leaf : Fin 2),
     (∀ (w : XWant) (r : List XWant), s.dev.xlt.want = w :: r → w.stage = .walk → xunitTile w.unit / 128 = leaf.val →
       s.dev.xlt.walks = [] → (∀ q ∈ s.dev.xlt.invQ, q.tag ≠ w.tag) → xltCheck s.dev (xunitTile w.unit) w.tag = true →
       let f := ctxFmt s.dev w.tag
       fmtBad s.dev f = false → canonical s.dev f w.va = true →
       let top := if bit (xfmtW s.dev f 0) 0 then 4 else 3
       let table := fld (ctxW s.dev w.tag 1) 63 12 * 4096
       let a := table + 8 * (w.va / 2 ^ (12 + 9 * top) % 512)
       let port := (ctxFn s.dev w.tag).1
       let p := hportOf s.dev port
       Completes (.pageWalk leaf) s (fun u =>
         u.dev.xlt.walks = [⟨w.unit, leaf, w.tag, w.va, top, table, w.write, w.exec, true, true⟩] ∧
         (p.cache = false → p.dlUp = true → u.dev.out = s.dev.out ++ [.hostRead port a 8] ∧ u.dev.hlc = s.dev.hlc) ∧
         (p.cache = true → u.dev.out = s.dev.out ∧
           u.dev.hlc.inq = s.dev.hlc.inq.filter (fun q => decide (q.src ≠ .walk leaf w.tag a)) ++
             [⟨port, a / 64, 0, a % 64, [], .walk leaf w.tag a, s.dev.hlc.ctr, none, false⟩]) ∧
         u.dev.xlt.want = s.dev.xlt.want ∧ u.dev.tiles = s.dev.tiles)) ∧
     (∀ (k : Fin 8) (t : TileId) (w : XWant) (v : Walk) (e : Word) (cas : Bool), (leafWalks s.dev leaf)[k.val]? = some v →
       v.unit = .core t → v.leaf = leaf.val → t.val / 128 = leaf.val → v.level = 0 → v.write = false → v.exec = false →
       w = ⟨.core t, v.tag, v.va, false, false, w.cls, w.succ, w.entry, .walk⟩ → s.dev.xlt.want = [w] →
       (hportOf s.dev (ctxFn s.dev v.tag).1).cache = false → (tileOf s.dev t).core.run = true →
       let f := ctxFmt s.dev v.tag
       fmtAd s.dev f = 0 → entryFlag s.dev f 0 e = some true →
       (∃ va sub b, (tileOf s.dev t).core.wait = .xlate va sub b) →
       Completes (.pageWalkEntryRead leaf k (some e) cas) s (fun u =>
         u.dev.xlt.want = [] ∧ u.dev.xlt.walks = s.dev.xlt.walks.erase v ∧ (tileOf u.dev t).core.wait = .none ∧
         (∃ m ∈ (tileOf u.dev t).utlb, tlbHits v.tag false v.va 0 m = true ∧
           m.out + (v.va - m.va) = frameOf s.dev f e + v.va % 4096) ∧
         (∀ r, getG (tileOf u.dev t) r = getG (tileOf s.dev t) r) ∧ (tileOf u.dev t).core.pc = (tileOf s.dev t).core.pc))) ∧
  (∀ (s : State) (port : Fin 2) (fn : Fin 128),
     (∀ (idx : Fin 512) (pasid : BitVec 20) (r : PageReq) (w : XWant),
       (fnReqs s.dev port fn).find? (fun r => r.idx == idx.val) = some r → r.pasid = pasid.toNat → r.timedOut = false →
       s.dev.xlt.want = [w] → reqWants s.dev r = [w] →
       Completes (.pageGroupResponse port fn idx pasid 0) s (fun u =>
         u.dev.xlt.want = [{ w with stage := .walk, succ := w.succ + 1 }] ∧ u.dev.xlt.reqs = s.dev.xlt.reqs.erase r ∧
         u.dev.hports = s.dev.hports)) ∧
     (∀ (idx : Fin 512) (r : PageReq),
       (fnReqs s.dev port fn).find? (fun r => r.idx == idx.val && !r.timedOut) = some r →
       (reqWants s.dev r = [] → Completes (.priTimeout port fn idx) s (fun u =>
         u.dev.xlt.reqs = s.dev.xlt.reqs.map (fun q => if q = r then { q with timedOut := true } else q) ∧
         u.dev.xlt.want = s.dev.xlt.want ∧ u.dev.tiles = s.dev.tiles)) ∧
       (∀ (w : XWant) (t : TileId), reqWants s.dev r = [w] → w.unit = .core t → s.dev.xlt.want = [w] →
         Completes (.priTimeout port fn idx) s (fun u =>
           let y := tileOf u.dev t
           u.dev.xlt.reqs = s.dev.xlt.reqs.map (fun q => if q = r then { q with timedOut := true } else q) ∧
           u.dev.xlt.want = [] ∧ fld y.core.cause 7 0 = 7 ∧ y.core.badaddr = BitVec.ofNat 64 w.va ∧
           y.core.epc = (tileOf s.dev t).core.pc ∧ y.core.pc = (tileOf s.dev t).core.evec ∧ y.core.wait = .none))) ∧
     ((∀ w ∈ s.dev.xlt.want, w.stage = .walk) → Completes (.priDisable port fn) s (fun u =>
       (fnOf u.dev port fn) = { fnOf s.dev port fn with pri := false } ∧ fnReqs u.dev port fn = [] ∧
       (∀ r ∈ s.dev.xlt.reqs, r.port ≠ port.val ∨ r.fn ≠ fn.val → r ∈ u.dev.xlt.reqs) ∧
       u.dev.xlt.want = s.dev.xlt.want ∧ u.dev.tiles = s.dev.tiles)))

/-- Invalidation. A write of XLT_INV with GO queues one while fewer than 16 wait, and from then on no cache and no walk
holds the tag (R446, R448); the oldest completes once the accesses under its tag are performed: it leaves the queue, DONE
counts it, and its dowel gets an ARRIVE if it asks for one (R448, R449). An ATS Invalidate Request that covers no context
is answered at once; one that covers a context waits for that context's invalidation and is answered as that completes (R447).
The descriptors of translation. A word of a context descriptor an agent may write takes its field bits, VALID only
for a partition that is built or running, and clearing VALID drops the tag from every cache and walk and leaves a Stop Marker
to send (R433, R434, R458); a word of a format no valid context uses takes its field bits, written by management or by
function 0 of a host port (R435); the Stop Marker of a cleared context leaves once none of its requests is outstanding (R458).
No core and no scratchpad changes. -/
def Obligations.TranslationControlCompletes : Prop :=
  (∀ (s : State),
     let gone (u : State) (tag : Nat) : Prop := (∀ leaf, leaf < 2 → ∀ e ∈ leafTlb u.dev leaf, e.tag ≠ tag) ∧
       (∀ t, ∀ e ∈ (tileOf u.dev t).utlb, e.tag ≠ tag) ∧ (∀ k ∈ u.dev.xlt.walks, k.tag ≠ tag) ∧
       (∀ t, (tileOf u.dev t).core = (tileOf s.dev t).core ∧ (tileOf u.dev t).spad = (tileOf s.dev t).spad)
     (∀ v : Word, bit v 63 = true → s.dev.xlt.invQ.length < 16 → Completes (.xltInvWrite v) s (fun u =>
       u.dev.xlt.invQ = s.dev.xlt.invQ ++ [⟨fld v 7 0, bit v 25, fld v 24 17, fld v 16 8, none⟩] ∧ gone u (fld v 7 0))) ∧
     (∀ v : Word, bit v 63 = true → 16 ≤ s.dev.xlt.invQ.length → exec (.xltInvWrite v) s =
       .next (withDev s { s.dev with xlt := { s.dev.xlt with overrun := true } })) ∧
     (∀ (q : InvReq) (r : List InvReq), s.dev.xlt.invQ = q :: r → tagQuiet s.dev q.tag = true → q.ats = none →
       s.dev.xlt.ats = [] → Completes .invalidationComplete s (fun u =>
         u.dev.xlt.invQ = r ∧ u.dev.xlt.done = s.dev.xlt.done + 1 ∧ gone u q.tag ∧
         (q.den = false → u.dev.dops = s.dev.dops) ∧
         (q.den = true → ∃ seq b o, u.dev.dops = s.dev.dops ++ [⟨.iod, q.dtile, q.didx, 0, 1, seq, b, none, o⟩]))) ∧
     (∀ (q : InvReq) (r : List InvReq) (i port fn : Nat), s.dev.xlt.invQ = q :: r → tagQuiet s.dev q.tag = true →
       q.ats = some i → q.den = false → s.dev.xlt.ats = [⟨i, port, fn, [], 1⟩] → Completes .invalidationComplete s (fun u =>
         u.dev.xlt.invQ = r ∧ u.dev.xlt.done = s.dev.xlt.done + 1 ∧ gone u q.tag ∧ u.dev.xlt.ats = [] ∧
         u.dev.out = s.dev.out ++ [.invCompletion port fn i])) ∧
     (∀ (port : Fin 2) (fn : Fin 128) (pasid : Option (BitVec 20)), s.dev.xlt.ats = [] →
       let hit (n : Nat) : Bool := ctxFn s.dev n == (port.val, fn.val) && ctxValid s.dev n &&
         (match pasid with | some p => ctxPasid s.dev n == p.toNat | none => true)
       let id := s.dev.xlt.atsId
       ((∀ n, n < 256 → hit n = false) → exec (.atsInvalidateRequest port fn pasid) s =
         .next (withDev s (send { s.dev with xlt := { s.dev.xlt with atsId := id + 1 } } (.invCompletion port fn id)))) ∧
       (∀ n, n < 256 → (∀ m, m < 256 → (hit m = true ↔ m = n)) → s.dev.xlt.invQ.length < 16 →
         Completes (.atsInvalidateRequest port fn pasid) s (fun u =>
           u.dev.xlt.invQ = s.dev.xlt.invQ ++ [⟨n, false, 0, 0, some id⟩] ∧ u.dev.xlt.ats = [⟨id, port, fn, [], 1⟩] ∧
           gone u n ∧ u.dev.out = s.dev.out)))) ∧
  (∀ (s : State),
     (∀ (agent : RegAgent) (n : TileId) (k : Fin 32) (v : Word), ctxMayWrite s.dev agent n k v = true → k ≠ 2 →
       (k = 0 → if bit v 0 then (partSt s.dev (fld v 7 1)).state = 1 ∨ (partSt s.dev (fld v 7 1)).state = 2
         else ctxValid s.dev n = false) →
       exec (.xltCtxWrite agent n k v) s = .next (withDev s { s.dev with xlt := { s.dev.xlt with
         ctx := mset 0 s.dev.xlt.ctx (32 * n + k) (ctxMask k v) } })) ∧
     (∀ (agent : RegAgent) (n : TileId) (v : Word), ctxMayWrite s.dev agent n 0 v = true → bit v 0 = false →
       ctxValid s.dev n = true → (∀ w ∈ s.dev.xlt.want, w.tag ≠ n.val) → Completes (.xltCtxWrite agent n 0 v) s (fun u =>
         (∀ j, mget 0 u.dev.xlt.ctx j = if j = 32 * n.val then ctxMask 0 v else mget 0 s.dev.xlt.ctx j) ∧
         u.dev.xlt.stops = s.dev.xlt.stops ++ [(n.val, (ctxFn s.dev n).1, (ctxFn s.dev n).2, ctxPasid s.dev n)] ∧
         (∀ leaf, leaf < 2 → ∀ e ∈ leafTlb u.dev leaf, e.tag ≠ n.val) ∧
         (∀ t, ∀ e ∈ (tileOf u.dev t).utlb, e.tag ≠ n.val) ∧ (∀ k ∈ u.dev.xlt.walks, k.tag ≠ n.val) ∧
         (∀ t, (tileOf u.dev t).core = (tileOf s.dev t).core ∧ (tileOf u.dev t).spad = (tileOf s.dev t).spad))) ∧
     (∀ (agent : RegAgent) (f k : Fin 4) (v : Word), (agent = .mgmt ∨ ∃ port, agent = .host port 0) →
       (∀ n, n < 256 → ctxValid s.dev n = true → ctxFmt s.dev n ≠ f.val) →
       Completes (.xltFmtWrite agent f k v) s (fun u =>
         (∀ g i : Fin 4, xfmtW u.dev g i = if g = f ∧ i = k then fmtMask k v else xfmtW s.dev g i) ∧
         u = withDev s { s.dev with xlt := { s.dev.xlt with
           fmt := u.dev.xlt.fmt, fmtSet := mset false s.dev.xlt.fmtSet f true } })) ∧
     (∀ (n : TileId) (e : Nat × Nat × Nat × Nat), s.dev.xlt.stops.find? (fun e => e.1 == n.val) = some e →
       (∀ r ∈ s.dev.xlt.reqs, r.tag = n.val → r.timedOut = true) → exec (.stopMarker n) s =
         .next (withDev s (send { s.dev with xlt := { s.dev.xlt with stops := s.dev.xlt.stops.erase e } }
           (.stopMarker e.2.1 e.2.2.1 e.2.2.2)))))

/-! ### The host link -/

/-- The link of a host port. A port that may drive its lanes trains to a rate and width within its caps, and its PLL is
locked (R81, R466, R467); the loss of the data link clears what training gave, starts the down timer and counts (R491); RETRAIN counts and keeps the link
up, its rate and width within the caps (R494, R466); PERSTn_N rising changes nothing else (R465).
The resets of a host port: the down timer's expiry, a Hot Reset, Link Disable and PERSTn_N falling leave the port as
after reset but for the counters, of which SELF_RESET goes up (R492, R495); a function-level reset leaves the function as
after reset and abandons its requests, and touches no other function (R490).
Corners the rules leave open are the model’s choices of log entries 18 and 53. -/
def Obligations.HostPortsComplete : Prop :=
  (∀ (s : State) (port : Fin 2),
     let h := hportOf s.dev port
     let only (u : State) : Prop := ∀ q : Fin 2, q ≠ port → hportOf u.dev q = hportOf s.dev q
     (∀ (rate : Fin 7) (width : Fin 17) (flit cache : Bool) (cxl : Fin 4), h.linkDis = false → h.perst = false →
       h.dlUp = false → 1 ≤ rate.val → rate.val ≤ fld h.ctl 3 1 → width.val ∈ [1, 2, 4, 8, 16] → width.val ≤ fld h.ctl 8 4 →
       Completes (.hostLinkTraining port rate width flit cache cxl) s (fun u =>
         let c := if bit h.ctl 0 ∧ 3 ≤ rate.val then cxl.val else 0
         hportOf u.dev port = { h with dlUp := true, rate := rate, width := width, flit := flit || rate == 6, cxl := c,
                                       cache := cache && c != 0, down := none, lost := false } ∧ only u ∧
         bit u.dev.clk.lock (11 + port.val) = true ∧ u.dev.out = s.dev.out ++ (if h.ready then [.drs port] else []) ∧ u.dev.tiles = s.dev.tiles)) ∧
     (h.dlUp = true →
       Completes (.dataLinkDown port) s (fun u =>
         hportOf u.dev port = { h with dlUp := false, rate := 0, width := 0, flit := false, cxl := 0, cache := false,
                                       lost := true, down := some s.dev.time, uncov := [], cov := []
                                       stats := incFld h.stats 15 0 1 } ∧ only u) ∧
       Completes (.hportRetrain port) s (fun u =>
         hportOf u.dev port = { h with stats := incFld h.stats 31 16 1, rate := min h.rate (max 1 (fld h.ctl 3 1)),
                                       width := widthUnder h.width (fld h.ctl 8 4) } ∧ only u ∧ u.dev.tiles = s.dev.tiles)) ∧
     Completes (.perstDeassert port) s (fun u => hportOf u.dev port = { h with perst := false } ∧ only u ∧
       u.dev.tiles = s.dev.tiles ∧ u.dev.out = s.dev.out)) ∧
  (∀ (s : State) (port : Fin 2),
     let h := hportOf s.dev port
     let wiped (u : State) (perst : Bool) : Prop :=
       let k := hportOf u.dev port
       k.dlUp = false ∧ k.cache = false ∧ k.fns = [] ∧ k.vfEn = false ∧ k.numVfs = 0 ∧ k.hostid = [] ∧ k.down = none ∧
       k.ctl = hportCtlReset ∧ k.perst = perst ∧ k.linkDis = h.linkDis ∧ k.ready = h.ready ∧
       fld k.stats 47 32 = min (fld h.stats 47 32 + 1) 0xFFFF ∧ (∀ r ∈ u.dev.xlt.reqs, r.port ≠ port.val) ∧
       (∀ q : Fin 2, q ≠ port → hportOf u.dev q = hportOf s.dev q)
     (h.down.isSome = true → Completes (.downTimerExpiry port) s (fun u => wiped u h.perst)) ∧
     (h.dlUp = true → Completes (.hotReset port) s (fun u => wiped u h.perst) ∧
       Completes (.linkDisable port) s (fun u => wiped u h.perst)) ∧
     (h.perst = false → Completes (.perstAssert port) s (fun u => wiped u true)) ∧
     (∀ fn : Fin 128, fnExists s.dev port fn = true → Completes (.functionLevelReset port fn) s (fun u =>
       fnOf u.dev port fn = FnSt.reset ∧ (∀ f : Fin 128, f ≠ fn → fnOf u.dev port f = fnOf s.dev port f) ∧
       fnReqs u.dev port fn = [] ∧ (∀ q : Fin 2, q ≠ port → hportOf u.dev q = hportOf s.dev q))))

/-- Configuration requests on a port whose data link is up. Before the part is ready every one is answered with Request
Retry Status (R487, R488); afterwards a read answers the field and changes nothing, and a write of Memory Space Enable,
Bus Master Enable and Enable Relaxed Ordering sets it and is answered (R474, R483); BAR2 takes the address bits written and
reads with its Prefetchable bit set (R470). A zero-length read on a port without CXL.cache goes to the host and covers the
writes sent before it; the completion of the oldest ends its cover (R482).
Reads of host memory that a scalar load waits for: a good completion ends the wait with the data in flight to its
register (R188, R486); a timeout, where the function has not disabled it, raises ACCESS at the load's address and counts in
CPL_TMO (R489, R494).
Host requests through the BARs of a function on a live link, from a requester that HOSTID lists: a BAR2 write inside the
populated scratchpad of a member tile whose drawers are neither private nor being zeroed changes exactly its bytes, and a
read answers them (R476, R479, R772); one that reaches a drawer being zeroed waits (R363); an 8-byte write of the PF at a dowel of BAR0 is a store command (R378, R475).
Corners the rules leave open are the model’s choices of log entries 18, 35 and 36. -/
def Obligations.HostRequestsComplete : Prop :=
  (∀ (s : State) (port : Fin 2) (fn : Fin 128), (hportOf s.dev port).dlUp = true →
     ((hportOf s.dev port).ready = false → ∀ field v,
       exec (.configRequest port fn field v) s = .next (withDev s (send s.dev (.cfgReply 1 0)))) ∧
     ((hportOf s.dev port).ready = true → cfgReaches s.dev port fn = true →
       (∀ field, exec (.configRequest port fn field none) s =
         .next (withDev s (send s.dev (.cfgReply 0 (cfgRead s.dev port fn field))))) ∧
       (∀ (w : Word) (field : Fin 32), field.val < 3 → Completes (.configRequest port fn field (some w)) s (fun u =>
         let b := bit w 0
         let f := fnOf s.dev port fn
         fnOf u.dev port fn = (if field = 0 then { f with memEn := b } else if field = 1 then { f with master := b }
           else { f with relaxed := b }) ∧
         (∀ g, g ≠ fn.val → fnOf u.dev port g = fnOf s.dev port g) ∧
         u.dev.out = s.dev.out ++ [.cfgReply 0 0] ∧ u.dev.tiles = s.dev.tiles ∧ u.dev.stack = s.dev.stack)) ∧
       (∀ w : Word, Completes (.configRequest port fn 14 (some w)) s (fun u =>
         cfgRead u.dev port fn 14 = w.toNat / 2 ^ 30 * 2 ^ 30 + 0xC ∧ u.dev.tiles = s.dev.tiles))) ∧
     ((hportOf s.dev port).cache = false → Completes (.flushRead port) s (fun u =>
       hportOf u.dev port = { hportOf s.dev port with
         uncov := [], cov := (hportOf s.dev port).cov ++ [(hportOf s.dev port).uncov] } ∧
       u.dev.out = s.dev.out ++ [.hostRead port 0 0] ∧ u.dev.tiles = s.dev.tiles))) ∧
  (∀ (s : State) (port : Fin 2) (l : List HostSrc) (r : List (List HostSrc)) (v : List Byte), (hportOf s.dev port).cov = l :: r →
     Completes (.hostReadCompletion (.flush port) (.data v)) s (fun u =>
       (hportOf u.dev port).cov = r ∧ (hportOf u.dev port).uncov = (hportOf s.dev port).uncov ∧
       u.dev.tiles = s.dev.tiles ∧ u.dev.stack = s.dev.stack)) ∧
  (∀ (s : State) (t : TileId) (op rd a va size id p : Nat) (v : List Byte),
     let x := tileOf s.dev t
     op < 7 → x.core.run = true → x.core.wait = .load ⟨op, rd, [(.host a, va, v.length)], size, id⟩ → partOf x = some p →
     (hportOf s.dev (tilePort s.dev t)).cache = false →
     Completes (.hostReadCompletion (.core t) (.data v)) s (fun u =>
       let y := tileOf u.dev t
       y.core.loads = x.core.loads ++ [⟨rd, loadExt op (leNat v), x.core.slot + 3⟩] ∧ y.core.wait = .none ∧
       y.core.pc = x.core.pc + BitVec.ofNat 64 size ∧ (∀ r, getG y r = getG x r) ∧ y.spad = x.spad ∧
       u.dev.hports = s.dev.hports) ∧
     (let q := partSt s.dev p
      (fnOf s.dev (pPort q) (pFunc q)).ctoDis = false → Completes (.completionTimeout (.core t)) s (fun u =>
       let y := tileOf u.dev t
       y.core.cause = 7 ∧ y.core.badaddr = BitVec.ofNat 64 va ∧ y.core.epc = x.core.pc ∧ y.core.pc = x.core.evec ∧
       y.core.wait = .none ∧ bit y.core.status 0 = true ∧ y.spad = x.spad ∧
       (hportOf u.dev (pPort q)).stats = incFld (hportOf s.dev (pPort q)).stats 63 48 1))) ∧
  (∀ (s : State) (port : Fin 2) (fn : Fin 128) (req : BitVec 16), hostidOk s.dev port req.toNat = true → s.dev.barq = [] →
     (∀ (off : BitVec 38) (t : TileId) (data : List Byte) (n : Fin 4097),
       let o := off.toNat % 0x400000
       let x := tileOf s.dev t
       barLive s.dev port fn 1 off.toNat n = true → bar2Tile s.dev port fn off.toNat = some t.val → 0 < n.val →
       o + n ≤ 0x300000 → bar2Busy x o n = false → bar2Private x o n = false → x.inject = [] →
       (data.length = n → Completes (.hostBarWrite port fn req 1 off data false) s (fun u =>
         spadGet (tileOf u.dev t) o n = data ∧
         (∀ a, a < o ∨ o + n ≤ a → mget 0 (tileOf u.dev t).spad a = mget 0 x.spad a) ∧
         (tileOf u.dev t).core = x.core ∧ (∀ q : TileId, q ≠ t → tileOf u.dev q = tileOf s.dev q) ∧
         u.dev.stack = s.dev.stack ∧ u.dev.io = s.dev.io)) ∧
       (spadPoisoned x o n = false → exec (.hostBarRead port fn req 1 off n) s =
         .next (withDev s (send s.dev (.hostReply (spadGet x o n) false))))) ∧
     (∀ (off : BitVec 38) (t : TileId) (data : List Byte),
       let o := off.toNat % 0x400000
       barLive s.dev port fn 1 off.toNat data.length = true → bar2Tile s.dev port fn off.toNat = some t.val →
       0 < data.length → o + data.length ≤ 0x300000 → bar2Busy (tileOf s.dev t) o data.length = true →
       exec (.hostBarWrite port fn req 1 off data false) s = .next (withDev s { s.dev with
         barq := [⟨port, fn, req.toNat, 1, off.toNat, data.length, some (data, false)⟩] })) ∧
     (∀ (p : Nat) (t : TileId) (idx : Fin 512) (data : List Byte),
       let off : BitVec 38 := BitVec.ofNat 38 (0x100000 + 0x1000 * t.val + 8 * idx.val)
       let v : Word := BitVec.ofNat 64 (leNat data)
       barLive s.dev port 0 0 off.toNat 8 = true → boundPart s.dev port 0 = some p → data.length = 8 →
       fld v 33 32 ≠ 3 → fld v 63 34 = 0 → Completes (.hostBarWrite port 0 req 0 off data false) s (fun u =>
         let d := applyDowel s.dev t idx (fld v 33 32) (fld v 31 0)
         u.dev.dowels = d.dowels ∧ u.dev.waiters = d.waiters ∧ u.dev.wakes = d.wakes ∧ u.dev.tiles = d.tiles)))

/-! ### The host's accesses -/

/-- The host line cache. A read that reaches its slice and finds its line is a hit and returns the line; a partial write of an
owned line merges its bytes and makes it Modified; an access of a line nobody holds or awaits sends one request and waits
(R499, R500, R501). Two reads of one line in one cycle are taken in the order of R502, and only one of them asks. The answer to
a request is held and serves the read that waits (R501); a snoop that invalidates takes an unlocked line away and is
answered (R503), and a line that holds the faulting entry of a page request is read again (R457); a completed DirtyEvict frees
its entry (R504); a preload starts and asks for its next line (R506); UNLOCK frees every lock (R507).
A corner the rules leave open is the model’s choice of log entry 57. -/
def Obligations.HostLineCacheCompletes : Prop :=
  ∀ (s : State) (port : Fin 2) (line : Fin 0x400000000000),
    let h := s.dev.hlc
    let key := (port.val, line.val)
    let read (src : HostSrc) (ord : Nat) : HWait := ⟨port, line, 0, 0, [], src, ord, none, false⟩
    let plain (src : HostSrc) : Prop := isWatch src = false ∧ ∀ q m n, src ≠ .record q m n
    let room := h.reqs.countP (fun r => hlcSlice r.2 == hlcSlice line.val) < 64
    (∀ (src : HostSrc) (ord : Nat), plain src → h.inq = [read src ord] → h.wait = [] → key ∉ h.reqs →
      (∀ l, hlcFind s.dev port line = some l → 1 ≤ l.st → Completes (.hlcRequest port line [0] [0] [0] 0) s (fun u =>
        u.dev.hlc = { hlcPut h l with inq := [], got := h.got ++ [⟨src, port, line, l.data, l.poison⟩] } ∧
        ioGet u.dev (hlcReg 4) = incFld (ioGet s.dev (hlcReg 4)) 31 0 1 ∧ u.dev.tiles = s.dev.tiles ∧ u.dev.out = s.dev.out)) ∧
      (hlcFind s.dev port line = none → hlcEvict s.dev port line = none → room → Completes (.hlcRequest port line [0] [0] [0] 0) s (fun u =>
        u.dev.hlc = { h with inq := [], reqs := h.reqs ++ [key], wait := [read src ord] } ∧
        ioGet u.dev (hlcReg 4) = incFld (ioGet s.dev (hlcReg 4)) 63 32 1 ∧
        u.dev.out = s.dev.out ++ [.cxl port 0 (64 * line.val) []] ∧ u.dev.tiles = s.dev.tiles))) ∧
    (∀ (src : HostSrc) (ord : Nat) (off : Fin 64) (data : List Byte) (poison : Bool) (l : HLine), plain src →
      h.inq = [⟨port, line, 3, off, data, src, ord, none, poison⟩] → h.wait = [] → key ∉ h.reqs →
      hlcFind s.dev port line = some l → 2 ≤ l.st → h.inject = false → off.val + data.length ≤ 64 →
      Completes (.hlcRequest port line [0] [0] [0] 0) s (fun u =>
        u.dev.hlc = { hlcPut h { l with st := 3, data := l.data.take off ++ data ++ l.data.drop (off + data.length)
                                        poison := poison || (l.poison && !(off.val == 0 && data.length == 64)) } with inq := [] } ∧
        u.dev.tiles = s.dev.tiles ∧ u.dev.out = s.dev.out)) ∧
    (∀ (src src' : HostSrc) (ord ord' : Nat), plain src → plain src' → hostRank src' < hostRank src →
      h.inq = [read src ord, read src' ord'] → h.wait = [] → key ∉ h.reqs → hlcFind s.dev port line = none →
      hlcEvict s.dev port line = none → room → Completes (.hlcRequest port line [0, 1] [0, 1] [0, 1] 0) s (fun u =>
        u.dev.hlc = { h with inq := [], reqs := h.reqs ++ [key], wait := [read src' ord', read src ord] } ∧
        u.dev.out = s.dev.out ++ [.cxl port 0 (64 * line.val) []] ∧ u.dev.tiles = s.dev.tiles)) ∧
    (∀ (st : Fin 4) (data : List Byte) (poison : Bool) (src : HostSrc) (ord : Nat), plain src → key ∈ h.reqs → h.reqs.Nodup →
      st ≠ 0 → data.length = 64 → hlcFind s.dev port line = none → h.lines.countP (fun l => sameSet l.line line) < 16 →
      h.wait = [read src ord] → Completes (.hlcFill port line st data poison) s (fun u =>
        u.dev.hlc = { h with lines := h.lines ++ [⟨port, line, st, data, poison, false⟩], wait := [], reqs := h.reqs.erase key
                             got := h.got ++ [⟨src, port, line, data, poison⟩] } ∧
        u.dev.out = s.dev.out ∧ u.dev.tiles = s.dev.tiles)) ∧
    (∀ l, hlcEvict s.dev port line = none → hlcFind s.dev port line = some l → l.locked = false → l.st ≠ 3 →
      let gone := modHlc s.dev (fun h => { h with lines := h.lines.erase l })
      let told := send gone (.cxl port (8 + l.st) (64 * line) [])
      let watched := s.dev.xlt.reqs.find? (fun r => r.port == port.val && r.entry / 64 == line.val && !r.timedOut)
      (watched = none → exec (.hostSnoop port line 1) s = .next (withDev s told)) ∧
      (∀ r, watched = some r → (hportOf s.dev port).cache = true → hlcFind gone port line = none → h.wait = [] → key ∉ h.reqs →
        room → Completes (.hostSnoop port line 1) s (fun u =>
          u.dev.hlc = { h with lines := h.lines.erase l, ctr := h.ctr + 1, reqs := h.reqs ++ [key]
                               wait := [read (.watch r.leaf) h.ctr] } ∧
          u.dev.out = told.out ++ [.cxl port 0 (64 * line.val) []] ∧ u.dev.xlt = s.dev.xlt ∧ u.dev.tiles = s.dev.tiles))) ∧
    (∀ v, hlcEvict s.dev port line = some v → h.wait = [] → exec (.evictionWritebackDone port line) s =
      .next (withDev s (modHlc s.dev (fun h => { h with evict := h.evict.erase v })))) ∧
    (∀ v : Word, bit v 63 = true → h.preload = none → fld v 15 0 ≠ 0 →
      let a := ioGet s.dev (hlcReg 1)
      (hportOf s.dev (fld a 0 0)).cache = true → Completes (.hlcPreload (some v)) s (fun u =>
        u.dev.hlc = { h with preload := some (fld a 0 0, fld a 51 6, fld v 15 0, bit v 16) } ∧
        bit (ioGet u.dev (hlcReg 3)) 1 = false ∧ u.dev.tiles = s.dev.tiles)) ∧
    (∀ left : Nat, h.preload = some (port.val, line.val, left, false) → hlcFind s.dev port line = none →
      hlcEvict s.dev port line = none → key ∉ h.reqs → h.wait = [] → room →
      Completes (.hlcPreload none) s (fun u =>
        u.dev.hlc = { h with preload := if left ≤ 1 then none else some (port.val, line.val + 1, left - 1, false)
                             reqs := h.reqs ++ [key], ctr := h.ctr + 1
                             wait := [⟨port, line, 4, 0, [], .preload, h.ctr, none, false⟩] } ∧
        u.dev.out = s.dev.out ++ [.cxl port 0 (64 * line.val) []])) ∧
    exec .hlcUnlock s = .next (withDev s { s.dev with hlc := { h with
      lines := (h.lines.filter (fun l => l.st != 0)).map (fun l => { l with locked := false }) } })

/-! ### Work queues -/

/-- Filling a queue. A doorbell of an owned, enabled queue in a running part, whose tail stays within the ring, sets TAIL,
and any other only counts as refused (R513); enabling clears the counters and the window, disabling with no work order
dispatched takes effect at once, and CQHEAD takes what the host writes (R512, R523). A new, well-formed descriptor of a
number above the window is read from the ring, over the link or from the lines the host line cache returned, and held for dispatch
(R496, R515, R516); the inputs of a grain record are hashed
before dispatch (R653). No other queue changes.
Corners the rules leave open are the model’s choices of log entries 24 and 49. -/
def Obligations.WorkQueueFills : Prop :=
  ∀ (s : State) (q : TileId),
    let k := wqOf s.dev q
    let only (u : State) : Prop := ∀ r, r ≠ q.val → wqOf u.dev r = wqOf s.dev r
    (∀ tail : BitVec 32, Completes (.wqDoorbell q tail) s (fun u => only u ∧ u.dev.tiles = s.dev.tiles ∧
      ((k.en = true ∧ k.owned = true ∧ (partSt s.dev k.part).state ≠ 4 ∧ (partSt s.dev k.part).state ≠ 5 ∧
        s.dev.coldRefuse = false ∧ s.dev.hold = false ∧ (tail - k.head).toNat ≤ ringLen k.ring) →
          wqOf u.dev q = { k with tail := tail }) ∧
      (k.en = false ∨ k.owned = false ∨ s.dev.coldRefuse = true ∨ s.dev.hold = true ∨ ringLen k.ring < (tail - k.head).toNat →
        (wqOf u.dev q).tail = k.tail ∧ (wqOf u.dev q).refused = min (k.refused + 1) 65535 ∧ (wqOf u.dev q).code ≠ 0))) ∧
    (k.en = false → k.owned = true → exec (.wqEnable q) s = .next (withDev s (modWq (hostForget s.dev (.fetch q)) q (fun k => { k with
      en := true, disabling := false, head := 0, tail := 0, cqTail := 0, marks := [], h := 0, waiting := [], fetched := [] })))) ∧
    (k.en = true → k.disp = none → exec (.wqDisable q) s =
      .next (withDev s (modWq s.dev q (fun k => { k with en := false, disabling := false, fetched := [] })))) ∧
    (∀ v, exec (.wqCqheadWrite q v) s = .next (withDev s (modWq s.dev q (fun k => { k with cqHead := v })))) ∧
    (∀ d : List Word, d.length = 16 → s.dev.hold = false → k.en = true → k.disabling = false → k.head ≠ k.tail →
      k.fetched.length < 4 → (partSt s.dev k.part).state = 2 →
      let c := d.getD 1 0
      let seq := (d.getD 0 0).toNat
      let port := pPort (partSt s.dev k.part)
      let a := ringBase k.ring + 128 * (k.head.toNat % ringLen k.ring)
      let taken (u : State) : Prop :=
        let k' := wqOf u.dev q
        k'.head = k.head + 1 ∧ k'.fetched = k.fetched ++ [newOrder d] ∧ k'.h = seq ∧ k'.waiting = k.waiting ∧
        (mget WinEnt.reset k'.marks seq).accepted = true ∧ (mget WinEnt.reset k'.marks seq).complete = false ∧ only u ∧
        u.dev.tiles = s.dev.tiles
      k.h < seq → fld c 63 11 = 0 → (bit c 8 = true ↔ d.getD 2 0 ≠ 0) → ctxValid s.dev (fld c 7 0) = true →
      ctxPart s.dev (fld c 7 0) = k.part →
      ((hportOf s.dev port).cache = false → (hportOf s.dev port).dlUp = true → Completes (.descriptorFetch q (some d)) s (fun u =>
        taken u ∧ u.dev.out = s.dev.out ++ [.hostRead port a 128])) ∧
      (∀ (v : List Byte) (any : List Word), (hportOf s.dev port).cache = true →
        hostGot s.dev (.fetch q) port a 128 = some (v, false) → wordsOfBytes 16 v = d →
        Completes (.descriptorFetch q (some any)) s (fun u => taken u ∧ u.dev.out = s.dev.out ∧
          ∀ g ∈ u.dev.hlc.got, g.src ≠ .fetch q))) ∧
    (∀ (o : WorkOrder) (r : List WorkOrder) (w : List Word) (host : List HostRegion), k.fetched = o :: r →
      bit (o.d.getD 1 0) 8 = true → o.grain.checked = false → listBad s.dev k.part w = false →
      let g := hashEntries s.dev k.part w (fun e => e.kind != 4) (List.range (declCount w)) host
        { GrainSt.reset with entries := w, checked := true }
      g.defect = false → g.poison = false → exec (.grainHashInputs q (some w) host) s =
        .next (withDev s (modWq s.dev q (fun k => { k with fetched := { o with grain := g } :: r }))))

/-- Running a work order. The oldest fetched one is dispatched while none is: it becomes the dispatched one and the
monitor tile of its partition gets the mailbox message of its queue (R518); the write of WQ_DONE by an agent that may, with no
engine work of the context left, completes it with the status given: the queue's dispatched order is gone and its record
waits, behind those that wait already (R519, R520, R521); the oldest waiting record is written at CQTAIL with its phase when
the ring has space (R523), over the link or as four writes of whole lines (R496, R500). No other queue changes.
Corners the rules leave open are the model’s choices of log entries 49 and 54. -/
def Obligations.WorkOrderRuns : Prop :=
  ∀ (s : State) (q : TileId),
    let k := wqOf s.dev q
    let p := partSt s.dev k.part
    let only (u : State) : Prop := ∀ r, r ≠ q.val → wqOf u.dev r = wqOf s.dev r
    (∀ (o : WorkOrder) (r : List WorkOrder), k.fetched = o :: r → s.dev.hold = false → k.disp = none → k.disabling = false →
      p.state = 2 → cqFull k = false → k.waiting = [] →
      let c := o.d.getD 1 0
      (bit c 8 = true → o.grain.checked = true) → ctxValid s.dev (fld c 7 0) = true → ctxPart s.dev (fld c 7 0) = k.part →
      bit c 10 = false → Completes (.workOrderDispatch q) s (fun u =>
        let t := tileOfRank p 0
        let y := tileOf u.dev t
        wqOf u.dev q = { k with fetched := r, disp := some { o with tDisp := stamp s.dev, charged := none },
                                order := o.d, doneBusy := false } ∧ only u ∧
        y = { tileOf s.dev t with core := { (tileOf s.dev t).core with
          mbox := BitVec.ofNat 64 (0x57510000 + q.val), ipend := setBit (tileOf s.dev t).core.ipend 1 true } } ∧
        (∀ t', t' ≠ t → tileOf u.dev t' = tileOf s.dev t'))) ∧
    (∀ (agent : RegAgent) (v : Word) (o : WorkOrder), k.disp = some o → mayEnd s.dev agent k = true → k.doneSt = none →
      k.disabling = false → (∀ t ∈ membersOf p, engineWork (tileOf s.dev t) (woCtx o) = false) → bit (o.d.getD 1 0) 8 = false →
      s.dev.bm.st ≠ 2 → o.charged = none → o.link = false → o.reset = false → (hportOf s.dev (pPort p)).lost = false →
      o.grain.poison = false → Completes (.wqDoneWrite agent q v []) s (fun u =>
        let k' := wqOf u.dev q
        let status := if fld v 15 0 = 0 then 0 else if fld v 15 0 = 8 then 8 else 1
        let rp := recordProper s.dev k.part o status k.res0 k.res1 none
        k'.disp = none ∧ k'.doneSt = none ∧ k'.waiting = k.waiting ++ ⟨false, rp, bit (o.d.getD 1 0) 9⟩ ::
          List.replicate (mget WinEnt.reset k.marks o.seq).dups ⟨true, rp, false⟩ ∧
        mget WinEnt.reset k'.marks o.seq = ⟨true, true, 0, rp⟩ ∧ only u ∧
        rp.length = 31 ∧ rp.getD 0 0 = BitVec.ofNat 64 o.seq ∧ fld (rp.getD 1 0) 15 0 = status ∧
        (∀ t, (tileOf u.dev t).core = (tileOf s.dev t).core ∧ (tileOf u.dev t).spad = (tileOf s.dev t).spad))) ∧
    (∀ (r : CqRec) (rest : List CqRec), k.waiting = r :: rest → k.en = true → cqFull k = false →
      awaitsError s.dev k r = false → (hportOf s.dev (pPort p)).dlUp = true → r.proper.length = 31 →
      let n := ringLen k.cq
      let i := k.cqTail.toNat % n
      let phase := 1 - k.cqTail.toNat / n % 2
      let a := ringBase k.cq + 256 * i
      let words := BitVec.ofNat 64 (phase + 2 * (if r.dup then 1 else 0) + 2 ^ 16 * i) :: r.proper
      let bytes := words.flatMap (fun w => leBytes 8 w.toNat)
      let src : HostSrc := .record q (if r.irq then some (pPort p, pFunc p, queueIndex s.dev k.part q) else none)
        (2 ^ 64 + k.cqTail.toNat)
      Completes (.completionRecordWrite q) s (fun u =>
        wqOf u.dev q = { k with cqTail := k.cqTail + 1, waiting := rest } ∧ only u ∧ u.dev.tiles = s.dev.tiles ∧
        ((hportOf s.dev (pPort p)).cache = false → u.dev.out = s.dev.out ++ [.hostWrite (pPort p) a words] ∧
          (hportOf u.dev (pPort p)).uncov = (hportOf s.dev (pPort p)).uncov ++ [src]) ∧
        ((hportOf s.dev (pPort p)).cache = true → u.dev.out = s.dev.out ∧
          u.dev.hlc.inq = s.dev.hlc.inq ++ (List.range 4).map (fun j => (⟨pPort p, a / 64 + j, 2, 0,
            (bytes.drop (64 * j)).take 64, src, s.dev.hlc.ctr + j, none, false⟩ : HWait)))))

/-! ### Error rings and registers -/

/-- A partition's error ring. Enabling it starts TAIL and HEAD at 0 (R749); the oldest record that waits is written at TAIL
while the ring is enabled, has space and its link is up (R745, R747), and is held where the link is down (R749); at the end of a window the counts of corrected errors
start again, those of the log entering its stream (R748); a pending MSI-X message leaves when 10 µs have passed and the ring’s
writes are visible (R483, R751). No other ring changes.
Corners the rules leave open are the model’s choices of log entries 54 and 55. -/
def Obligations.ErrorRingsComplete : Prop :=
  ∀ (s : State) (p : Fin 128),
    let r := ringOf s.dev p
    let port := pPort (partSt s.dev p)
    let only (u : State) : Prop := ∀ q, q ≠ p.val → ringOf u.dev q = ringOf s.dev q
    (bit r.w1 0 = false → r.queue = [] → Completes (.errorRingEnable p) s (fun u =>
      ringOf u.dev p = { r with w1 := setBit r.w1 0 true, tail := 0, head := 0, held := false } ∧ only u ∧ u.dev.tiles = s.dev.tiles)) ∧
    (∀ (e : ErrRec) (rest : List ErrRec), r.queue = e :: rest → bit r.w1 0 = true → r.held = false →
     ((hportOf s.dev port).dlUp = false → Completes (.errorRingRecord p) s (fun u =>
       (ringOf u.dev p).held = true ∧ (ringOf u.dev p).queue = r.queue.take 16 ∧ only u ∧ u.dev.out = s.dev.out)) ∧
     ((hportOf s.dev port).dlUp = true → (r.tail - r.head).toNat ≠ ringSlots r → Completes (.errorRingRecord p) s (fun u =>
        let n := ringSlots r
        let a := fld r.w0 63 12 * 4096 + 64 * (r.tail.toNat % n)
        let words := recordWords s.dev e (1 - r.tail.toNat / n % 2) (fld r.w1 47 32)
        ringOf u.dev p = { r with queue := rest, tail := r.tail + 1, w1 := setFld r.w1 47 32 0,
                                  msiPend := r.msiPend || (bit r.w1 1 && decide (1 ≤ e.cls)) } ∧ only u ∧
        ((hportOf s.dev port).cache = false → u.dev.out = s.dev.out ++ [.hostWrite port a words] ∧
          (hportOf u.dev port).uncov = (hportOf s.dev port).uncov ++ [.ring p]) ∧
        ((hportOf s.dev port).cache = true → u.dev.out = s.dev.out ∧ u.dev.hlc.inq = s.dev.hlc.inq ++
          [⟨port, a / 64, 2, 0, words.flatMap (fun w => leBytes 8 w.toNat), .ring p, s.dev.hlc.ctr, none, false⟩])))) ∧
    Completes (.correctedSummaryWindow true) s (fun u => u.dev.corrLog = [] ∧ u.dev.rings = s.dev.rings ∧
      u.dev.logPend = s.dev.logPend ++ s.dev.corrLog.map (fun e => summaryOf s.dev none e.1 e.2)) ∧
    Completes (.correctedSummaryWindow false) s (fun u => (∀ q, (ringOf u.dev q).corr = []) ∧
      (∀ q, bit (ringOf s.dev q).w1 2 = false → (ringOf u.dev q).queue = (ringOf s.dev q).queue) ∧
      u.dev.corrLog = s.dev.corrLog ∧ u.dev.tiles = s.dev.tiles) ∧
    (let fn := pFunc (partSt s.dev p)
     let f := fnOf s.dev port fn
     let vec := fld r.w1 13 3
     r.msiPend = true → hostPending s.dev (.ring p) = false → (∀ at', r.msiAt = some at' → at' + 10000 ≤ s.dev.time) → f.msixEn = true → f.msixMask = false →
     bit (mget (msixReset (2 * vec + 1)) f.msix (2 * vec + 1)) 32 = false → Completes (.errorRingMsix p) s (fun u =>
      ringOf u.dev p = { r with msiPend := false, msiAt := some s.dev.time } ∧ only u ∧
      u.dev.out = s.dev.out ++ [.msix port fn vec]))

/-- Registers by address, for the management agent and for a tile or host that may. A halted tile's g registers are written
through TCB_GREG and a queue's base only while the queue is disabled (R216, R512, R525); a host read of TCB_DRAWER_ECC
answers it and clears its counters, and no other field (R10, R372, R765); an access of the management agent to a block held
in reset writes nothing (R777).
A corner the rules leave open is the model’s choice of log entry 35. -/
def Obligations.RegisterAccessesComplete : Prop :=
  ∀ (s : State),
    let up := s.dev.pf.phase ≠ 2 ∧ railsUp s.dev = true
    (∀ (t : TileId) (r : RegNo) (v : Word), up → (funcOf s.dev (t.val / 128)).st = 3 → (tileOf s.dev t).core.halted = true →
      Completes (.registerWrite .mgmt (some t) (BitVec.ofNat 24 (0x100 + 8 * r.val)) false v) s (fun u =>
        (∀ q, getG (tileOf u.dev t) q = if q = r.val ∧ q ≠ 0 then v else getG (tileOf s.dev t) q) ∧
        (tileOf u.dev t).core.pc = (tileOf s.dev t).core.pc ∧ (tileOf u.dev t).spad = (tileOf s.dev t).spad ∧
        (∀ q : TileId, q ≠ t → tileOf u.dev q = tileOf s.dev q))) ∧
    (∀ (q : TileId) (v : Word), up → Completes
      (.registerWrite .mgmt none (BitVec.ofNat 24 (0x080018 + 0x100 * q.val)) false v) s (fun u =>
        wqOf u.dev q = (if (wqOf s.dev q).en then { wqOf s.dev q with cfgRej := true }
          else { wqOf s.dev q with ring := v &&& 0xFFFFFFFFFFFFF00F }) ∧
        (∀ r, r ≠ q.val → wqOf u.dev r = wqOf s.dev r) ∧ u.dev.tiles = s.dev.tiles)) ∧
    (∀ (port : Fin 2) (t : TileId), up → (funcOf s.dev (t.val / 128)).st = 3 →
      Completes (.rcRead (.host port 0) (some t) 0x740 false) s (fun u =>
        let w := (tileOf s.dev t).dr.ecc
        u.dev.out = s.dev.out ++ [.hostReply (leBytes 8 w.toNat) false] ∧
        (tileOf u.dev t).dr.ecc = BitVec.ofNat 64 (w.toNat / 2 ^ 48 * 2 ^ 48) ∧
        (tileOf u.dev t).core = (tileOf s.dev t).core ∧ (tileOf u.dev t).spad = (tileOf s.dev t).spad ∧
        (∀ q : TileId, q ≠ t → tileOf u.dev q = tileOf s.dev q))) ∧
    (∀ (off : BitVec 24) (v : Word), ioInReset s.dev (off.toNat / 8 * 8) = true →
      exec (.registerAccessInReset .mgmt none off false (some v)) s = .next s)

/-! ### Stacked memory -/

/-- Interleaving (R535). An address of a set maps to a pseudo-channel of the set and an offset by the formula of the rule;
the map is one-to-one and fills every pseudo-channel of the set to its capacity. -/
def Obligations.InterleaveIsOneToOne : Prop :=
  ∀ (s : Dev) (k : Nat),
    let list := setList s k
    let n := list.length
    let inSet (a : Nat) : Prop := setBase s k ≤ a ∧ a < setBase s k + setSize s k
    (∀ a, inSet a →
      (let d := a - setBase s k
       let g := d / 2 ^ 8
       let r := g / n
       let j := g % n
       let f := (r % 2 ^ 16) ^^^ (r / 2 ^ 16 % 2 ^ 16)
       list[(j + f % n) % n]? = some (setMap s k a).1 ∧ (setMap s k a).2 = r * 256 + d % 2 ^ 8) ∧
      (setMap s k a).1 ∈ list ∧ (setMap s k a).2 < pcCap s) ∧
    (∀ a b, inSet a → inSet b → setMap s k a = setMap s k b → a = b) ∧
    (∀ pc ∈ list, ∀ off, off < pcCap s → ∃ a, inSet a ∧ setMap s k a = (pc, off))

/-- Bytes written to present, serving stacked memory within one 256-byte granule read back (R533, R535); every byte at
another place keeps its value, addresses keep their places, and a memory in canonical form stays in it. -/
def Obligations.StackedMemoryReadsBack : Prop :=
  ∀ (s : Dev) (a : Nat) (bs : List Byte), bs ≠ [] → a % 256 + bs.length ≤ 256 → (stackAt s a).isSome = true →
    (∀ k, stackAt s a = some k → pcOut s (k / 2 ^ 31) = false) →
    let u := stackPut s a bs
    stackGet u a bs.length = bs ∧
    (∀ k, (∀ i, i < bs.length → stackAt s (a + i) ≠ some k) → mget 0 u.stack k = mget 0 s.stack k) ∧
    (∀ b, stackAt u b = stackAt s b) ∧
    (mwf 0 s.stack = true → mwf false s.stackPoison = true → mwf 0 u.stack = true ∧ mwf false u.stackPoison = true)

/-- The stacked-memory controllers. A waiting write is accepted and its bytes read back (R539); a command slot that is not
scrub’s issues the oldest accepted write, or reads a unit: without error nothing changes, a corrected symbol is counted and to
be written back, an uncorrectable error poisons the unit (R532, R540, R542); scrub’s own slot issues none of them, and a refresh
takes a slot and leaves scrub’s claim (R542, R548, R550); a temperature raises the rate at once, and lowers it one step once the
stack has stayed 3 °C below the threshold for 10 ms (R548); scrub goes on unit by unit (R555); a failing row is copied to a
spare while one of four is free and can be recorded, else its pseudo-channel is mapped out, and the copy's end makes a repair
entry (R545, R551, R552, R554); recalibration inside its window is counted (R557, R733); training and zero fill bring a powered
stack up, its PLL locked, with every byte zero (R81, R553, R556, R558).
A corner the rules leave open is the model’s choice of log entry 21. -/
def Obligations.StackedMemoryCompletes : Prop :=
  ∀ (s : State) (pc : Fin 192),
    let kept (u : State) : Prop := u.dev.stack = s.dev.stack ∧ u.dev.tiles = s.dev.tiles
    (∀ (q : HbmReq) (k : Nat), nextWrite s.dev pc = some q → stackAt s.dev q.addr = some k → q.data ≠ [] →
      q.addr % 256 + q.data.length ≤ 256 → (∀ c, pcOut s.dev c = false) →
      Completes (.memoryWriteAccept pc) s (fun u =>
        stackGet u.dev q.addr q.data.length = q.data ∧
        (∀ j, (∀ i, i < q.data.length → stackAt s.dev (q.addr + i) ≠ some j) → mget 0 u.dev.stack j = mget 0 s.dev.stack j) ∧
        u.dev.hbm.inq = s.dev.hbm.inq.erase q ∧
        (∀ p : Fin 192, mget [] u.dev.hbm.queue p = mget [] s.dev.hbm.queue p ++ (if p = pc then [k % 2 ^ 31] else [])) ∧
        u.dev.tiles = s.dev.tiles)) ∧
    (hasHbm s.dev = true → pcOut s.dev pc = false →
      let next (u : State) (owed : Bool) : Prop :=
        mget 0 u.dev.hbm.slots pc = (mget 0 s.dev.hbm.slots pc + 1) % 100 ∧ mget false u.dev.hbm.scrubDue pc = owed
      exec (.refresh pc) s = .next (withDev s (passSlot s.dev pc (scrubTurn s.dev pc))) ∧
      (scrubTurn s.dev pc = true → s.dev.hbm.inject.contains pc.val = false → ∀ loc : Fin 0x80000000,
        Completes (.hbmCommandSlot pc loc 0) s (fun u => mget [] u.dev.hbm.queue pc = mget [] s.dev.hbm.queue pc ∧
          next u false ∧ kept u ∧ u.dev.stackPoison = s.dev.stackPoison)) ∧
      (∀ (w : Nat) (r : List Nat) (loc : Fin 0x80000000) (ecc : Fin 3), scrubTurn s.dev pc = false → mget [] s.dev.hbm.queue pc = w :: r →
        bankClosed s.dev pc w = false → Completes (.hbmCommandSlot pc loc ecc) s (fun u =>
          mget [] u.dev.hbm.queue pc = r ∧ next u false ∧ kept u ∧ u.dev.stackPoison = s.dev.stackPoison)) ∧
      (∀ loc : Fin 0x80000000, scrubTurn s.dev pc = false → mget [] s.dev.hbm.queue pc = [] → loc.val < pcCap s.dev → bankClosed s.dev pc loc = false →
        Completes (.hbmCommandSlot pc loc 0) s (fun u =>
          kept u ∧ u.dev.stackPoison = s.dev.stackPoison ∧ u.dev.io = s.dev.io) ∧
        Completes (.hbmCommandSlot pc loc 1) s (fun u =>
          fld (ioGet u.dev regHbmEcc) 31 0 = min (fld (ioGet s.dev regHbmEcc) 31 0 + 1) (2 ^ 32 - 1) ∧
          u.dev.hbm.wb = s.dev.hbm.wb ++ [(pc.val, loc.val / 64)] ∧ kept u ∧ u.dev.stackPoison = s.dev.stackPoison) ∧
        Completes (.hbmCommandSlot pc loc 2) s (fun u =>
          (∀ j, mget false u.dev.stackPoison j = if j = stackKey pc loc / 64 then true else mget false s.dev.stackPoison j) ∧
          fld (ioGet u.dev regHbmEcc) 47 32 = min (fld (ioGet s.dev regHbmEcc) 47 32 + 1) (2 ^ 16 - 1) ∧
          fld (ioGet u.dev regHbmEcc) 55 48 = pc.val ∧ kept u)) ∧
      (∀ (w : Nat × Nat) (ecc : Fin 3), (pcFixed s.dev pc = false ∨ scrubTurn s.dev pc = true) →
        s.dev.hbm.wb.find? (fun w => w.1 == pc.val) = some w → exec (.hbmScrubSlot pc ecc) s =
          .next (withDev s (modHbm (passSlot s.dev pc false) (fun h => { h with wb := s.dev.hbm.wb.erase w })))) ∧
      ((pcFixed s.dev pc = false ∨ scrubTurn s.dev pc = true) → s.dev.hbm.wb.find? (fun w => w.1 == pc.val) = none → s.dev.hbm.inject.contains pc.val = false →
        Completes (.hbmScrubSlot pc 0) s (fun u =>
          let n := mget 0 s.dev.hbm.scrubPos pc
          (n + 1 < pcUnits s.dev → mget 0 u.dev.hbm.scrubPos pc = n + 1 ∧ u.dev.hbm.scrubPass = s.dev.hbm.scrubPass) ∧
          (pcUnits s.dev ≤ n + 1 → mget 0 u.dev.hbm.scrubPos pc = 0 ∧
            mget 0 u.dev.hbm.scrubPass pc = (mget 0 s.dev.hbm.scrubPass pc + 1) % 2 ^ 32) ∧
          next u false ∧ kept u ∧ u.dev.stackPoison = s.dev.stackPoison)) ∧
      (fullLayer s.dev = false → Completes (.pcMapOut pc) s (fun u =>
        (∀ p : Fin 192, pcOut u.dev p = if p = pc then true else pcOut s.dev p) ∧
        u.dev.knots.flashPend = s.dev.knots.flashPend ++ [.pcOut pc] ∧ kept u))) ∧
    (hasHbm s.dev = false ∨ pcOut s.dev pc = true → exec (.refresh pc) s = .next s) ∧
    (hasHbm s.dev = true → ∀ (stack : Fin 6) (temp : Fin 256), Completes (.refreshRateChange stack temp) s (fun u =>
      let r := mget 0 s.dev.hbm.rate stack
      let want := if 95 ≤ temp.val then 2 else if 85 ≤ temp.val then 1 else 0
      let low : Prop := want < r ∧ temp.val + 3 ≤ (if r = 2 then 95 else 85)
      let since := mget none s.dev.hbm.cool stack
      let falls : Prop := low ∧ ∃ t, since = some t ∧ t + 10000000 ≤ slotTime s.dev
      mget 0 u.dev.hbm.temp stack = temp ∧
      (falls → mget 0 u.dev.hbm.rate stack = r - 1 ∧ mget none u.dev.hbm.cool stack = none) ∧
      (¬falls → mget 0 u.dev.hbm.rate stack = max r want ∧
        (low → mget none u.dev.hbm.cool stack = some (since.getD (slotTime s.dev))) ∧
        (¬low → mget none u.dev.hbm.cool stack = none)) ∧
      (∀ k : Fin 6, k ≠ stack → mget 0 u.dev.hbm.rate k = mget 0 s.dev.hbm.rate k) ∧ kept u)) ∧
    (∀ (late : Fin 17) (r : Nat × Nat × Nat),
      s.dev.hbm.rowsBad.find? (fun r => !(s.dev.hbm.copying.any (fun c => c.1 == r.1 && c.2.1 == r.2.1))) = some r →
      Completes (.rowRemap late) s (fun u =>
        (sparesUsed s.dev r.1 r.2.1 < 4 ∧ fullLayer s.dev = false → u.dev.hbm.copying = s.dev.hbm.copying ++ [r] ∧
          u.dev.hbm.rowsBad = s.dev.hbm.rowsBad.erase r ∧ kept u) ∧
        (4 ≤ sparesUsed s.dev r.1 r.2.1 ∨ fullLayer s.dev = true → pcOut u.dev r.1 = true ∧ kept u))) ∧
    (∀ (r : Nat × Nat × Nat) (rest : List (Nat × Nat × Nat)), s.dev.hbm.copying = r :: rest → fullLayer s.dev = false →
      Completes .rowRemapDone s (fun u => u.dev.hbm.copying = rest ∧
        u.dev.knots.flashPend = s.dev.knots.flashPend ++ [.repair (hbmRepair r)] ∧
        fld (ioGet u.dev regHbmRemap) 15 0 = min (fld (ioGet s.dev regHbmRemap) 15 0 + 1) (2 ^ 16 - 1) ∧ kept u)) ∧
    (hasHbm s.dev = true → mget false s.dev.hbm.trained (pcStack pc) = true → memWindow s.dev pc = true → ∀ late : Fin 17,
      Completes (.memoryRecalWindow pc late) s (fun u =>
        fld (ioGet u.dev 0x000818) 31 16 = min (fld (ioGet s.dev 0x000818) 31 16 + 1) (2 ^ 16 - 1) ∧
        fld (ioGet u.dev regHbmLat) 31 0 = min (fld (ioGet s.dev regHbmLat) 31 0 + late.val) (2 ^ 32 - 1) ∧
        (∀ o, o ≠ 0x000818 → o ≠ regHbmLat → ioGet u.dev o = ioGet s.dev o) ∧ kept u)) ∧
    (∀ (stack : Fin 6) (fails : List (Fin 192)), hasHbm s.dev = true → mget false s.dev.hbm.powered stack = true →
      mget false s.dev.hbm.trained stack = false → Completes (.stackTraining stack fails) s (fun u =>
        mget false u.dev.hbm.trained stack = true ∧ mget false u.dev.hbm.init stack = true ∧
        bit u.dev.clk.lock (5 + stack.val) = true ∧
        (∀ f ∈ fails, pcStack f = stack.val → pcOut u.dev f = true) ∧ kept u)) ∧
    (∀ stack : Fin 6, mget false s.dev.hbm.init stack = true → Completes (.stackZeroFillDone stack) s (fun u =>
      mget false u.dev.hbm.init stack = false ∧
      (∀ j, mget 0 u.dev.stack j =
        if 32 * stack.val * 2 ^ 31 ≤ j ∧ j < 32 * stack.val * 2 ^ 31 + 2 ^ 36 then 0 else mget 0 s.dev.stack j) ∧
      (∀ j, mget false u.dev.stackPoison j =
        if 32 * stack.val * 2 ^ 25 ≤ j ∧ j < 32 * stack.val * 2 ^ 25 + 2 ^ 30 then false else mget false s.dev.stackPoison j) ∧
      u.dev.tiles = s.dev.tiles))

/-! ### Lenys -/

/-- The Lenys links. Training with the far end R567 and R576 expect brings a port up with its link state fresh, another far
end leaves it miswired, a failure down (R568, R577); a port whose entry says PORT_OUT never trains (R34, R573). A good codeword
in sequence delivers its messages once, one out of sequence or beyond correction delivers none and asks for a replay (R570,
R571); an acknowledgement frees credits, and a message that waited for one leaves (R578); a replay sends what the far end has
not acknowledged from the codeword named, and the eighth of one in succession retrains the port (R571, R572); retraining
discards the link state (R572, R577, R603); the first failed lane takes the spare, a second, or one with the field layer full,
puts the port out (R48, R573); recalibration inside the link’s window is counted (R574, R732); a port goes down with its replay
buffer discarded (R575). No other port and no tile changes.
Corners the rules leave open are the model’s choices of log entries 47 and 74. -/
def Obligations.LenysLinksComplete : Prop :=
  ∀ (s : State) (port : Fin 16),
    let q := lportOf s.dev port
    let fresh : LPort := { q with replay := [], outq := [], txSeq := 0, rxSeq := 0, asked := false, again := 0 }
    let out : LPort := { q with st := 4, replay := [], outq := [] }
    let told : Nat := (q.rxSeq + 1023) % 1024
    let only (u : State) : Prop :=
      (∀ p : Fin 16, p ≠ port → lportOf u.dev p = lportOf s.dev p) ∧ u.dev.tiles = s.dev.tiles
    (portOut s.dev port = true → (∀ gen2 farSlot farPort farCab farInc ok,
        Completes (.lenysTraining port gen2 farSlot farPort farCab farInc ok) s (fun u => lportOf u.dev port = out ∧ only u)) ∧
      (q.st = 2 → Completes (.portRetrain port) s (fun u => lportOf u.dev port = out ∧ only u)) ∧
      (q.st = 2 ∨ q.st = 3 ∨ q.st = 5 → Completes (.lenysRetrainWrite port) s (fun u => lportOf u.dev port = out ∧ only u))) ∧
    (portOut s.dev port = false → q.st = 1 ∨ q.st = 3 → ∀ (gen2 : Bool) (farSlot : TileId) (farPort : Fin 16) (farCab farInc : BitVec 32),
      let far (p : LPort) : LPort := { p with farSlot := farSlot, farPort := farPort, gen2 := gen2 && !q.gen1Only }
      (expectFar s.dev.lny.slot port = (farSlot.val, farPort.val) → farCab = s.dev.lny.cabId → farCab ≠ 0 →
        (ltxOf s.dev farSlot).inc = farInc →
        Completes (.lenysTraining port gen2 farSlot farPort farCab farInc true) s (fun u =>
          lportOf u.dev port = { far fresh with st := 2 } ∧ bit u.dev.clk.lock (13 + port.val) = true ∧ only u)) ∧
      (expectFar s.dev.lny.slot port ≠ (farSlot.val, farPort.val) →
        Completes (.lenysTraining port gen2 farSlot farPort farCab farInc true) s (fun u =>
          lportOf u.dev port = { far q with st := 5 } ∧ only u)) ∧
      Completes (.lenysTraining port gen2 farSlot farPort farCab farInc false) s (fun u =>
        lportOf u.dev port = { q with st := 3 } ∧ only u)) ∧
    (q.st = 2 → ∀ (seq ack : Fin 1024) (ms : List StreamMsg),
      (∀ m : StreamMsg, q.outq = [m] → (∀ e ∈ q.replay, (ack.val + 1024 - e.1) % 1024 < 512) →
        Completes (.codewordReceive port seq ack 0 true []) s (fun u =>
          (lportOf u.dev port).outq = [] ∧ (lportOf u.dev port).replay = [(q.txSeq, m)] ∧
          u.dev.out = s.dev.out ++ [.lenys port (vchanOf m) q.txSeq told m] ∧ u.dev.lny.inbox = s.dev.lny.inbox ∧ only u)) ∧
      (q.outq = [] → seq.val = q.rxSeq → Completes (.codewordReceive port seq ack 0 false ms) s (fun u =>
        u.dev.lny.inbox = s.dev.lny.inbox ++ ms ∧ (lportOf u.dev port).rxSeq = (q.rxSeq + 1) % 1024 ∧
        (lportOf u.dev port).replay = q.replay.filter (fun e => !(decide ((ack.val + 1024 - e.1) % 1024 < 512))) ∧
        (lportOf u.dev port).st = 2 ∧ only u)) ∧
      (q.outq = [] → seq.val ≠ q.rxSeq → Completes (.codewordReceive port seq ack 0 false ms) s (fun u =>
        u.dev.lny.inbox = s.dev.lny.inbox ∧ (lportOf u.dev port).rxSeq = q.rxSeq ∧ (lportOf u.dev port).asked = true ∧ only u)) ∧
      (∀ errs idle, 15 < errs → Completes (.codewordReceive port seq ack errs idle ms) s (fun u =>
        u.dev.lny.inbox = s.dev.lny.inbox ∧ (lportOf u.dev port).asked = true ∧
        (lportOf u.dev port).stats = incFld q.stats 31 16 1 ∧ only u)) ∧
      (q.again < 7 → Completes (.linkReplay port seq) s (fun u =>
        u.dev.out = s.dev.out ++ (q.replay.dropWhile (fun e => decide (e.1 ≠ seq.val))).map
          (fun e => Msg.lenys port (vchanOf e.2) e.1 told e.2) ∧
        lportOf u.dev port = { q with stats := incFld q.stats 47 32 1, again := q.again + 1 } ∧ only u)) ∧
      (7 ≤ q.again → portOut s.dev port = false → Completes (.linkReplay port seq) s (fun u =>
        lportOf u.dev port = { fresh with st := 1, stats := incFld (incFld q.stats 47 32 1) 63 48 1 } ∧ only u)) ∧
      (portOut s.dev port = false → Completes (.portRetrain port) s (fun u =>
        lportOf u.dev port = { fresh with st := 1, stats := incFld q.stats 63 48 1 } ∧ only u)) ∧
      (lenysWindow s.dev port = true → Completes (.lenysRecalWindow port) s (fun u =>
        fld (ioGet u.dev 0x000818) 15 0 = min (fld (ioGet s.dev 0x000818) 15 0 + 1) (2 ^ 16 - 1) ∧
        (∀ o, o ≠ 0x000818 → ioGet u.dev o = ioGet s.dev o) ∧ u.dev.lny = s.dev.lny ∧ u.dev.tiles = s.dev.tiles))) ∧
    (portOut s.dev port = false → q.st = 2 ∨ q.st = 3 ∨ q.st = 5 → Completes (.lenysRetrainWrite port) s (fun u =>
      lportOf u.dev port = { fresh with st := 1, stats := incFld q.stats 63 48 1 } ∧ only u)) ∧
    (q.st = 1 ∨ q.st = 2 ∨ q.st = 5 → Completes (.portDown port) s (fun u =>
      lportOf u.dev port = { q with st := 3, replay := [], outq := [] } ∧ only u)) ∧
    (∀ lane : Fin 5, let e := laneEntry s.dev port
      e / 64 ≠ 1 →
      (e % 8 ≠ 7 → fullLayer s.dev = false → Completes (.laneFail port lane) s (fun u =>
        u.dev.knots.flashPend = s.dev.knots.flashPend ++ [.lane port (7 + 8 * lane.val)] ∧ lportOf u.dev port = q ∧ only u)) ∧
      (e % 8 = 7 ∨ fullLayer s.dev = true → Completes (.laneFail port lane) s (fun u =>
        (fullLayer s.dev = false → u.dev.knots.flashPend = s.dev.knots.flashPend ++ [.lane port (e % 64 + 64)]) ∧
        lportOf u.dev port = out ∧ only u)))

/-- The end-to-end layer. A stream whose route has changed is resent on its new port (R581, R587); a route entry takes its
ten bits (R582, R606); a message for another slot goes on, on a channel after the wrap if its port leads over one (R578), or is
held while no port takes it (R581); one for this part is taken once, in order, and acknowledged; a
duplicate is acknowledged and not taken again; one for an earlier incarnation is refused (R579, R585, R586, R589); an
acknowledgement frees what it covers (R586); a retransmission sends all that is kept, counted (R587); an unreachable slot's
stream starts anew (R588); a reset notice brings the next incarnation (R589, R757); a build notice makes the bindings it
names stale (R593).
Corners the rules leave open are the model’s choices of log entries 47 and 74. -/
def Obligations.LenysStreamsComplete : Prop :=
  ∀ (s : State) (d : TileId),
    let t := ltxOf s.dev d
    let own := s.dev.lny.slot
    let idle (p : Nat) : Prop := (lportOf s.dev p).replay = [] ∧ (lportOf s.dev p).outq = []
    let twin (m : PeerMsg) : Prop := ∃ kind ws, m = .bookmatch kind ws
    let goes (p : Nat) (m : StreamMsg) : Msg :=
      let r := routeOf s.dev m.dst
      let w := { m with det := if fld r 3 0 = p ∨ fld r 7 4 = p then none else some (p / 4, decide (p % 4 < 2))
                        crossed := m.crossed || wraps own p }
      .lenys p (vchanOf w) (lportOf s.dev p).txSeq (((lportOf s.dev p).rxSeq + 1023) % 1024) w
    let resent (p : Nat) (u : State) : Prop := ∀ k, t.kept = [k] → ¬twin k.2 → idle p →
      u.dev.out = s.dev.out ++ [goes p (streamMsg s.dev d k)]
    (∀ (p : Nat) (r : List Nat), s.dev.lny.tx = [(d.val, t)] → s.dev.lny.held = [] → t.kept ≠ [] → hopPorts s.dev own d = p :: r → t.path ≠ some p →
      Completes .localReroute s (fun u => (ltxOf u.dev d).path = some p ∧ (ltxOf u.dev d).kept = t.kept ∧
        u.dev.lny.e2e = incFld s.dev.lny.e2e 15 0 1 ∧ resent p u ∧ u.dev.tiles = s.dev.tiles)) ∧
    (∀ w : Word, d.val ≠ own → Completes (.routeTableLoad [(d, w)]) s (fun u =>
      (∀ e : TileId, routeOf u.dev e = if e = d then BitVec.ofNat 64 (w.toNat % 1024) else routeOf s.dev e) ∧
      u.dev.tiles = s.dev.tiles)) ∧
    (∀ m : StreamMsg, s.dev.lny.inbox.find? (fun m => m.src == d.val) = some m →
      (m.dst ≠ own → m.det = none → ¬twin m.m →
        (∀ (p : Nat) (r : List Nat), hopPorts s.dev m.src m.dst = p :: r → idle p → Completes (.e2eReceive d) s (fun u =>
          u.dev.out = s.dev.out ++ [goes p m] ∧ u.dev.lny.inbox = s.dev.lny.inbox.erase m ∧ u.dev.tiles = s.dev.tiles)) ∧
        (hopPorts s.dev m.src m.dst = [] → m.src ≠ own → Completes (.e2eReceive d) s (fun u =>
          u.dev.lny.held = s.dev.lny.held ++ [m] ∧ u.dev.out = s.dev.out ∧ u.dev.lny.inbox = s.dev.lny.inbox.erase m ∧
          u.dev.tiles = s.dev.tiles))) ∧
      (m.dst = own → m.dinc ≠ s.dev.lny.inc → exec (.e2eReceive d) s =
        .next (withDev s (send { s.dev with lny := { s.dev.lny with inbox := s.dev.lny.inbox.erase m } }
          (.lenysAck d 0 [] s.dev.lny.inc true)))) ∧
      (m.dst = own → m.dinc = s.dev.lny.inc → t.inc = m.inc → m.seq = (lrxOf s.dev d).expect →
        ∀ kind g gen ab inc, m.m = .barrier kind g gen ab inc → Completes (.e2eReceive d) s (fun u =>
          u.dev.lny.ctl = s.dev.lny.ctl ++ [(d.val, m.m)] ∧ (lrxOf u.dev d).expect = m.seq + 1 ∧
          u.dev.out = s.dev.out ++ [.lenysAck d m.seq (lrxOf u.dev d).refs s.dev.lny.inc false] ∧
          u.dev.lny.inbox = s.dev.lny.inbox.erase m ∧ u.dev.tiles = s.dev.tiles)) ∧
      (m.dst = own → m.dinc = s.dev.lny.inc → t.inc = m.inc → 2 ^ 31 ≤ (m.seq - (lrxOf s.dev d).expect).toNat →
        Completes (.e2eReceive d) s (fun u =>
          u.dev.lny.ctl = s.dev.lny.ctl ∧ (lrxOf u.dev d) = lrxOf s.dev d ∧ u.dev.lny.e2e = incFld s.dev.lny.e2e 31 16 1 ∧
          u.dev.out = s.dev.out ++ [.lenysAck d ((lrxOf s.dev d).expect - 1) (lrxOf s.dev d).refs s.dev.lny.inc false] ∧
          u.dev.tiles = s.dev.tiles))) ∧
    (∀ seq : BitVec 32, t.kept.length ≤ 4096 → Completes (.e2eAck d seq [] t.inc s.dev.lny.inc false) s (fun u =>
      (ltxOf u.dev d).kept = t.kept.dropWhile (fun k => decide ((seq - k.1).toNat < 2 ^ 31)) ∧
      (ltxOf u.dev d).next = t.next ∧ u.dev.out = s.dev.out ∧ u.dev.tiles = s.dev.tiles)) ∧
    (∀ (p : Nat) (r : List Nat), t.kept ≠ [] → t.retries < 64 → reachable s.dev d = true → hopPorts s.dev own d = p :: r →
      Completes (.e2eRetransmit d) s (fun u => (ltxOf u.dev d).retries = t.retries + 1 ∧ (ltxOf u.dev d).kept = t.kept ∧
        u.dev.lny.e2e = incFld s.dev.lny.e2e 15 0 1 ∧ resent p u ∧ u.dev.tiles = s.dev.tiles)) ∧
    (s.dev.lny.grps = [] → t.kept = [] →
      (d.val ≠ own → isUnreach s.dev d = false → 64 ≤ t.retries ∨ bit (routeOf s.dev d) 8 = false →
        Completes (.destinationUnreachable d) s (fun u =>
          isUnreach u.dev d = true ∧ ltxOf u.dev d = { LTx.reset with inc := t.inc } ∧ u.dev.tiles = s.dev.tiles)) ∧
      (∀ inc : BitVec 32, s.dev.lny.ctl = [(d.val, .resetNotice inc)] → t.inc ≠ 0 → t.inc ≠ inc + 1 →
        Completes .resetNotice s (fun u =>
          ltxOf u.dev d = { LTx.reset with inc := inc + 1 } ∧ lrxOf u.dev d = { LRx.reset with inc := inc + 1 } ∧
          u.dev.lny.ctl = [] ∧ u.dev.tiles = s.dev.tiles))) ∧
    (∀ (part : Nat) (b : BitVec 32), s.dev.lny.ctl = [(d.val, .buildNotice part b)] →
      (∀ (x : Tile) (ch : Nat), (∃ k, x = tileOf s.dev k) → (chanOf x ch).run = none) →
      Completes .buildNotice s (fun u =>
        (∀ i, i < 2048 → bindW u.dev i 0 =
          if bit (bindW s.dev i 0) 0 = true ∧ fld (bindW s.dev i 0) 16 9 = d.val ∧ fld (bindW s.dev i 0) 23 17 = part
          then setBit (bindW s.dev i 0) 1 true else bindW s.dev i 0) ∧
        u.dev.lny.ctl = [] ∧ u.dev.tiles = s.dev.tiles))

/-- Cabinet barriers and cabinet time. The root records an arrive that matches, and the last one moves the group to the
next generation; a member follows the root's release, a broken release takes it to generation 0 with the root's abort
count, and an abort at the root does so with the next count, which keeps all ones (R595, R596, R773). The first exchange with the parent loads the
counter and later ones only measure; without a path the counter goes on by its own clock (R599, R600).
Corners the rules leave open are the model’s choices of log entries 14, 47 and 48. -/
def Obligations.CabinetBarriersAndTimeComplete : Prop :=
  ∀ (s : State) (src g gen aborts : Nat) (inc : BitVec 32),
    let q := grpOf s.dev g
    let told (kind : Nat) : Prop := s.dev.lny.ctl = [(src, .barrier kind g gen aborts inc)] ∧ q.valid = true ∧
      groupChannel s.dev g = none
    let root : Prop := grpRoot q = s.dev.lny.slot ∧ (grpMembers q).contains src = true
    (told 0 → root → gen = q.gen → aborts = q.aborts → inc = s.dev.lny.inc → q.bits.contains src = false →
      Completes .barrierArriveAtRoot s (fun u => u.dev.lny.ctl = [] ∧ u.dev.tiles = s.dev.tiles ∧
        ((∃ m ∈ grpMembers q, (q.bits ++ [src]).contains m = false) → grpOf u.dev g = { q with bits := q.bits ++ [src] }) ∧
        ((∀ m ∈ grpMembers q, (q.bits ++ [src]).contains m = true) →
          grpOf u.dev g = { q with gen := (q.gen + 1) % 2 ^ 16, bits := [] }))) ∧
    (grpRoot q = src →
      (told 1 → gen = q.gen → aborts = q.aborts → Completes .barrierRelease s (fun u =>
        grpOf u.dev g = { q with gen := (q.gen + 1) % 2 ^ 16, bits := [] } ∧ u.dev.lny.ctl = [] ∧ u.dev.tiles = s.dev.tiles)) ∧
      (told 2 → Completes .barrierRelease s (fun u =>
        grpOf u.dev g = { q with gen := 0, aborts := aborts, bits := [], aborting := false } ∧ u.dev.lny.ctl = [] ∧
        u.dev.tiles = s.dev.tiles))) ∧
    (told 3 → root → Completes .barrierAbort s (fun u =>
      grpOf u.dev g = { q with gen := 0, aborts := min (q.aborts + 1) (2 ^ 16 - 1), bits := [], aborting := false } ∧
      u.dev.lny.ctl = [] ∧ u.dev.tiles = s.dev.tiles)) ∧
    (s.dev.lny.master ≠ s.dev.lny.slot →
      (parentPath s.dev = true → ∀ (off : BitVec 16) (now : Word), Completes (.timeExchange off now) s (fun u =>
        u.dev.time = (if s.dev.timeValid = true then s.dev.time else now.toNat) ∧ u.dev.timeValid = true ∧
        u.dev.lny = { s.dev.lny with offset := off.toNat, depth := hopCount s.dev.lny.slot s.dev.lny.master, holdover := false } ∧
        u = withDev s { s.dev with
          time := u.dev.time, timeValid := true, lny := u.dev.lny
          clk := if s.dev.timeValid = true then s.dev.clk else { s.dev.clk with seen := [] } })) ∧
      (parentPath s.dev = false → exec .holdover s =
        .next (withDev s { s.dev with lny := { s.dev.lny with holdover := true } })))

/-! ### Partitions, repair -/

/-- Partition commands. A BUILD whose checks pass and that is not held leaves the partition running with every member tile in
it and code 0; one whose checks fail leaves everything but the code and its DETAIL (R613, R614, R617); a RESET of live
tiles leaves the partition running, built again, one over a dead tile fails (R621, R47), and one without a verified tile monitor
fails (R614); a TEARDOWN that FORCE or idle queues allow leaves it undefined (R619); a held command waits with BUSY and runs when
its hold ends (R615). A partition-fatal error rebuilds a running partition, and where no verified tile monitor is there it becomes
part-fatal, or waits for the management firmware that is starting again (R705, R738, R753, R754). A released grant is zeroed and
no longer held (R619).
Corners the rules leave open are the model’s choices of log entries 30, 31 and 52. -/
def Obligations.PartitionsComplete : Prop :=
  ∀ (s : State) (v : Word),
    let word (op : Nat) : Word := setBit (setFld v 1 0 op) 63 true
    let done (u : State) (p code detail : Nat) : Prop := u.dev.partCmd = ⟨false, p, code, detail, 0⟩
    (s.dev.partCmd.busy = false → bit v 10 = false →
      (cmdHeld s.dev (word 1) = false →
        (buildCheck s.dev = (0, 0) → Completes (.partBuild v) s (fun u =>
          (partSt u.dev (reqNum s.dev)).state = 2 ∧ done u (reqNum s.dev) 0 0 ∧
          (∀ t ∈ membersOf (reqPart s.dev), (tileOf u.dev t).member = reqNum s.dev + 1))) ∧
        (∀ code detail, buildCheck s.dev = (code, detail) → code ≠ 0 → exec (.partBuild v) s =
          .next (withDev s { s.dev with partCmd := ⟨false, reqNum s.dev, code, detail % 256, 0⟩ }))) ∧
      (let p := fld v 8 2
       (partSt s.dev p).state ≠ 0 →
        (cmdHeld s.dev (word 2) = false → (∀ t ∈ membersOf (partSt s.dev p), physOf s.dev t ≠ 0x1FF) →
          (s.dev.mgmt.tmOk = true → Completes (.partReset v) s (fun u => (partSt u.dev p).state = 2 ∧ done u p 0 0)) ∧
          (s.dev.mgmt.tmOk = false → exec (.partReset v) s =
            .next (withDev s { s.dev with partCmd := ⟨false, p, 7, 0xFF, 0⟩ }))) ∧
        (cmdHeld s.dev (word 2) = false → ∀ t, (membersOf (partSt s.dev p)).find? (fun t => physOf s.dev t == 0x1FF) = some t →
          exec (.partReset v) s = .next (withDev s { s.dev with partCmd := ⟨false, p, 6, t % 256, 0⟩ })) ∧
        (cmdHeld s.dev (word 3) = false → (bit v 9 = true ∨ ∀ q ∈ queuesOf s.dev p, (wqOf s.dev q).disp = none) →
          Completes (.partTeardown v) s (fun u =>
            (partSt u.dev p).state = 0 ∧ (partSt u.dev p).valid = false ∧ done u p 0 0)) ∧
        (cmdHeld s.dev (word 2) = true → Completes (.partReset v) s (fun u =>
          u.dev.partCmd = { s.dev.partCmd with busy := true, part := p, held := word 2 } ∧
          u = withDev s { s.dev with partCmd := u.dev.partCmd })))) ∧
    (s.dev.partCmd.busy = true → s.dev.mgmt.tmOk = true → s.dev.partCmd.held = word 2 → bit v 10 = false → cmdHeld s.dev (word 2) = false →
      (partSt s.dev (fld v 8 2)).state ≠ 0 → (∀ t ∈ membersOf (partSt s.dev (fld v 8 2)), physOf s.dev t ≠ 0x1FF) →
      Completes .partCmdHoldEnd s (fun u => (partSt u.dev (fld v 8 2)).state = 2 ∧ done u s.dev.partCmd.part 0 0)) ∧
    (∀ (p : Fin 128) (id : BitVec 16), (partSt s.dev p).valid = true → (partSt s.dev p).state = 2 → s.dev.pf.phase = 0 →
      (catClass id.toNat = some 1 ∨ catClass id.toNat = some 2) → id ≠ 0xA002 →
      ((partSt s.dev p).fatals.filter (fun t => decide (s.dev.time < t + 1000000000))).length < 7 →
      (s.dev.mgmt.tmOk = true → Completes (.partitionFatal p id none) s (fun u => (partSt u.dev p).state = 2)) ∧
      (s.dev.mgmt.tmOk = false → Completes (.partitionFatal p id none) s (fun u => (partSt u.dev p).state = 3 ∧
        (fwUp s.dev = true → (id.toNat, 0xFFFF) ∈ u.dev.fatal) ∧
        (fwUp s.dev = false → (p.val, id.toNat) ∈ u.dev.rebuild)))) ∧
    (∀ (k a n : Nat) (r : List (Nat × Nat × Nat)), s.dev.zeroing = (k, a, n) :: r →
      Completes .grantZeroingDone s (fun u => u.dev.zeroing = r ∧ u.dev.tiles = s.dev.tiles ∧
        (∀ b, a ≤ b → b < a + n → setBase s.dev k ≤ b → b < setBase s.dev k + setSize s.dev k →
          mget 0 u.dev.stack (stackKey (setMap s.dev k b).1 (setMap s.dev k b).2) = 0) ∧
        (∀ key, (key / 2 ^ 31) ∉ setList s.dev k → mget 0 u.dev.stack key = mget 0 s.dev.stack key)))

/-- Field repair. A failed tile outside any partition puts its column's spare under test (R42); a spare that passes is
mapped in by an entry on its way to flash, one that fails leaves an entry that makes the tile dead, and its commit retires the
partition it stopped (R43, R46); the oldest entry is committed to the field layer and the map it changes takes effect (R27, R44);
a link that exists leaves service by a repair entry (R30, R36, R37), a failed router takes its links along (R84), a replayed flit
is only recorded, with no UNIT where the position is disabled (R57, R83).
Corners the rules leave open are the model’s choices of log entries 33 and 52. -/
def Obligations.FieldRepairCompletes : Prop :=
  ∀ s : State,
    (∀ (phys : Fin 288) (k : Nat), let w := colOf s.dev.knots.eff (physCol phys)
      let v := colSlot w (physRow phys)
      fullLayer s.dev = false → v < 8 → spareRow w = some k → colSpare w = 0 → (∀ t, (tileOf s.dev t).member = 0) →
      s.dev.knots.jobs.any (fun j => j.col == physCol phys) = false →
      Completes (.tileFailure phys) s (fun u =>
        u.dev.knots = { s.dev.knots with
          jobs := s.dev.knots.jobs ++ [⟨physCol phys, physRow phys, k, v, [], 0⟩]
          due := s.dev.knots.due.filter (fun d => d != phys.val)
          unc := s.dev.knots.unc.filter (fun e => e.1 != phys.val) } ∧
        u.dev.tiles = s.dev.tiles)) ∧
    (∀ (col : Fin 32) (j : RepairJob), fullLayer s.dev = false → fwUp s.dev = true →
      s.dev.knots.jobs.find? (fun j => j.col == col.val && j.stage == 0) = some j →
      Completes (.spareSelfTestDone col true) s (fun u =>
        u.dev.knots = { s.dev.knots with
          jobs := s.dev.knots.jobs.map (fun i => if i = j then { i with stage := 1 } else i)
          flashPend := s.dev.knots.flashPend ++ [.tileMove j.col j.failed j.spare j.lrow] } ∧ u.dev.tiles = s.dev.tiles) ∧
      ((∀ i ∈ s.dev.knots.jobs, i.col = col.val → i.stage ≠ 4) → Completes (.spareSelfTestDone col false) s (fun u =>
        u.dev.knots = { s.dev.knots with
          jobs := s.dev.knots.jobs.erase j ++ [⟨j.col, j.failed, 9, j.lrow, j.parts, 3⟩]
          flashPend := s.dev.knots.flashPend ++ [.tileDead j.col j.failed j.lrow (some j.spare)] } ∧
        u.dev.tiles = s.dev.tiles))) ∧
    (∀ (e : KnotEntry) (r : List KnotEntry), s.dev.knots.flashPend = e :: r → s.dev.knots.field.length < 1024 →
      fwUp s.dev = true → (∀ w, e = .repair w → sparesGone s.dev w = false) → (∀ j ∈ s.dev.knots.jobs, j.stage ≠ 4) →
      Completes .fieldEntryCommit s (fun u => u.dev.knots.field = s.dev.knots.field ++ [e] ∧
        u.dev.knots.eff = applyEntry s.dev.knots.eff e ∧ u.dev.knots.gen = s.dev.knots.gen + 1 ∧ u.dev.knots.flashPend = r)) ∧
    (∀ (col failed lrow p : Nat) (spare : Option Nat) (r : List KnotEntry), s.dev.knots.flashPend = .tileDead col failed lrow spare :: r →
      s.dev.knots.field.length < 1024 → fwUp s.dev = true → s.dev.knots.jobs = [⟨col, failed, 9, lrow, [p], 3⟩] →
      (partSt s.dev p).valid = true → Completes .fieldEntryCommit s (fun u =>
        (partSt u.dev p).state = 4 ∧ u.dev.knots.jobs = [] ∧ u.dev.knots.eff = applyEntry s.dev.knots.eff (.tileDead col failed lrow spare))) ∧
    (∀ (unit : Fin 356) (axis bridge : Bool), linkExists unit axis bridge = false → exec (.meshLinkOut unit axis bridge) s = .next s) ∧
    (∀ (unit : Fin 356) (axis bridge : Bool), linkExists unit axis bridge = true →
      let w := linkOut unit axis bridge
      fullLayer s.dev = false → s.dev.knots.flashPend.any (fun e => decide (e = .repair w)) = false →
      s.dev.knots.eff.repairs.contains w = false →
      Completes (.meshLinkOut unit axis bridge) s (fun u =>
        u.dev.knots = { s.dev.knots with flashPend := s.dev.knots.flashPend ++ [.repair w] } ∧ u.dev.tiles = s.dev.tiles)) ∧
    (∀ phys : Fin 288, let unit := tileUnit s.dev (some phys)
      Completes (.flitReplay phys) s (fun u =>
      mget 0 u.dev.corrLog (65536 * 0x1101 + unit) = mget 0 s.dev.corrLog (65536 * 0x1101 + unit) + 1 ∧
      fld (ioGet u.dev regErrCount) 15 0 = min (fld (ioGet s.dev regErrCount) 15 0 + 1) (2 ^ 16 - 1) ∧
      u.dev.knots = s.dev.knots ∧ u.dev.tiles = s.dev.tiles)) ∧
    (∀ phys : Fin 288, tileUnit s.dev (some phys) = 0xFFFF →
      s.dev.knots.field.length + s.dev.knots.flashPend.length + 8 ≤ 1024 →
      Completes (.routerFailure phys) s (fun u => (∀ l ∈ routerLinks phys,
        .repair (linkOut l.1 l.2.1 l.2.2) ∈ u.dev.knots.flashPend ∨ (linkOut l.1 l.2.1 l.2.2) ∈ s.dev.knots.eff.repairs) ∧
        (∀ e ∈ s.dev.knots.flashPend, e ∈ u.dev.knots.flashPend)))

/-! ### Kiln -/

/-- The levels of Kiln. A tick inside an epoch takes P, at most 1,180 W (R92), and with no ramp, cap or thermal limit the ceiling
is the held level and what cords have released, within LIMIT, and the floor follows P down by SLEW at most, never under 180 W
(R89, R91); while a shed's ramp runs the ceiling is its level, which falls by its slope, and the floor is 10 W below (R113); at
an epoch's boundary the held level becomes the floor under the ceiling, and the new epoch's cords apply unless the part is
silent (R91, R94, R97, R115); a message for a later epoch is kept once a Lenys channel is trained (R142), one with an older term
is not accepted, a newer term is taken in any state, START begins power-up from Cold (R93 to R96); the slow loop sends the level
report and loads the shadow registers, the requests and the thermal cap (R94, R97, R101, R102, R118); after five unheard epochs
the part is silent with no cords (R115).
How a measured P beyond the bounds of R92 is taken is the model’s choice of log entry 63; other corners the rules leave open are
those of log entries 23 and 25 to 27. -/
def Obligations.KilnLevels : Prop :=
  ∀ s : State,
    let q := s.dev.kiln
    let now := s.dev.time / 1000000
    let calm : Prop := q.bankGo = none ∧ q.bank = none ∧ q.shed = none ∧ q.cap = none
    let k := (s.dev.time / 10000 + 1) % 100
    (s.dev.pwr.seq = 6 → q.due = false → q.capping = false → k ≠ 0 → ∀ (p : Fin 0x8000000) (vin iin : BitVec 16),
      let taken (u : State) : Prop :=
        u.dev.time = (s.dev.time / 10000 + 1) * 10000 ∧ u.dev.kiln.p = drawIn s.dev p ∧ u.dev.kiln.p ≤ 118000000 ∧
        (q.recent.length < 9 → u.dev.kiln.p = min 118000000 p.val) ∧ u.dev.kiln.sum = q.sum + u.dev.kiln.p ∧
        u.dev.kiln.h = q.h ∧ u.dev.kiln.cords = q.cords ∧
        u.dev.pwr.vin = vin.toNat ∧ u.dev.pwr.iin = iin.toNat ∧ u.dev.tiles = s.dev.tiles
      (calm → Completes (.fastLoopTick p vin iin) s (fun u => taken u ∧
        u.dev.kiln.c = min q.limit (q.h + q.cords * k * 25000) ∧
        u.dev.kiln.f = max 18000000 (max u.dev.kiln.p (q.f - q.slew)))) ∧
      (∀ r : Ramp, q.bankGo = none → q.bank = none → q.shed = some r → q.cap = none → r.target < r.level - r.slope →
        Completes (.fastLoopTick p vin iin) s (fun u => taken u ∧
          u.dev.kiln.shed = some { r with level := r.level - r.slope } ∧ u.dev.kiln.c = min q.limit (r.level - r.slope) ∧
          u.dev.kiln.f = u.dev.kiln.c - 1000000))) ∧
    (s.dev.pwr.seq ≠ 6 → ¬ (s.dev.pwr.seq = 1 ∧ s.dev.pwr.phase = 2) → ∀ (p : Fin 0x8000000) (vin iin : BitVec 16),
      Completes (.fastLoopTick p vin iin) s (fun u =>
        u.dev.time = (s.dev.time / 10000 + 1) * 10000 ∧ u.dev.uptime = s.dev.uptime + (u.dev.time - s.dev.time) ∧
        u.dev.kiln = { q with p := min 118000000 p.val } ∧ u.dev.tiles = s.dev.tiles)) ∧
    (let missed := if q.counted then q.missed else if q.msgs.any (fun m => m.epoch == now - 1) then 0 else min 5 (q.missed + 1)
     s.dev.pwr.seq = 6 → q.due = true → calm → stopGranted { q with missed := missed } now = false →
      Completes .epochBoundary s (fun u =>
        let cEnd := min q.limit (q.h + 2500000 * q.cords)
        u.dev.kiln.h = max 18000000 (min cEnd q.f) ∧ u.dev.kiln.due = false ∧ u.dev.kiln.ticks = 0 ∧
        u.dev.kiln.sum = 0 ∧ u.dev.kiln.c = min u.dev.kiln.limit u.dev.kiln.h ∧ u.dev.kiln.report = some (levelReport s.dev (now - 1) (max 18000000 (min cEnd q.f)) cEnd) ∧
        (q.silent = false → missed ≠ 5 → u.dev.kiln.silent = false ∧ u.dev.kiln.cords = ((q.shadow.filter (fun m => m.epoch == now)).map (fun m => m.cords)).getD 0) ∧
        u.dev.time = s.dev.time ∧ u.dev.tiles = s.dev.tiles)) ∧
    (∀ (term : BitVec 32) (epoch : BitVec 64) (cords : Fin 16) (slew : BitVec 16) (start stopOk resume shedClear : Bool),
      let msg : Instr := .epochMessage term epoch cords slew start stopOk resume shedClear
      (fwUp s.dev = true → q.term ≤ term → s.dev.pwr.seq = 6 ∨ s.dev.pwr.seq = 1 → s.dev.timeValid = true →
        lenysUp s.dev = true → now + 2 ≤ epoch.toNat →
        (∀ m ∈ q.msgs, m.epoch ≠ epoch.toNat) → exec msg s = .next (withDev s { s.dev with kiln := { q with
          term := term
          msgs := q.msgs ++ [⟨epoch.toNat, cords, slew.toNat, b2n start + 2 * b2n stopOk + 4 * b2n resume + 8 * b2n shedClear, false⟩] } })) ∧
      (term < q.term → exec msg s = .next s) ∧
      (fwUp s.dev = true → q.term ≤ term → s.dev.pwr.seq ≠ 0 → s.dev.pwr.seq ≠ 5 →
        s.dev.timeValid = false ∨ lenysUp s.dev = false ∨ (s.dev.pwr.seq ≠ 6 ∧ s.dev.pwr.seq ≠ 1) →
        exec msg s = .next (withDev s { s.dev with kiln := { q with term := term } })) ∧
      (fwUp s.dev = true → q.term ≤ term → s.dev.pwr.seq = 0 → s.dev.pwr.inrush = 4 → start = true → Completes msg s (fun u =>
        u.dev.pwr.seq = 1 ∧ u.dev.pwr.phase = 0 ∧ (railOf u.dev 1).st = 1 ∧ u.dev.kiln.term = term ∧
        u.dev.mgmt.stage = 3 ∧ u.dev.tiles = s.dev.tiles))) ∧
    (s.dev.pwr.seq = 6 → q.due = false → fwUp s.dev = true →
      (∀ (e : Nat) (a b : Word), q.report = some (e, a, b) → (s.dev.time % 1000000 < 900000 ∨ 980000 ≤ s.dev.time % 1000000) →
        exec .slowLoop s = .next (withDev s (toManagers { s.dev with kiln := { q with report := none } } 4
          (flueHead s.dev 4 q.term e ++ [a, b])))) ∧
      (q.report = none → 900000 ≤ s.dev.time % 1000000 → s.dev.time % 1000000 < 980000 → Completes .slowLoop s (fun u =>
        let hot := max (mget 0 q.temp 0) (mget 0 q.temp 1)
        u.dev.kiln.shadow = q.msgs.find? (fun m => m.epoch == now + 1 && !m.late) ∧ u.dev.kiln.counted = true ∧
        u.dev.kiln.freqLoad = q.freqReq ∧ u.dev.kiln.capping = (decide (400 ≤ hot) || (q.capping && decide (388 ≤ hot))) ∧
        (q.counted = false → u.dev.kiln.missed = if q.msgs.any (fun m => m.epoch == now) then 0 else min 5 (q.missed + 1)) ∧
        u = withDev s { s.dev with kiln := u.dev.kiln }))) ∧
    (s.dev.pwr.seq = 6 → q.missed = 5 → q.silent = false → q.due = true ∨ q.counted = false →
      exec .silentEntry s = .next (withDev s { s.dev with kiln := { q with silent := true, cords := 0 } }))

/-- Orders to Kiln and its protections. A new shed order to a level the part is above starts a ramp at the ceiling with no cords,
one to a level it is not above caps the ceiling under a lower cap that stands, the same order again does neither (R112 to R114);
GO of KILN_BANK waits for the next tick, and banking to Cold refuses doorbells from GO
on (R109 to R111); at 180 W with no work the part is drained (R111); a reading at 100 °C caps (R118); the droop guard acts
and is counted until released (R100); kindling runs on an idle engine of a tile that burns it, ends with its signature, and a
mismatch is counted (R104, R105, R108).
What a second shed order does to a ramp that runs is the model’s choice of log entry 26; other corners the rules leave open are
those of log entries 23, 26, 27 and 64. -/
def Obligations.KilnOrdersComplete : Prop :=
  ∀ s : State,
    let q := s.dev.kiln
    (∀ (term ident : BitVec 32) (target slope : BitVec 16), fwUp s.dev = true → q.term ≤ term → slope ≠ 0 →
      180 ≤ target.toNat → target.toNat ≤ 1180 → s.dev.pwr.seq = 6 →
      (q.shedId ≠ some ident.toNat → target.toNat * 100000 < q.c → Completes (.shedOrder term ident target slope) s (fun u =>
        u.dev.kiln.shed = some (match q.shed with
          | none => ⟨target.toNat * 100000, slope.toNat, false, q.c⟩
          | some r => ⟨min (target.toNat * 100000) r.target, slope.toNat, r.cold, q.c⟩) ∧
        u.dev.kiln.cords = 0 ∧ u.dev.kiln.h = q.h ∧ u.dev.kiln.shedId = some ident.toNat ∧ u.dev.kiln.c = q.c ∧
        u.dev.coldRefuse = s.dev.coldRefuse ∧ u.dev.tiles = s.dev.tiles)) ∧
      (q.shedId ≠ some ident.toNat → q.c ≤ target.toNat * 100000 → Completes (.shedOrder term ident target slope) s (fun u =>
        u.dev.kiln.cap = some (min (target.toNat * 100000) (q.cap.getD (target.toNat * 100000))) ∧ u.dev.kiln.shed = q.shed ∧
        u.dev.kiln.shedId = some ident.toNat ∧ u.dev.kiln.h = q.h ∧ u.dev.kiln.cords = q.cords ∧ u.dev.tiles = s.dev.tiles)) ∧
      (q.shedId = some ident.toNat → Completes (.shedOrder term ident target slope) s (fun u =>
        u.dev.kiln = { q with term := term } ∧ u.dev.tiles = s.dev.tiles))) ∧
    (s.dev.pwr.seq = 6 → ∀ slope : BitVec 16,
      let goes (u : State) (t sl : Nat) : Prop := u.dev.kiln = { q with bankReg := u.dev.kiln.bankReg, bankGo := some (t, sl) } ∧
        fld u.dev.kiln.bankReg 31 16 = sl ∧ fld u.dev.kiln.bankReg 1 0 = t ∧
        u = withDev s { s.dev with kiln := u.dev.kiln, coldRefuse := u.dev.coldRefuse }
      Completes (.bankSmoulder slope) s (fun u => goes u 1 slope.toNat ∧ u.dev.coldRefuse = s.dev.coldRefuse) ∧
      Completes (.bankCold slope) s (fun u => goes u 2 slope.toNat ∧ u.dev.coldRefuse = true) ∧
      Completes .bankCancel s (fun u => goes u 0 0 ∧ u.dev.coldRefuse = s.dev.coldRefuse)) ∧
    (∀ r : Ramp, q.bank = some r → r.cold = true → q.c ≤ 18000000 → running s.dev = false →
      exec .bankColdDrained s = .next (withDev s { s.dev with kiln := { q with drained := true } })) ∧
    (∀ (leaf : Fin 2) (temp : Fin 1024), Completes (.thermalCap leaf temp) s (fun u =>
      mget 0 u.dev.kiln.temp leaf = temp ∧ (∀ l : Fin 2, l ≠ leaf → mget 0 u.dev.kiln.temp l = mget 0 q.temp l) ∧
      u.dev.kiln.capping = (q.capping || decide (400 ≤ temp.val)) ∧
      u = withDev s { s.dev with kiln := { q with temp := u.dev.kiln.temp, capping := u.dev.kiln.capping } })) ∧
    (s.dev.pwr.seq = 6 → exec .droopGuard s = .next (withDev s { s.dev with kiln := { q with
      droop := true, stats := incFld q.stats 63 32 1 } })) ∧
    Completes .droopGuardRelease s (fun u => u.dev.kiln = { q with droop := false } ∧ u.dev.tiles = s.dev.tiles ∧
      u.dev.stack = s.dev.stack) ∧
    (∀ (t : TileId) (engine : Fin 2),
      (s.dev.pwr.seq = 6 → (kindleBurners s.dev q.kind).contains t.val = true → mayKindle s.dev t engine = true → q.quanta.contains (t.val, engine.val) = false →
        exec (.kindlingQuantum t engine) s =
          .next (withDev s { s.dev with kiln := { q with quanta := q.quanta ++ [(t.val, engine.val)] } })) ∧
      (q.quanta.contains (t.val, engine.val) = true →
        Completes (.kindlingQuantumEnd t engine (Config.kindlingReference engine)) s (fun u =>
          u.dev.kiln = { q with quanta := q.quanta.erase (t.val, engine.val) } ∧ u.dev.tiles = s.dev.tiles ∧
          u.dev.stack = s.dev.stack ∧ u.dev.knots = s.dev.knots ∧
          ∀ p, p ≠ physOf s.dev t → mget KindSt.reset u.dev.kindle p = mget KindSt.reset s.dev.kindle p)) ∧
      (q.quanta.contains (t.val, engine.val) = true → (∀ k, (tileOf s.dev k).member = 0) →
        ∀ sig, sig ≠ Config.kindlingReference engine → Completes (.kindlingQuantumEnd t engine sig) s (fun u =>
          u.dev.kiln.kindFail = incFld q.kindFail 31 0 1 ∧ u.dev.kiln.bad.contains (physOf s.dev t) = true ∧
          u.dev.kiln.quanta = q.quanta.erase (t.val, engine.val) ∧ u.dev.tiles = s.dev.tiles)))

/-- Tile clocks and PLLs. A step Kiln asks for reaches the clock and completes at the frequency asked (R72), and one above the
request is withdrawn (R101); a PLL that loses lock clears its bit of CLK_LOCK and sets that of CLK_LOCK_LOST (R81): one of the
tiles, mesh, I/O fabric, management or time is part-fatal, and one of a stack, a host port or a Lenys port is a fault of that
(R85). What the last three do to their stack, port or link is the model’s choice of log entry 28. -/
def Obligations.ClocksComplete : Prop :=
  ∀ s : State,
    let c := s.dev.clk
    let lost (u : State) (i : Nat) : Prop := u.dev.clk = { c with lock := setBit c.lock i false, lost := setBit c.lost i true }
    (∀ (leaf : Fin 2) (f : Nat), mget none c.want leaf = some f → stepTooHigh s.dev leaf f = true →
      (mget false c.step leaf = false → Completes (.dvfsStep leaf) s (fun u => mget none u.dev.clk.want leaf = none ∧
        u.dev.clk.freq = c.freq ∧ u.dev.clk.step = c.step ∧ u.dev.tiles = s.dev.tiles)) ∧
      (mget false c.step leaf = true → Completes (.dvfsStepDone leaf) s (fun u =>
        (∀ l, mget 32 u.dev.clk.freq l = mget 32 c.freq l) ∧ mget none u.dev.clk.want leaf = none ∧
        mget false u.dev.clk.step leaf = false ∧ u.dev.tiles = s.dev.tiles))) ∧
    (∀ (leaf : Fin 2) (f : Nat), mget none c.want leaf = some f → stepTooHigh s.dev leaf f = false →
      (mget false c.step leaf = false → Completes (.dvfsStep leaf) s (fun u =>
        mget false u.dev.clk.step leaf = true ∧ u.dev.clk.freq = c.freq ∧ u.dev.clk.want = c.want ∧ u.dev.tiles = s.dev.tiles)) ∧
      (mget false c.step leaf = true → Completes (.dvfsStepDone leaf) s (fun u =>
        mget 32 u.dev.clk.freq leaf = f ∧ (∀ l, l ≠ leaf.val → mget 32 u.dev.clk.freq l = mget 32 c.freq l) ∧
        mget none u.dev.clk.want leaf = none ∧ mget false u.dev.clk.step leaf = false ∧ u.dev.tiles = s.dev.tiles))) ∧
    (∀ pll : Fin 31, bit c.lock pll = true →
      (pll.val ≤ 4 ∨ 29 ≤ pll.val → Completes (.pllLockLost pll) s (fun u => lost u pll ∧
        u.dev.fatal = s.dev.fatal ++ [(0x7001, 0xFFFF)] ∧ u.dev.tiles = s.dev.tiles)) ∧
      (5 ≤ pll.val → pll.val ≤ 10 → Completes (.portPllLockLost pll) s (fun u => lost u pll ∧
        mget false u.dev.hbm.trained (pll.val - 5) = false ∧ mget false u.dev.hbm.init (pll.val - 5) = false ∧
        (∀ k, k ≠ pll.val - 5 → mget false u.dev.hbm.trained k = mget false s.dev.hbm.trained k) ∧
        u = withDev s { s.dev with clk := u.dev.clk, hbm := u.dev.hbm })) ∧
      (11 ≤ pll.val → pll.val ≤ 12 → Completes (.portPllLockLost pll) s (fun u => lost u pll ∧
        (hportOf u.dev (pll.val - 11)).dlUp = false)) ∧
      (13 ≤ pll.val → pll.val ≤ 28 → (lportOf s.dev (pll.val - 13)).st = 2 → Completes (.portPllLockLost pll) s (fun u =>
        lost u pll ∧ lportOf u.dev (pll.val - 13) = { lportOf s.dev (pll.val - 13) with st := 3, replay := [], outq := [] } ∧
        u.dev.tiles = s.dev.tiles)))

/-- Attribution of repeated errors (R744). A third uncorrectable error of a pseudo-channel in a distinct row within 1 s, found
by a command slot's read, maps the pseudo-channel out (R41, R545); a third of a physical tile in a distinct word within 1 s,
found by the scrubber, makes the tile a failed tile: a tile of no partition whose column has its spare goes under repair
(R42). A second distinct word attributes nothing.
Corners the rules leave open are the model’s choices of log entries 21 and 52. -/
def Obligations.RepeatedErrorsAttributed : Prop :=
  ∀ s : State,
    let k := s.dev.knots
    let seen (unit w : Nat) : Prop := ∃ t, (unit, w, t) ∈ k.unc ∧ s.dev.time < t + 1000000000
    (∀ (pc : Fin 192) (loc : Fin 0x80000000) (a b : Nat),
      let row := Config.hbmBank loc % 64 * 2 ^ 18 + Config.hbmRow loc % 2 ^ 18
      hasHbm s.dev = true → pcOut s.dev pc = false → mget [] s.dev.hbm.queue pc = [] → loc.val < pcCap s.dev →
      scrubTurn s.dev pc = false → bankClosed s.dev pc loc = false → seen (288 + pc) a → seen (288 + pc) b → a ≠ b → a ≠ row → b ≠ row →
      Completes (.hbmCommandSlot pc loc 2) s (fun u => pcOut u.dev pc = true ∧
        (∀ q : Fin 192, q ≠ pc → pcOut u.dev q = pcOut s.dev q) ∧ mget [] u.dev.hbm.queue pc = [] ∧
        u.dev.stack = s.dev.stack ∧ u.dev.tiles = s.dev.tiles)) ∧
    (∀ (t : TileId) (bank : Fin 24) (a b r : Nat),
      let x := tileOf s.dev t
      let w := bankWord bank (mget 0 x.dr.scrubPos bank)
      let phys := physOf s.dev t
      let col := colOf k.eff (physCol phys)
      x.dr.scrubDone.getLsbD bank = false → x.member = 0 → seen phys a → seen phys b → a ≠ b → a ≠ w → b ≠ w →
      phys < 288 → colSlot col (physRow phys) < 8 → spareRow col = some r → colSpare col = 0 → fullLayer s.dev = false →
      k.jobs.any (fun j => j.col == physCol phys) = false →
      Completes (.scrubSlot t bank false 2) s (fun u =>
        u.dev.knots.jobs = k.jobs ++ [⟨physCol phys, physRow phys, r, colSlot col (physRow phys), [], 0⟩] ∧
        u.dev.knots.due.contains phys = false ∧ (tileOf u.dev t).spad = x.spad ∧
        (∀ j, mget false (tileOf u.dev t).dr.poison j = if j = w then true else mget false x.dr.poison j))) ∧
    (∀ (t : TileId) (bank : Fin 24),
      let x := tileOf s.dev t
      x.dr.scrubDone.getLsbD bank = false → (∀ e ∈ k.unc, e.1 ≠ physOf s.dev t) → k.due.contains (physOf s.dev t) = false →
      Completes (.scrubSlot t bank false 2) s (fun u => u.dev.knots.jobs = k.jobs ∧
        u.dev.knots.due = k.due ∧ u.dev.knots.unc.countP (fun e => e.1 == physOf s.dev t) = 1))

/-! ### Power -/

/-- The input stage. PWR_EN and the input's return are taken; an excursion is counted, an input fault opens the switch
(R134 to R136, R153); the switch closes after the debounce, the bus converter charges and the management supply comes up,
which reads the straps and releases the management controller, or a START held in the off time begins power-up (R139, R140,
R153, R154); a window missed opens the switch, the fourth time for good, until PWR_EN is held low or the input was removed (R156);
the loss of the management supply leaves what fuses, flash and the inrush stage hold (R156, R770); staged records reach the log
(R161). An event is logged by a part that has VMGMT (R141).
Corners the rules leave open are the model’s choices of log entries 28 and 75. -/
def Obligations.PowerInputCompletes : Prop :=
  ∀ (s : State) (vin : BitVec 16),
    let p := s.dev.pwr
    let pwr (u : State) (q : PwrSt) : Prop := u.dev = { s.dev with pwr := q, out := u.dev.out } ∧ u.pending = s.pending
    Completes (.pwrEnHigh vin) s (fun u => pwr u { p with
      pwrEn := true, inRange := true, vin := vin.toNat, input := if p.input = 2 then 0 else p.input }) ∧
    Completes .pwrEnLow s (fun u => pwr u { p with pwrEn := false, inrush := 0, tries := 0, inrushLatch := false }) ∧
    (p.inRange = true → p.input = 0 →
      Completes (.inputExcursionStart vin) s (fun u => pwr u { p with input := 1, vin := vin.toNat })) ∧
    (p.input = 1 → Completes (.inputExcursionEnd vin) s (fun u =>
      u.dev.pwr.input = 0 ∧ u.dev.pwr.vin = vin.toNat ∧
      (p.vmgmt = true → u.dev.pwr.exc = satAdd 16 p.exc 1 ∧ fld u.dev.pwr.fault 15 0 = 1 ∧
        u.dev.pwr.staged.length = p.staged.length + 1) ∧
      (p.vmgmt = false → u.dev.pwr = { p with input := 0, vin := vin.toNat }) ∧ u.dev.tiles = s.dev.tiles)) ∧
    (p.input ≠ 2 → p.inRange = true → p.seq = 0 → ∀ high : Bool, Completes (.inputFault high vin) s (fun u =>
      u.dev.pwr.input = 2 ∧ u.dev.pwr.inRange = false ∧ u.dev.pwr.inrush = 0 ∧
      (p.vmgmt = true → fld u.dev.pwr.fault 15 0 = (if high = true then 3 else 2)) ∧ u.dev.tiles = s.dev.tiles)) ∧
    (p.inRange = false → ∀ removed : Bool, Completes (.inputReturn (vin, removed)) s (fun u =>
      u.dev.pwr.inRange = true ∧ u.dev.pwr.input = 0 ∧ u.dev.pwr.vin = vin.toNat ∧
      (p.vmgmt = true → fld u.dev.pwr.fault 15 0 = 0x40) ∧ u.dev.pwr.inrush = p.inrush ∧
      u.dev.pwr.tries = (if removed = true then 0 else p.tries) ∧
      u.dev.pwr.inrushLatch = (p.inrushLatch && !removed) ∧ u.dev.tiles = s.dev.tiles)) ∧
    (p.inRange = true → p.pwrEn = true → p.inrush = 0 → p.inrushLatch = false → p.seq ≠ 3 →
      Completes .inputDebounceDone s (fun u => pwr u { p with inrush := 1, thermtrip := false })) ∧
    (p.inrush = 1 → Completes .inrushNodeUp s (fun u => u.dev.pwr.inrush = 2 ∧ (railOf u.dev 10).st = 1 ∧
      pwr u { p with inrush := 2, rails := u.dev.pwr.rails })) ∧
    (p.inrush = 2 → Completes .ibGood s (fun u => (railOf u.dev 10).st = 2 ∧ (railOf u.dev 10).mv = 5700 ∧
      (p.vmgmt = true → u.dev.pwr.inrush = 4 ∧ u.dev.pwr.tries = 0 ∧
        (p.seq = 0 → p.startPend = true → fwUp s.dev = true → u.dev.pwr.seq = 1 ∧ u.dev.kiln.term = s.dev.kiln.term)) ∧
      (p.vmgmt = false → u.dev.pwr.inrush = 3 ∧ (railOf u.dev 0).st = 1) ∧ u.dev.tiles = s.dev.tiles)) ∧
    (p.inrush = 3 → Completes .vmgmtGood s (fun u =>
      u.dev.pwr.inrush = 4 ∧ u.dev.pwr.vmgmt = true ∧ u.dev.pwr.tries = 0 ∧ (railOf u.dev 0).st = 2 ∧
      760 ≤ (railOf u.dev 0).mv ∧ (railOf u.dev 0).mv ≤ 840 ∧ u.dev.lny = { s.dev.lny with slot := s.dev.lny.strap } ∧ bit u.dev.clk.lock 29 = true ∧
      u.dev.mgmt = { s.dev.mgmt with stage := 0 } ∧ u.dev.tiles = s.dev.tiles)) ∧
    (1 ≤ p.inrush → p.inrush ≤ 3 → Completes .inrushWindowFault s (fun u => u.dev.pwr.inrush = 0 ∧
      u.dev.pwr.tries = min 3 (p.tries + 1) ∧ u.dev.pwr.inrushLatch = decide (3 ≤ p.tries) ∧ (railOf u.dev 10).st = 0 ∧
      u.dev.tiles = s.dev.tiles)) ∧
    (p.vmgmt = true → Completes .mgmtSupplyLost s (fun u => u.dev.pwr.vmgmt = false ∧ u.dev.pwr.seq = 0 ∧
      (p.inrush = 4 → u.dev.pwr.mgmtLost = some 0 ∨ u.dev.pwr.mgmtLost = some 10) ∧
      (p.inrush ≠ 4 → u.dev.pwr.mgmtLost = p.mgmtLost) ∧
      u.dev.pwr.tries = p.tries ∧ u.dev.pwr.inrushLatch = p.inrushLatch ∧ u.dev.pwr.thermtrip = p.thermtrip ∧
      u.dev.pwr.rails = [] ∧ u.dev.uptime = 0 ∧ u.dev.stack = [] ∧ u.dev.io = [] ∧ (∀ t, tileOf u.dev t = Tile.reset) ∧
      u.dev.mgmt.flash = s.dev.mgmt.flash ∧ u.dev.mgmt.revoked = s.dev.mgmt.revoked ∧ u.dev.mgmt.roll1 = s.dev.mgmt.roll1 ∧
      u.dev.mgmt.roll2 = s.dev.mgmt.roll2 ∧ u.dev.mgmt.sectors = s.dev.mgmt.sectors ∧ u.dev.knots.field = s.dev.knots.field)) ∧
    (∀ (r : List Word) (rest : List (List Word)), p.staged = r :: rest → Completes .alwaysOnLogCommit s (fun u =>
      u.dev.pwr.staged = rest ∧ mget 0 u.dev.mgmt.seqs 1 = (mget 0 s.dev.mgmt.seqs 1 + 1) % 2 ^ 32 ∧ u.dev.tiles = s.dev.tiles))

/-- The sequencer. A rail that is good lets the next group follow, and after the last the PLLs lock (R144, R145); with the
locks the domain resets are released (R145, R716); a rail that is down, or fails to discharge, lets the teardown go on
(R144, R146, R152); a soft-start fault takes the rails down and is logged (R149, R150); the retry starts the sequence anew, and
that of the functions that wait for one (R151, R159); CLEAR_LATCH frees a latched part, in its off time where that still runs
(R151, R154, R169); the off time ends in Cold or in a held START (R154); an interlock clamps VHBM_Q (R148); a failed rail and a
thermal trip power the part down, in power-up too, and a trip while the rails go down only holds THERMTRIP_N (R118, R155, R163,
R550); a function goes down when nothing uses it and up again with its training, a leaf's rails follow the same steps, and three
failed retries latch it off (R157 to R159). An event is logged by a part that has VMGMT (R141).
A corner the rules leave open is the model’s choice of log entry 28. -/
def Obligations.PowerSequenceCompletes : Prop :=
  ∀ (s : State) (rail : Fin 11) (mv da : BitVec 16),
    let p := s.dev.pwr
    let groups := railGroups s.dev
    (p.seq = 6 → 4 ≤ rail.val → rail.val ≤ 7 → (funcOf s.dev (rail.val % 2)).st = 2 → (funcOf s.dev (rail.val % 2)).wait = false →
      (railOf s.dev rail).st = 1 → Completes (.railGood rail (mv, da)) s (fun u => railOf u.dev rail = ⟨2, mv.toNat, da.toNat⟩ ∧
        (∀ r, r ≠ rail.val → railOf u.dev r = railOf s.dev r) ∧ u.dev.tiles = s.dev.tiles)) ∧
    (p.seq = 1 → (railOf s.dev rail).st = 1 → Completes (.railGood rail (mv, da)) s (fun u =>
      railOf u.dev rail = ⟨2, mv.toNat, da.toNat⟩ ∧
      (∀ r, r ≠ rail.val → railOf u.dev r = railOf s.dev r) ∧
      (∀ g, groups.find? (fun g => g.contains rail.val) = some g → (∀ r ∈ g, r ≠ rail.val → (railOf s.dev r).st = 2) →
        (g = groups.getLast?.getD [] → u.dev.pwr.phase = 1) ∧
        ((groups.getLast?.getD []).contains rail.val = false → u.dev.pwr.nextDue = true)) ∧ u.dev.tiles = s.dev.tiles)) ∧
    (p.seq = 1 → p.nextDue = true → ∀ g, groups.find? (fun g => g.any (fun r => (railOf s.dev r).st == 0)) = some g →
      Completes .nextRailEnable s (fun u => (∀ r ∈ g, (railOf u.dev r).st = 1) ∧
        (∀ r, r ∉ g → railOf u.dev r = railOf s.dev r) ∧ u.dev.pwr.nextDue = false ∧ u.dev.tiles = s.dev.tiles)) ∧
    (p.seq = 1 → p.phase = 1 → bridgeOut s.dev ≤ 8 → s.dev.knots.unrecorded = false → Completes .pllLockDone s (fun u =>
      u.dev.pwr.phase = 2 ∧ u.dev.clk.lock = lockOf s.dev (·.latch) ∧ u.dev.lny.inc = s.dev.lny.inc + 1 ∧ u.dev.mgmt.stage = 5 ∧
      u.dev.mgmt.attest = true ∧ u.dev.mgmt.bootCount = satAdd 16 s.dev.mgmt.bootCount 1 ∧
      (∀ f : Fin 24, (funcOf s.dev f).latch = false → (funcOf u.dev f).st = 3) ∧ u.dev.tiles = s.dev.tiles)) ∧
    (p.downing = true → (railOf s.dev rail).st = 3 → (∃ r, 1 ≤ r ∧ r ≤ 9 ∧ r ≠ rail.val ∧ (railOf s.dev r).st = 3) →
      Completes (.railDown rail) s (fun u => railOf u.dev rail = RailSt.off ∧
        (∀ r, r ≠ rail.val → railOf u.dev r = railOf s.dev r) ∧ u.dev.tiles = s.dev.tiles) ∧
      (∀ ilim : Bool, Completes (.dischargeWindowEnd rail ilim mv da) s (fun u =>
        railOf u.dev rail = ⟨4, mv.toNat, da.toNat⟩ ∧ (∀ r, r ≠ rail.val → railOf u.dev r = railOf s.dev r) ∧
        u.dev.pwr.disch = (p.disch || !ilim) ∧
        (p.vmgmt = true → fld u.dev.pwr.fault 15 0 = (if ilim = true then 0x21 else 0x20)) ∧
        u.dev.tiles = s.dev.tiles))) ∧
    ((railOf s.dev 9).st = 2 ∨ (railOf s.dev 9).st = 3 → p.downing = false → Completes (.qclamp none mv da) s (fun u =>
      railOf u.dev 9 = RailSt.off ∧ (∀ r, r ≠ 9 → railOf u.dev r = railOf s.dev r) ∧
      (p.vmgmt = true → fld u.dev.pwr.fault 15 0 = 0x28) ∧ u.dev.tiles = s.dev.tiles)) ∧
    ((railOf s.dev 9).st = 1 ∨ (railOf s.dev 9).st = 4 → Completes (.qclamp none mv da) s (fun u =>
      u.dev.pwr.rails = p.rails ∧ (p.vmgmt = true → fld u.dev.pwr.fault 15 0 = 0x28) ∧ u.dev.tiles = s.dev.tiles)) ∧
    (p.seq = 1 → (railOf s.dev rail).st = 1 → (∃ r, 1 ≤ r ∧ r ≤ 3 ∧ r ≠ rail.val ∧ (railOf s.dev r).st = 2) → ∀ kind : Fin 3,
      Completes (.softStartFault rail kind mv da) s (fun u => railOf u.dev rail = ⟨4, mv.toNat, da.toNat⟩ ∧ u.dev.pwr.seq = 4 ∧
        u.dev.pwr.downing = true ∧ (p.vmgmt = true → fld u.dev.pwr.fault 15 0 = 0x10 + kind.val) ∧
        u.dev.tiles = s.dev.tiles)) ∧
    (p.seq = 4 → p.downing = false → Completes .retryBackoffEnd s (fun u => u.dev.pwr.seq = 1 ∧ u.dev.pwr.attempt = p.attempt + 1 ∧
      u.dev.pwr.phase = 0 ∧ (railOf u.dev 1).st = 1 ∧ u.dev.tiles = s.dev.tiles)) ∧
    (p.seq = 6 → Completes .retryBackoffEnd s (fun u => (∀ f : Fin 24, (funcOf u.dev f).wait = false ∧
      (funcOf u.dev f).st = (funcOf s.dev f).st) ∧ u.dev.tiles = s.dev.tiles)) ∧
    (p.latched = true → Completes .pwrClearLatch s (fun u => u.dev.pwr.latched = false ∧
      u.dev.pwr.seq = (if p.offRun = true then 5 else 0) ∧ u.dev.pwr.attempt = 0 ∧
      (p.vmgmt = true → fld u.dev.pwr.fault 15 0 = 0x41) ∧ u.dev.tiles = s.dev.tiles)) ∧
    (p.seq = 5 → Completes .offTimeEnd s (fun u =>
      (p.startPend = false → u.dev.pwr.seq = 0 ∧ u.dev.kiln = s.dev.kiln) ∧
      (p.startPend = true → startable s.dev = true → u.dev.pwr.seq = 1 ∧ (railOf u.dev 1).st = 1 ∧
        u.dev.kiln.term = s.dev.kiln.term) ∧ u.dev.tiles = s.dev.tiles)) ∧
    (p.downing = true → Completes .thermalTrip s (fun u => u.dev.pwr = { p with thermtrip := true } ∧
      fld u.dev.pf.last 15 0 = 0x7003 ∧ u.dev.tiles = s.dev.tiles)) ∧
    (p.seq = 6 ∨ p.seq = 1 → p.downing = false → (railOf s.dev 2).st = 2 → s.dev.rings = [] → s.dev.wqs = [] →
      (∀ n : Fin 2, (hportOf s.dev n).dlUp = false) →
      let down (u : State) (id : Nat) : Prop :=
        u.dev.pwr.seq = 2 ∧ u.dev.pwr.downing = true ∧ u.dev.hold = true ∧ fld u.dev.pf.last 15 0 = id ∧ u.dev.tiles = s.dev.tiles
      (rail.val ≠ 0 → rail.val ≠ 10 → rail.val ≠ 2 → (railOf s.dev rail).st = 2 → Completes (.railFault rail mv da) s (fun u =>
        down u 0x7002 ∧ railOf u.dev rail = ⟨4, mv.toNat, da.toNat⟩)) ∧
      Completes .thermalTrip s (fun u => down u 0x7003 ∧ u.dev.pwr.thermtrip = true) ∧
      (∀ stack : Fin 6, mget false s.dev.hbm.powered stack = true →
        Completes (.stackThermalTrip stack) s (fun u => down u 0x5006))) ∧
    (∀ f : Fin 24, p.seq = 6 →
      ((funcOf s.dev f).st = 0 → (funcOf s.dev f).latch = false → Completes (.funcPowerUp f) s (fun u =>
        funcOf u.dev f = { funcOf s.dev f with st := 2, tries := 0, wait := false } ∧
        (∀ g, g ≠ f.val → funcOf u.dev g = funcOf s.dev g) ∧ u.dev.tiles = s.dev.tiles)) ∧
      ((funcOf s.dev f).st = 3 → funcBusy s.dev f = false → Completes (.funcPowerDown f) s (fun u =>
        funcOf u.dev f = { funcOf s.dev f with st := 1 } ∧
        (∀ g, g ≠ f.val → funcOf u.dev g = funcOf s.dev g) ∧ u.dev.tiles = s.dev.tiles)) ∧
      ((funcOf s.dev f).pend = none →
        ((funcOf s.dev f).st = 2 → (funcOf s.dev f).wait = false → Completes (.funcTransitionDone f none) s (fun u =>
          funcOf u.dev f = { funcOf s.dev f with st := 3 } ∧ u.dev.tiles = s.dev.tiles) ∧
          Completes (.funcTransitionDone f (some (mv, da))) s (fun u =>
            funcOf u.dev f = (if 3 ≤ (funcOf s.dev f).tries then { funcOf s.dev f with st := 0, latch := true }
              else { funcOf s.dev f with tries := (funcOf s.dev f).tries + 1, wait := true }) ∧ u.dev.tiles = s.dev.tiles)) ∧
        ((funcOf s.dev f).st = 1 → ∀ fail, Completes (.funcTransitionDone f fail) s (fun u =>
          funcOf u.dev f = { funcOf s.dev f with st := 0 } ∧
          (f.val < 2 → ∀ t : TileId, tileOf u.dev t = if t.val / 128 = f.val then Tile.reset else tileOf s.dev t)))))

/-! ### Boot, self-reset, background work -/

/-- Boot and the resets of the part. A management reset clears MGC_BOOT, the SRAM and the mailbox, counts and names its cause
(R701, R704, R705); the first firmware image that passes runs, and a partition that waited for it is rebuilt (R705, R713, R738);
self-test starts in Smoulder and, with nothing found,
leaves every drawer of a live tile waiting for zeroing (R717); with nothing left to wait for the part is READY (R718); a
part-fatal error holds issue and is named, the reset loses what does not lie on VMGMT, and the release boots with the next
incarnation (R755 to R757).
Corners the rules leave open are the model’s choices of log entries 29, 32 and 33. -/
def Obligations.BootCompletes : Prop :=
  ∀ s : State,
    let m := s.dev.mgmt
    let cleared (u : State) (cause : Nat) : Prop := u.dev.mgmt.stage = 0 ∧ u.dev.mgmt.resets = satAdd 16 m.resets 1 ∧
      u.dev.mgmt.cause = cause ∧ u.dev.mgmt.sram = [] ∧ u.dev.mgmt.tlm = [] ∧ u.dev.mgmt.mbxBusy = true ∧
      u.dev.mgmt.flash = m.flash ∧ u.dev.tiles = s.dev.tiles
    (s.dev.pwr.vmgmt = true → s.dev.knots.flashPend = [] →
      Completes .watchdogExpiry s (fun u => cleared u 1) ∧ Completes .mgmtSramUe s (fun u => cleared u 2)) ∧
    (∀ k p id : Nat, s.dev.pwr.vmgmt = true → m.stage < 2 → goodSlot m 1 = some k → (goodSlot m 2).isSome = true →
      s.dev.rebuild = [(p, id)] → (partSt s.dev p).valid = true → (partSt s.dev p).state = 3 → Completes .firmwareStart s (fun u =>
        (partSt u.dev p).state = 2 ∧ u.dev.rebuild = [])) ∧
    (∀ k : Nat, s.dev.pwr.vmgmt = true → m.stage < 2 → goodSlot m 1 = some k → s.dev.rebuild = [] → Completes .firmwareStart s (fun u =>
      u.dev.mgmt.stage = 2 ∧ u.dev.mgmt.mfSlot = k ∧ u.dev.mgmt.mfSvn = imgSvn m.flash (slotBase 1 k) ∧
      u.dev.mgmt.tmOk = (goodSlot m 2).isSome ∧ u.dev.mgmt.flash = m.flash ∧ u.dev.tiles = s.dev.tiles)) ∧
    (s.dev.pwr.vmgmt = true → m.stage < 2 → goodSlot m 1 = none →
      exec .firmwareStart s = .next (withDev s { s.dev with mgmt := { m with stage := 14, sram := [] } })) ∧
    (s.dev.pwr.seq = 6 → s.dev.pf.phase = 0 → fwUp s.dev = true → m.bist = 0 → m.bootStop = false →
      exec .selfTest s = .next (withDev s { s.dev with mgmt := { m with stage := 4, bist := 1 } })) ∧
    (m.bist = 1 → bridgeOutAll s.dev ≤ 8 → Completes (.selfTestDone [] []) s (fun u =>
      u.dev.mgmt = { m with stage := 5, bist := 2, bistFail := 0 } ∧
      (∀ t : TileId, tileOf u.dev t = if tileLive s.dev t = true then dirtyTile (tileOf s.dev t) else tileOf s.dev t))) ∧
    (m.bist = 2 → fwUp s.dev = true → bootDone s.dev = true → Completes .bootReady s (fun u =>
      u.dev.mgmt.stage = 6 ∧ u.dev.mgmt.bist = 3 ∧ (∀ n : Fin 2, (hportOf u.dev n).ready = true) ∧ u.dev.tiles = s.dev.tiles)) ∧
    (∀ (id unit : Nat) (r : List (Nat × Nat)), s.dev.fatal = (id, unit) :: r → s.dev.pf.phase = 0 → railsUp s.dev = true →
      s.dev.pf.times = [] → s.dev.rings = [] → s.dev.wqs = [] → (∀ n : Fin 2, (hportOf s.dev n).dlUp = false) →
      Completes .partFatalSelfReset s (fun u => u.dev.hold = true ∧ u.dev.pf.phase = 1 ∧ u.dev.pf.id = id ∧
        u.dev.fatal = [] ∧ fld u.dev.pf.last 15 0 = id % 65536 ∧ u.dev.tiles = s.dev.tiles)) ∧
    (s.dev.pf.phase = 1 → Completes .domainResetAssert s (fun u => u.dev.pf.phase = 2 ∧ u.dev.mgmt.stage = 3 ∧
      u.dev.stack = [] ∧ u.dev.timeValid = false ∧ u.dev.parts = [] ∧ u.dev.wqs = [] ∧
      (∀ t, (tileOf u.dev t).core = CoreSt.reset ∧ (tileOf u.dev t).spad = [] ∧ (tileOf u.dev t).member = 0) ∧
      u.dev.kiln.h = 18000000 ∧ u.dev.mgmt.flash = m.flash ∧ u.dev.pwr = s.dev.pwr)) ∧
    (s.dev.pf.phase = 2 → bridgeOut s.dev ≤ 8 → s.dev.knots.unrecorded = false → Completes .domainResetRelease s (fun u =>
      u.dev.pf.phase = 0 ∧ u.dev.hold = false ∧ u.dev.lny.inc = s.dev.lny.inc + 1 ∧ u.dev.mgmt.stage = 5 ∧
      u.dev.kiln.shortNow = true ∧ u.dev.tiles = s.dev.tiles))

/-- The management controller's background work. An injected error is armed where it names (R759); the harvest clears the
read-clear counters and nothing else of a tile (R734); each telemetry slot has one sample, kept under its number or counted as
missed (R729, R730); the oldest event goes to stream 2 (R710, R748); compaction keeps the sector count and every live record
(R711); an interface takes the address SETDASA brings (R721), a port its endpoint ID (R722), and a packet goes on over Lenys
or to its manager (R723).
Corners the rules leave open are the model’s choices of log entries 14, 33 and 56. -/
def Obligations.ManagementBackgroundCompletes : Prop :=
  ∀ s : State,
    let m := s.dev.mgmt
    (∀ (t : TileId) (pc : BitVec 8), (tileOf s.dev t).inject = [] → Completes (.errInject 0x1002 t pc) s (fun u =>
      u = putTile s t { tileOf s.dev t with inject := [0x1002] })) ∧
    (∀ (t : TileId) (pc : BitVec 8), hasHbm s.dev = true → pc.toNat < 192 → s.dev.hbm.inject = [] →
      exec (.errInject 0x5002 t pc) s = .next (withDev s { s.dev with hbm := { s.dev.hbm with inject := [pc.toNat] } })) ∧
    (fwUp s.dev = true → Completes .errorHarvest s (fun u => ∀ t : TileId,
      let x := tileOf s.dev t
      let y := tileOf u.dev t
      y.spad = x.spad ∧ y.istore = x.istore ∧ y.lvu = x.lvu ∧ y.core.g = x.core.g ∧ y.core.pc = x.core.pc ∧ y.member = x.member ∧
      (tileMetro s.dev t = false → y.core.stallPartial = 0 ∧ y.core.stallOther = 0 ∧ fld y.dr.ecc 47 0 = 0 ∧ y.teStats = 0))) ∧
    (s.dev.pwr.vmgmt = true → m.tlmSlot = some (tlmSlotNow s.dev) → ∀ late, exec (.telemetrySample late) s = .next s) ∧
    (s.dev.pwr.vmgmt = true → m.tlmSlot ≠ some (tlmSlotNow s.dev) →
      (fwUp s.dev = true → m.tlm.length < 2048 → Completes (.telemetrySample 0) s (fun u =>
        u.dev.mgmt = { m with tlmSeq := (m.tlmSeq + 1) % 2 ^ 32, tlmSlot := some (tlmSlotNow s.dev)
                              tlm := m.tlm ++ [u.dev.mgmt.tlm.getLast?.getD []] } ∧
        fld ((u.dev.mgmt.tlm.getLast?.getD []).getD 1 0) 31 0 = m.tlmSeq % 2 ^ 32 ∧ u.dev.io = s.dev.io)) ∧
      Completes (.telemetrySample 2) s (fun u =>
        u.dev.mgmt = { m with tlmSeq := (m.tlmSeq + 1) % 2 ^ 32, tlmSlot := some (tlmSlotNow s.dev) } ∧
        fld (ioGet u.dev 0x000818) 63 48 = min (fld (ioGet s.dev 0x000818) 63 48 + 1) (2 ^ 16 - 1) ∧ u.dev.tiles = s.dev.tiles)) ∧
    (∀ (e : ErrRec) (r : List ErrRec), s.dev.logPend = e :: r → fwUp s.dev = true → Completes .logRecordWrite s (fun u =>
      u.dev.logPend = r ∧ mget 0 u.dev.mgmt.seqs 2 = (mget 0 m.seqs 2 + 1) % 2 ^ 32 ∧ u.dev.tiles = s.dev.tiles)) ∧
    (∀ i k, erasedCount m ≤ 2 → compactIdx m = some i → m.sectors[i]? = some k → k.sseq ≠ lastSseq m →
      k.recs.filter (isLive m) = [] →
      Completes .logCompaction s (fun u =>
        u.dev.mgmt.sectors = m.sectors.set i ⟨k.erases + 1, 0, []⟩ ∧
        u.dev.mgmt.wearWarn = (m.wearWarn || decide (90000 ≤ k.erases + 1)) ∧ u.dev.tiles = s.dev.tiles)) ∧
    (∀ (iface : Fin 2) (addr : Fin 128), 2 ≤ m.stage → mget 0 m.i3c iface = 0 → Completes (.setdasa iface addr) s (fun u =>
      mget 0 u.dev.mgmt.i3c iface = addr ∧ u = withDev s { s.dev with mgmt := { m with i3c := u.dev.mgmt.i3c } })) ∧
    (∀ (port : Fin 2) (eid : BitVec 8), fwUp s.dev = true → (hportOf s.dev port).dlUp = true →
      Completes (.setEndpointId port eid) s (fun u => mget 0 u.dev.mgmt.eid port = eid.toNat ∧
        u = withDev s { s.dev with mgmt := { m with eid := u.dev.mgmt.eid } })) ∧
    (∀ (iface : Fin 2) (dst : BitVec 16) (bytes : List Byte), fwUp s.dev = true → mget 0 m.i3c iface ≠ 0 →
      (dst.toNat < 256 → dst.toNat ≠ s.dev.lny.slot → exec (.relay iface true dst bytes) s =
        .next (withDev s (sendPeer s.dev dst.toNat (.mctp dst.toNat (0x100 + iface.val) (padWords bytes))))) ∧
      (∀ (src cls : Nat) (data : List Word), s.dev.lny.ctl = [(src, .mctp (0x100 + iface.val) cls data)] →
        exec (.relay iface false dst bytes) s = .next (withDev s (send { s.dev with lny := { s.dev.lny with ctl := [] } }
          (.mctp (0x100 + iface.val) 3 (BitVec.ofNat 64 src :: data))))))

/-! ### The management interface -/

/-- The management commands from a manager that is heard and whose term is not old (R724 to R727): each answers over its
interface with its code, STATUS and data. GET_ID, GET_KNOT, GET_LOG and GET_TLM only read (R32, R708, R730); a REG_WRITE of
CLEAR_LATCH frees a latched part, whose off time still runs out (R154, R169); ROLLBACK_COMMIT raises the counter to the running SVN (R629); IMAGE_WRITE writes a
slot that does not run and is DENIED the running one (R726); SET_TIME loads an invalid counter of the time master and never
steps a valid one (R598, R698); SET_DEFINE defines an unused set (R536, R727); CLAMP_JOIN joins an idle channel (R727). The
host's mailbox is served at the control port (R728).
A corner the rules leave open is the model’s choice of log entry 60. -/
def Obligations.ManagementCommandsComplete : Prop :=
  ∀ (s : State) (b : Bool) (term : BitVec 32), s.dev.pwr.vmgmt = true → fwUp s.dev = true → s.dev.mgmt.bootStop = false →
    (i3cUp s.dev b = true → ¬ term < s.dev.kiln.term →
      let src : MgSrc := .manager b term
      let m := s.dev.mgmt
      let msg (code st : Nat) (data : List Byte) : Msg := .mctp (0x100 + b2n b) 2 (padWords (mgReply code st data))
      let reads (c : Instr) (code st : Nat) (data : List Byte) : Prop := exec c s = .next (withDev s (send s.dev (msg code st data)))
      reads (.getId src) 1 0 ([0x00, 0x08, 0x10, 0x800].flatMap (regBytes s.dev)) ∧
      (∀ off : BitVec 32, off.toNat % 8 = 0 → inBlock off.toNat = true → railsUp s.dev = true →
        exec (.regRead src off) s = .next (withDev s (send (regReadIo s.dev .mgmt off.toNat false).1
          (msg 2 0 (regReadIo s.dev .mgmt off.toNat false).2)))) ∧
      (∀ off : BitVec 32, off.toNat % 8 ≠ 0 → reads (.regRead src off) 2 2 []) ∧
      (∀ v : Word, bit v 0 = true → s.dev.pwr.latched = true → Completes (.regWrite src 0x030018 v) s (fun u =>
        u.dev.pwr.latched = false ∧ u.dev.pwr.seq = (if s.dev.pwr.offRun = true then 5 else 0) ∧ msg 3 0 [] ∈ u.dev.out ∧
        u.dev.tiles = s.dev.tiles)) ∧
      (∀ off len : BitVec 32, len.toNat ≤ 1024 → off.toNat + len.toNat ≤ (knotImage s.dev).length →
        reads (.getKnot src off len) 4 0 (((knotImage s.dev).drop off.toNat).take len.toNat)) ∧
      (∀ (stream : BitVec 8) (first count : BitVec 32), stream.toNat ≤ 3 →
        reads (.getLog src stream first count) 5 0 (fitItems (((streamRecs m stream.toNat).filter (fun r =>
          decide (first.toNat ≤ r.seq) && decide (r.seq < first.toNat + count.toNat))).map recBytes) 0)) ∧
      (∀ first count : BitVec 32, reads (.getTlm src first count) 6 0 (fitItems ((m.tlm.filter (fun w =>
        decide (first.toNat ≤ fld (w.getD 1 0) 31 0) && decide (fld (w.getD 1 0) 31 0 < first.toNat + count.toNat))).map
          (fun w => w.flatMap (fun x => leBytes 8 x.toNat))) 0)) ∧
      exec (.rollbackCommit src 1) s = .next (withDev s (send { s.dev with mgmt := { m with roll1 := max m.roll1 m.mfSvn } }
        (msg 7 0 (leBytes 4 (max m.roll1 m.mfSvn))))) ∧
      (∀ (typ slot : BitVec 8) (off : BitVec 32) (data : List Byte), typ = 1 ∨ typ = 2 → slot = 0 ∨ slot = 1 →
        data.length ≤ 1000 → off.toNat + data.length ≤ slotBytes typ.toNat →
        (slotRuns m typ.toNat slot.toNat = true → reads (.imageWrite src typ slot off data) 8 3 []) ∧
        (slotRuns m typ.toNat slot.toNat = false → Completes (.imageWrite src typ slot off data) s (fun u =>
          let a := slotBase typ.toNat slot.toNat + off.toNat
          mbytes 0xFF u.dev.mgmt.flash a data.length = data ∧
          (∀ k, k < a ∨ a + data.length ≤ k → mget 0xFF u.dev.mgmt.flash k = mget 0xFF m.flash k) ∧
          u.dev.out = s.dev.out ++ [msg 8 0 []] ∧ u.dev.tiles = s.dev.tiles))) ∧
      (∀ slot : BitVec 8, slot = 0 ∨ slot = 1 → Completes (.imageSelect src 1 slot) s (fun u =>
        u.dev.mgmt.sel1 = slot.toNat ∧ u.dev.mgmt.sel2 = m.sel2 ∧ u.dev.out = s.dev.out ++ [msg 9 0 []])) ∧
      (∀ v : Word, railsUp s.dev = true →
        (s.dev.timeValid = false → s.dev.lny.master = s.dev.lny.slot → exec (.setTime src v) s =
          .next (withDev s (send { s.dev with time := v.toNat, timeValid := true, clk := { s.dev.clk with seen := [] } }
            (msg 10 0 [])))) ∧
        (s.dev.timeValid = true → reads (.setTime src v) 10 3 [])) ∧
      (∀ (k : BitVec 8) (valid : Bool) (base : BitVec 32) (m0 m1 m2 : Word), k.toNat < 128 → railsUp s.dev = true →
        hasHbm s.dev = true → setHolders s.dev k.toNat = [] → setBad s.dev k.toNat base.toNat [m0, m1, m2] = false →
        Completes (.setDefine src k valid base m0 m1 m2) s (fun u =>
          setValid u.dev k.toNat = valid ∧ setBase u.dev k.toNat = base.toNat % 2 ^ 17 * 0x200000 ∧
          (∀ pc, pc < 192 → (pc ∈ setList u.dev k.toNat ↔
            bit (if pc < 64 then m0 else if pc < 128 then m1 else m2) (pc % 64) = true ∧ pcOut s.dev pc = false)) ∧
          (∀ j, j < 128 → j ≠ k.toNat → ∀ i, i < 4 → setW u.dev j i = setW s.dev j i) ∧ u.dev.tiles = s.dev.tiles)) ∧
      (∀ (c : BitVec 8) (group : BitVec 8), c.toNat < 16 → group.toNat < 128 → railsUp s.dev = true →
        (clampOf s.dev c.toNat).valid = true → (clampOf s.dev c.toNat).arrived = 0 →
        Completes (.clampJoin src c false group) s (fun u =>
          clampOf u.dev c.toNat = { clampOf s.dev c.toNat with cab := false, group := group.toNat } ∧
          (∀ d, d ≠ c.toNat → clampOf u.dev d = clampOf s.dev d) ∧ u.dev.tiles = s.dev.tiles))) ∧
    (∀ port : Fin 2, (hportOf s.dev port).dlUp = true →
      (port.val ≠ s.dev.ctrlPort → exec (.mbxGo port) s = .next (withDev s (hostRefused s.dev none port 0x03000FF8))) ∧
      (port.val = s.dev.ctrlPort → s.dev.mgmt.mbxBusy = false → leNat (mbytes 0 s.dev.mgmt.mbxReq 0 1) = 1 →
        Completes (.mbxGo port) s (fun u =>
          let r := mgReply 1 0 ([0x00, 0x08, 0x10, 0x800].flatMap (regBytes s.dev))
          mbytes 0 u.dev.mgmt.mbxRsp 0 r.length = r ∧ u.dev.mgmt.mbxDone = true ∧ u.dev.mgmt.mbxStatus = 0 ∧
          u = withDev s { s.dev with mgmt := { s.dev.mgmt with mbxRsp := u.dev.mgmt.mbxRsp, mbxDone := true, mbxStatus := 0 } })))

/-- The SPDM responder on a transport that is heard (R631 to R634). VERSION, CAPABILITIES and ALGORITHMS follow each other;
after them digests, certificates, measurements and signed answers are given and change nothing but the free values drawn;
KEY_EXCHANGE begins one of four sessions, FINISH with the right code opens it, KEY_UPDATE counts in it, END_SESSION ends it.
Codes are those of log entry 61, keys and signatures those of log entry 8. -/
def Obligations.SpdmCompletes : Prop :=
  ∀ (s : State) (tr : Fin 7), spdmHears s.dev tr = true →
    let q := spdmOf s.dev tr
    let answers (c : Instr) (code : Nat) (data : List Byte) (q' : SpdmSt) : Prop := Completes c s (fun u =>
      spdmOf u.dev tr = q' ∧ (∀ k, k ≠ tr.val → spdmOf u.dev k = spdmOf s.dev k) ∧
      u.dev.out = s.dev.out ++ [.spdm tr code data] ∧ u.dev.tiles = s.dev.tiles)
    answers (.getVersion tr) 0x04 [0, 1, 0, 0x13] ⟨1, [], q.nextId⟩ ∧
    (q.stage = 1 → ∀ flags, answers (.getCapabilities tr flags) 0x61 (leBytes 4 capFlags) { q with stage := 2 }) ∧
    (q.stage = 2 → answers (.negotiateAlgorithms tr true true true true) 0x63 [0x80, 0x02, 0x04, 0x10, 0x02] { q with stage := 3 }) ∧
    (q.stage = 3 →
      (s.dev.mgmt.attest = true →
        let chain := certChain s.dev
        answers (.getDigests tr) 0x01 (1 :: sha384 chain) q ∧
        (∀ off len : BitVec 16, off.toNat ≤ chain.length → answers (.getCertificate tr 0 off len) 0x02
          (let part := (chain.drop off.toNat).take len.toNat
           leBytes 2 part.length ++ leBytes 2 (chain.length - off.toNat - part.length) ++ part) q) ∧
        (∀ nonce : BitVec 256, let body := sha384 chain ++ leBytes 32 (Config.engineNum 6 s.dev.freeCtr)
          answers (.challenge tr 0 nonce) 0x03 (body ++ signed (leBytes 32 nonce.toNat ++ body)) q) ∧
        (∀ share : BitVec 768, q.sess.length < 4 →
          let body := leBytes 4 q.nextId ++ leBytes 96 (Config.engineNum 2 s.dev.freeCtr)
          answers (.keyExchange tr 0 share) 0x64 (body ++ signed (leBytes 96 share.toNat ++ body))
            { q with sess := q.sess ++ [⟨q.nextId, false, 0⟩], nextId := q.nextId + 1 })) ∧
      (∀ nonce : BitVec 256, s.dev.mgmt.meas ≠ [] →
        answers (.getMeasurements tr 0 false nonce) 0x60 (leBytes 1 s.dev.mgmt.meas.length) q ∧
        answers (.getMeasurements tr 0xFF false nonce) 0x60 (s.dev.mgmt.meas.flatMap measBlock) q) ∧
      (∀ (sess : BitVec 32) (mac : BitVec 384), q.sess.any (fun x => x.id == sess.toNat && !x.open_) = true →
        mac = BitVec.ofNat 384 (Config.engineNum 5 sess.toNat) →
        answers (.finish tr sess mac) 0x65 [] { q with
          sess := q.sess.map (fun x => if x.id = sess.toNat then { x with open_ := true } else x) }) ∧
      (∀ sess : BitVec 32, q.sess.any (fun x => x.id == sess.toNat && x.open_) = true →
        answers (.spdmHeartbeat tr sess) 0x68 [] q ∧
        answers (.keyUpdate tr sess 1) 0x69 [1] { q with
          sess := q.sess.map (fun x => if x.id = sess.toNat then { x with updates := x.updates + 1 } else x) } ∧
        answers (.endSession tr sess) 0x6C [] { q with sess := q.sess.filter (fun x => x.id != sess.toNat) }))

/-! ### Bookmatch -/

/-- Bookmatch (R656, R657, R663 to R668). START sends HELLO or ends with the reason of the local check; a HELLO that mirrors
this part's own is answered with READY, another is held; READY arms every member tile; a compare of cores or of work orders that
agrees completes its checkpoint, one that differs, is marked as errored or outlasts DET_BM_TMO is a divergence; STOP, the
twin's END and a HELLO that does not come within 100 ms end it.
A corner the rules leave open is the model’s choice of log entry 50. -/
def Obligations.BookmatchCompletes : Prop :=
  ∀ s : State,
    let b := s.dev.bm
    let twin := s.dev.lny.slot ^^^ 1
    let members := membersOf (partSt s.dev b.part)
    (∀ part twinPart : Fin 128, b.st ≠ 1 → b.st ≠ 2 → b.hello = none →
      let b1 : BmSt := { b with part := part, twinPart := twinPart, reason := 0, readySent := false }
      (bmLocal s.dev part = 0 → Completes (.bmStart part twinPart) s (fun u =>
        u.dev.bm = { b1 with st := 1, sentAt := s.dev.time } ∧ u.dev.tiles = s.dev.tiles)) ∧
      (bmLocal s.dev part ≠ 0 → exec (.bmStart part twinPart) s =
        .next (withDev s { s.dev with bm := { b1 with st := 5, reason := bmLocal s.dev part } }))) ∧
    (∀ d : List Word, s.dev.lny.ctl = [(twin, .bookmatch 0 d)] →
      (b.st ≠ 1 → exec .bmHello s = .next (withDev s { s.dev with
        bm := { b with hello := some d }, lny := { s.dev.lny with ctl := [] } })) ∧
      (b.st = 1 → b.readySent = false → d.getD 0 0 = BitVec.ofNat 64 b.twinPart → d.getD 1 0 = BitVec.ofNat 64 b.part →
        bmLocal s.dev b.part = 0 → bmCheck (helloOf s.dev) d = 0 → Completes .bmHello s (fun u =>
          u.dev.bm = { b with readySent := true, hello := none } ∧ u.dev.tiles = s.dev.tiles))) ∧
    (∀ d : List Word, s.dev.lny.ctl = [(twin, .bookmatch 1 d)] → b.st = 1 →
      (d = [0] → b.readySent = true → Completes .bmReady s (fun u => u.dev.bm.st = 2 ∧ u.dev.bm.woDone = 0 ∧
        u.dev.bm.woPend = [] ∧ (∀ t ∈ members, (tileOf u.dev t).dig.armed = true ∧
          (tileOf u.dev t).core = (tileOf s.dev t).core ∧ (tileOf u.dev t).spad = (tileOf s.dev t).spad))) ∧
      ((d.getD 0 0).toNat ≠ 0 → exec .bmReady s = .next (withDev s { s.dev with
        bm := { b with st := 5, reason := (d.getD 0 0).toNat }, lny := { s.dev.lny with ctl := [] } }))) ∧
    (b.st = 1 ∨ b.st = 2 → b.woPend = [] →
      Completes .bmStop s (fun u => u.dev.bm = { b with st := 0, early := [] } ∧
        (∀ t ∈ members, (tileOf u.dev t).dig.armed = false ∧ (tileOf u.dev t).core = (tileOf s.dev t).core)) ∧
      (∀ d, s.dev.lny.ctl = [(twin, .bookmatch 2 d)] → Completes .bmLost s (fun u =>
        u.dev.bm = { b with st := 4, early := [] } ∧ (∀ t ∈ members, (tileOf u.dev t).dig.armed = false)))) ∧
    (b.st = 1 → b.readySent = false →
      (b.sentAt + 100000000 ≤ s.dev.time → exec .bmHelloTimeout s =
        .next (withDev s { s.dev with bm := { b with st := 5, reason := 6 } })) ∧
      (s.dev.time < b.sentAt + 100000000 → exec .bmHelloTimeout s = .next s)) ∧
    (b.st = 2 →
      (∀ (rank idx w : Word) (c : Nat × Word × Nat), s.dev.lny.ctl = [] → b.early = [(3, [rank, idx, w])] →
        let t := tileOfRank (partSt s.dev b.part) rank.toNat
        (tileOf s.dev t).dig.pending.find? (fun c => c.1 == idx.toNat) = some c →
        (c.2.1 = w → Completes .checkpointCompare s (fun u => u.dev.bm = { b with early := [] } ∧
          (tileOf u.dev t).dig.pending = (tileOf s.dev t).dig.pending.filter (fun c => c.1 != idx.toNat))) ∧
        (c.2.1 ≠ w → Completes .checkpointCompare s (fun u => u.dev.bm.st = 3))) ∧
      (∀ (c : Nat × Nat × Word × List Word × Nat) (mark dig : Word) (l : List Word), c.1 < 2 ^ 64 → s.dev.lny.ctl = [] →
        b.woPend = [c] → b.early = [(4, BitVec.ofNat 64 c.1 :: mark :: dig :: l)] →
        (mark = 0 → c.2.2.1 = dig → Completes .checkpointCompare s (fun u => u.dev.bm =
          { b with early := [], woPend := [], woDone := BitVec.ofNat 32 (min (b.woDone.toNat + 1) 0xFFFFFFFF) })) ∧
        (mark ≠ 0 ∨ c.2.2.1 ≠ dig → Completes .checkpointCompare s (fun u => u.dev.bm.st = 3))) ∧
      (∀ (r : TileId) (c : Nat × Word × Nat) (l : List (Nat × Word × Nat)), r.val < pTiles (partSt s.dev b.part) →
        (tileOf s.dev (tileOfRank (partSt s.dev b.part) r)).dig.pending = c :: l →
        (c.2.2 + bmTmo s.dev ≤ s.dev.time → Completes (.bmCheckpointTimeout (some r)) s (fun u => u.dev.bm.st = 3)) ∧
        (s.dev.time < c.2.2 + bmTmo s.dev → exec (.bmCheckpointTimeout (some r)) s = .next s)) ∧
      (∀ (c : Nat × Nat × Word × List Word × Nat) (l : List (Nat × Nat × Word × List Word × Nat)), b.woPend = c :: l →
        (c.2.2.2.2 + bmTmo s.dev ≤ s.dev.time → Completes (.bmCheckpointTimeout none) s (fun u => u.dev.bm.st = 3)) ∧
        (s.dev.time < c.2.2.2.2 + bmTmo s.dev → exec (.bmCheckpointTimeout none) s = .next s)))

/-! ### Flue -/

/-- The cabinet managers. A contract value in its range waits for the next boundary at both managers, another is refused
(R690); a START is charged 172 J and goes to the next slot (R692, R697); a higher term ends a manager's activity (R685); a
heartbeat carries balance, shed identifier and envelope (R684); 30 ms after the last heartbeat the standby takes the next
term (R683, R686, R689); a shelf's loss caps ENVELOPE (R680); the facility's lower envelope applies at once (R696); an epoch
adds S to the balance, up to its capacity, and takes off what the parts fell short (R692).
Corners the rules leave open are the model’s choices of log entries 22 and 37 to 40. -/
def Obligations.FlueCompletes : Prop :=
  ∀ (s : State) (m : Fin 2),
    let g := mgrOf s m
    let other (u : State) : Prop := mgrOf u (1 - m.val) = mgrOf s (1 - m.val)
    (∀ v : BitVec 32,
      (5 ≤ v.toNat → v.toNat ≤ 200 → exec (.contractChange 0 v) s = .next { s with flue :=
        ⟨{ s.flue.a with newS := some v.toNat }, { s.flue.b with newS := some v.toNat }⟩ }) ∧
      (50000 ≤ v.toNat → v.toNat ≤ 310000 → exec (.contractChange 1 v) s = .next { s with flue :=
        ⟨{ s.flue.a with newEnv := some v.toNat }, { s.flue.b with newEnv := some v.toNat }⟩ }) ∧
      (v.toNat ≤ 40000 → exec (.contractChange 2 v) s = .next { s with flue :=
        ⟨{ s.flue.a with newFixed := some v.toNat }, { s.flue.b with newFixed := some v.toNat }⟩ }) ∧
      (v.toNat < 5 ∨ 200 < v.toNat → exec (.contractChange 0 v) s = .next s)) ∧
    (∀ k, nextSlot s.dev g = some k → g.active = true → 172000 ≤ g.budget → Completes (.flueStart m) s (fun u =>
      mgrOf u m = { g with budget := g.budget - 172000, starting := g.starting ++ [k] } ∧ other u ∧
      u.dev = { s.dev with out := u.dev.out } ∧ u.dev.out.length = s.dev.out.length + 1)) ∧
    (∀ term : BitVec 32, g.term < term → Completes (.higherTermSeen m term) s (fun u =>
      mgrOf u m = { g with active := false, seen := if g.seen < term then term else g.seen } ∧ other u ∧ u.dev = s.dev)) ∧
    (∀ now : BitVec 64, g.active = true → ¬ g.term < (mgrOf s (1 - m.val)).term → Completes (.flueHeartbeat m now true) s (fun u =>
      let r := mgrOf u (1 - m.val)
      r.budget = g.budget ∧ r.shedId = g.shedId ∧ r.envelope = g.envelope ∧ r.lastHb = now.toNat ∧
      r.parts = (mgrOf s (1 - m.val)).parts ∧ mgrOf u m = g ∧ u.dev = { s.dev with out := u.dev.out })) ∧
    (∀ now : BitVec 64, g.active = false → g.lastHb + 30000000 ≤ now.toNat → Completes (.managerFailover m now) s (fun u =>
      (mgrOf u m).active = true ∧ (mgrOf u m).term = (if g.seen < g.term then g.term else g.seen) + 1 ∧
      (mgrOf u m).shedId = g.shedId + 65536 ∧ (mgrOf u m).budget = g.budget ∧ (∀ e ∈ (mgrOf u m).parts, e.2.cords = 0) ∧
      (mgrOf u m).epoch = g.epoch + 1 ∧ other u ∧ u.dev = { s.dev with out := u.dev.out })) ∧
    Completes .shelfFailure s (fun u =>
      (g.shelves = 0 → (mgrOf u m).shelves = 1 ∧ (mgrOf u m).envelope = min g.envelope (min g.confEnv 310000)) ∧
      (g.shelves = 1 → (mgrOf u m).shelves = 2 ∧ (mgrOf u m).envelope = min g.envelope 199000) ∧
      (mgrOf u m).term = g.term ∧ u.dev = { s.dev with out := u.dev.out }) ∧
    (∀ watts ms : BitVec 32, activeMgr s = some m.val →
      (watts.toNat < g.envelope → Completes (.envelopeRequest watts ms) s (fun u =>
        (mgrOf u m).envelope = watts.toNat ∧ (mgrOf u m).parts = g.parts ∧ other u ∧ u.dev = { s.dev with out := u.dev.out })) ∧
      (g.envelope ≤ watts.toNat → watts.toNat ≤ 310000 → 50000 ≤ watts.toNat → Completes (.envelopeRequest watts ms) s (fun u =>
        mgrOf u m = { g with newEnv := some watts.toNat } ∧ other u ∧ u.dev = s.dev))) ∧
    (∀ (reports : List FlueReport) (draw : BitVec 32), g.active = true → g.starting = [] → g.newS = none → g.newEnv = none →
      g.newFixed = none → (∀ r ∈ reports, ¬ g.term < r.term) → draw.toNat ≤ g.envelope →
      Completes (.flueEpoch m reports draw []) s (fun u =>
        (mgrOf u m).budget = min (g.budget + 1000 * (g.slewS : Int)) 200000 -
          ((reports.map (fun r => 125 * r.short.toNat)).foldl (· + ·) 0 : Nat) ∧
        (∀ e ∈ (mgrOf u m).parts, e.2.cords = 0) ∧ other u ∧ u.dev = { s.dev with out := u.dev.out }))

/-- What the grants and shares of an epoch keep (R691 to R693). However many cords are wanted, the balance is charged 25 J
for each cord granted and none that would take it below zero or the draw above ENVELOPE; and the SLEW of all parts together
is at most S, where what missing parts keep and 1 mW/ms for each other part lie within S.
A corner the rules leave open is the model’s choice of log entry 37. -/
def Obligations.GrantsAndSharesStayWithinContract : Prop :=
  (∀ (g : FlueMgr) (want : List (TileId × Fin 16)), g.parts.Pairwise (fun a b => a.1 < b.1) →
    let u := want.foldl (fun g w => grantCords g w.1 w.2) g
    let cords (g : FlueMgr) : Nat := g.parts.foldl (fun n e => n + e.2.cords) 0
    u.budget + 25000 * (cords u : Int) = g.budget + 25000 * (cords g : Int) ∧
    (0 ≤ g.budget → 0 ≤ u.budget) ∧ (drawSum g ≤ 1000 * g.envelope → drawSum u ≤ 1000 * u.envelope) ∧
    u.envelope = g.envelope ∧ ((∀ e ∈ g.parts, e.2.cords ≤ 15) → ∀ e ∈ u.parts, e.2.cords ≤ 15)) ∧
  (∀ (g : FlueMgr) (near : Nat → Bool),
    g.parts.foldl (fun n e => n + (if e.2.missing = true then e.2.slew else 1)) 0 ≤ 1000 * g.slewS →
    (shareSlew g near).parts.foldl (fun n e => n + e.2.slew) 0 ≤ 1000 * g.slewS)

/-- What every manager keeps: its contract within the ranges of R690, its balance within its capacity (R692), at most four
shelves lost (R680), at most 15 cords (R93) and 2,500 mW/ms (R693) for each part. Every step keeps it, whatever command
runs.
Corners the rules leave open are the model’s choices of log entries 37 to 40. -/
def Obligations.EveryStepKeepsContract : Prop :=
  let ok (g : FlueMgr) : Prop :=
    5 ≤ g.slewS ∧ g.slewS ≤ 200 ∧ g.envelope ≤ 310000 ∧ g.confEnv ≤ 310000 ∧ g.fixed ≤ 40000 ∧
    (∀ v, g.newS = some v → 5 ≤ v ∧ v ≤ 200) ∧ (∀ v, g.newEnv = some v → 50000 ≤ v ∧ v ≤ 310000) ∧
    (∀ v, g.newFixed = some v → v ≤ 40000) ∧ g.budget ≤ 200000 ∧ g.shelves ≤ 4 ∧
    (∀ e ∈ g.parts, e.2.cords ≤ 15 ∧ e.2.prev ≤ 15 ∧ e.2.slew ≤ 2500)
  ∀ s t : State, ok s.flue.a → ok s.flue.b → step s = .next t → ok t.flue.a ∧ ok t.flue.b
end

