-- ==== Sys2Proof/Laws/Bits.lean ====
section
/-! SUPPORT. Reading bits and fields back after setting them. -/

namespace Sys2Proof.Machine
open Sys2Proof

/-- A bit of a field as set, and every bit outside it as before. -/
theorem bit_setFld (w : Word) (hi lo v j : Nat) (h1 : lo ≤ hi) (h2 : hi < 64) :
    bit (setFld w hi lo v) j = if lo ≤ j ∧ j ≤ hi then v.testBit (j - lo) else bit w j := by
  unfold bit setFld
  simp only [BitVec.getLsbD_or, BitVec.getLsbD_and, BitVec.getLsbD_not, BitVec.getLsbD_shiftLeft, BitVec.getLsbD_ofNat,
    Nat.testBit_mod_two_pow, Nat.testBit_two_pow_sub_one]
  by_cases hj : lo ≤ j ∧ j ≤ hi
  · obtain ⟨a, b⟩ := hj
    have e1 : j < 64 := by omega
    have e2 : ¬ j < lo := by omega
    have e3 : j - lo < 64 := by omega
    have e4 : j - lo < hi + 1 - lo := by omega
    simp [a, b, e1, e2, e3, e4]
  · rw [if_neg hj]
    by_cases e1 : j < 64
    · by_cases e2 : j < lo
      · simp [e1, e2]
      · have e3 : j - lo < 64 := by omega
        have e4 : ¬ j - lo < hi + 1 - lo := by omega
        simp [e1, e2, e3, e4]
    · have : w.getLsbD j = false := BitVec.getLsbD_of_ge _ _ (by omega)
      simp [e1, this]

/-- A bit reads what it was set to; every other bit is as before. -/
theorem bit_setBit (w : Word) (i j : Nat) (b : Bool) (h : i < 64) : bit (setBit w i b) j = if j = i then b else bit w j := by
  unfold setBit
  rw [bit_setFld _ _ _ _ _ (le_refl i) h]
  by_cases hj : j = i
  · subst hj
    cases b <;> simp
  · rw [if_neg hj, if_neg (by omega)]

theorem fld_testBit {n : Nat} (w : BitVec n) (hi lo j : Nat) : (fld w hi lo).testBit j = (decide (j < hi + 1 - lo) && bit w (lo + j)) := by
  unfold fld bit
  rw [Nat.testBit_mod_two_pow, Nat.testBit_shiftRight, BitVec.getLsbD]

theorem fld_or (a b : Word) (hi lo : Nat) : fld (a ||| b) hi lo = fld a hi lo ||| fld b hi lo := by
  apply Nat.eq_of_testBit_eq
  intro j
  rw [fld_testBit, Nat.testBit_or, fld_testBit, fld_testBit]
  unfold bit
  rw [BitVec.getLsbD_or]
  cases decide (j < hi + 1 - lo) <;> simp

theorem bit_or (a b : Word) (i : Nat) : bit (a ||| b) i = (bit a i || bit b i) := by
  unfold bit; rw [BitVec.getLsbD_or]

theorem fld_zero (hi lo : Nat) : fld (0 : Word) hi lo = 0 := by simp [fld]
theorem bit_zero (i : Nat) : bit (0 : Word) i = false := by simp [bit]

/-- A field reads what it was set to, cut to its width. -/
theorem fld_setFld_same (w : Word) (hi lo v : Nat) (h1 : lo ≤ hi) (h2 : hi < 64) :
    fld (setFld w hi lo v) hi lo = v % 2 ^ (hi + 1 - lo) := by
  apply Nat.eq_of_testBit_eq
  intro j
  rw [fld_testBit, bit_setFld _ _ _ _ _ h1 h2, Nat.testBit_mod_two_pow]
  by_cases hj : j < hi + 1 - lo
  · rw [if_pos (by omega)]
    simp [hj]
  · simp [hj]

/-- A field that lies beside the one set is as before. -/
theorem fld_setFld_other (w : Word) (hi lo v hi' lo' : Nat) (h1 : lo ≤ hi) (h2 : hi < 64) (h : hi < lo' ∨ hi' < lo) :
    fld (setFld w hi lo v) hi' lo' = fld w hi' lo' := by
  apply Nat.eq_of_testBit_eq
  intro j
  rw [fld_testBit, fld_testBit, bit_setFld _ _ _ _ _ h1 h2]
  by_cases hj : j < hi' + 1 - lo'
  · rw [if_neg (by omega)]
  · simp [hj]

/-- A saturating count goes up by one until it is full (R773). -/
theorem fld_incFld (w : Word) (hi lo k : Nat) (h1 : lo ≤ hi) (h2 : hi < 64) :
    fld (incFld w hi lo k) hi lo = min (fld w hi lo + k) (2 ^ (hi + 1 - lo) - 1) := by
  unfold incFld
  rw [fld_setFld_same _ _ _ _ h1 h2]
  apply Nat.mod_eq_of_lt
  have : 0 < 2 ^ (hi + 1 - lo) := Nat.two_pow_pos _
  omega

theorem fld_lt {n : Nat} (w : BitVec n) (hi lo : Nat) : fld w hi lo < 2 ^ (hi + 1 - lo) := Nat.mod_lt _ (Nat.two_pow_pos _)

/-- A one-bit field is a bit. -/
theorem fld_bit {n : Nat} (w : BitVec n) (i : Nat) : fld w i i = b2n (bit w i) := by
  apply Nat.eq_of_testBit_eq
  intro j
  rw [fld_testBit]
  cases j with
  | zero => cases h : bit w i <;> simp [b2n]
  | succ j => cases bit w i <;> simp [b2n, Nat.testBit_succ]

theorem leBytes_length (n v : Nat) : (leBytes n v).length = n := by
  induction n generalizing v with
  | zero => rfl
  | succ n ih => simp [leBytes, ih]

theorem leNat_lt (l : List Byte) : leNat l < 256 ^ l.length := by
  induction l with
  | nil => simp [leNat]
  | cons b r ih =>
    have := b.isLt
    simp only [leNat, List.length_cons, Nat.pow_succ]
    omega

/-- The bytes of a number spell it, cut to as many bytes. -/
theorem leNat_leBytes (n v : Nat) : leNat (leBytes n v) = v % 256 ^ n := by
  induction n generalizing v with
  | zero => simp [leBytes, leNat, Nat.mod_one]
  | succ n ih =>
    have h : v % (256 * 256 ^ n) = v % 256 + 256 * (v / 256 % 256 ^ n) := Nat.mod_mul
    simp only [leBytes, leNat, ih, BitVec.toNat_ofNat]
    rw [Nat.shiftRight_eq_div_pow]
    have e : (256 : Nat) ^ (n + 1) = 256 * 256 ^ n := by rw [pow_succ, Nat.mul_comm]
    rw [e, h]

end Sys2Proof.Machine
end

