-- ==== Sys2Proof/Laws/SMap.lean ====
section
/-! SUPPORT. Reading after writing in sparse data, and its canonical form under every operation. -/

namespace Sys2Proof.Machine

variable {α : Type}

theorem mget_minsert_same (d : α) (m : SMap α) (k : Nat) (v : α) : mget d (minsert k v m) k = v := by
  induction m with
  | nil => simp [minsert, mget]
  | cons e r ih =>
    simp only [minsert]
    split
    · simp [mget]
    · split
      · simp [mget]
      · rename_i h1 h2
        simp [mget, ih, Ne.symm h2]

theorem mget_minsert_other (d : α) (m : SMap α) {k j : Nat} (v : α) (h : j ≠ k) :
    mget d (minsert k v m) j = mget d m j := by
  induction m with
  | nil => simp [minsert, mget, Ne.symm h]
  | cons e r ih =>
    simp only [minsert]
    split
    · simp [mget, Ne.symm h]
    · split
      · rename_i h1 h2
        subst h2
        simp [mget, Ne.symm h]
      · simp [mget, ih]

theorem mget_merase_same (d : α) (m : SMap α) (k : Nat) : mget d (merase k m) k = d := by
  induction m with
  | nil => rfl
  | cons e r ih =>
    simp only [merase]
    split
    · exact ih
    · rename_i h
      simp [mget, h, ih]

theorem mget_merase_other (d : α) (m : SMap α) {k j : Nat} (h : j ≠ k) : mget d (merase k m) j = mget d m j := by
  induction m with
  | nil => rfl
  | cons e r ih =>
    simp only [merase]
    split
    · rename_i h1
      simp [mget, h1, Ne.symm h, ih]
    · simp [mget, ih]

variable [DecidableEq α]

/-- A key reads what was last written at it. -/
@[simp] theorem mget_mset_same (d : α) (m : SMap α) (k : Nat) (v : α) : mget d (mset d m k v) k = v := by
  unfold mset
  split
  · rename_i h; rw [h]; exact mget_merase_same d m k
  · exact mget_minsert_same d m k v

/-- A write at one key leaves every other key alone. -/
theorem mget_mset_other (d : α) (m : SMap α) {k j : Nat} (v : α) (h : j ≠ k) : mget d (mset d m k v) j = mget d m j := by
  unfold mset
  split
  · exact mget_merase_other d m h
  · exact mget_minsert_other d m v h

/-- Reading any key after a write at one. -/
theorem mget_mset (d : α) (m : SMap α) (k j : Nat) (v : α) : mget d (mset d m k v) j = if j = k then v else mget d m j := by
  split
  · rename_i h; rw [h]; exact mget_mset_same d m k v
  · rename_i h; exact mget_mset_other d m v h

@[simp] theorem mget_mmod_same (d : α) (m : SMap α) (k : Nat) (f : α → α) : mget d (mmod d m k f) k = f (mget d m k) :=
  mget_mset_same d m k _

theorem mget_mmod_other (d : α) (m : SMap α) {k j : Nat} (f : α → α) (h : j ≠ k) : mget d (mmod d m k f) j = mget d m j :=
  mget_mset_other d m _ h

/-! ### The canonical form as an order and a property of every entry -/

/-- The canonical form, entry by entry. -/
theorem mwf_iff (d : α) (m : SMap α) : mwf d m = true ↔ m.Pairwise (fun a b => a.1 < b.1) ∧ ∀ e ∈ m, e.2 ≠ d := by
  induction m with
  | nil => simp [mwf]
  | cons e r ih =>
    cases r with
    | nil => simp [mwf]
    | cons e' r' =>
      have key : (e.1 < e'.1 ∧ (e' :: r').Pairwise (fun a b => a.1 < b.1)) ↔
          (e :: e' :: r').Pairwise (fun a b => a.1 < b.1) := by
        constructor
        · rintro ⟨h1, h2⟩
          refine List.Pairwise.cons ?_ h2
          intro x hx
          rcases List.mem_cons.mp hx with rfl | hx
          · exact h1
          · exact lt_trans h1 (List.rel_of_pairwise_cons h2 hx)
        · intro h
          exact ⟨List.rel_of_pairwise_cons h List.mem_cons_self, h.tail⟩
      simp only [mwf, Bool.and_eq_true, decide_eq_true_eq, ih]
      constructor
      · rintro ⟨⟨h1, h2⟩, h3, h4⟩
        refine ⟨key.mp ⟨h2, h3⟩, ?_⟩
        intro x hx
        rcases List.mem_cons.mp hx with rfl | hx
        · exact h1
        · exact h4 x hx
      · rintro ⟨h1, h2⟩
        exact ⟨⟨h2 e List.mem_cons_self, (key.mpr h1).1⟩, (key.mpr h1).2, fun x hx => h2 x (List.mem_cons_of_mem _ hx)⟩

omit [DecidableEq α] in
theorem mem_merase {m : SMap α} {k : Nat} {e : Nat × α} (h : e ∈ merase k m) : e ∈ m ∧ e.1 ≠ k := by
  induction m with
  | nil => cases h
  | cons e' r ih =>
    simp only [merase] at h
    split at h
    · exact ⟨List.mem_cons_of_mem _ (ih h).1, (ih h).2⟩
    · rename_i hk
      rcases List.mem_cons.mp h with rfl | h
      · exact ⟨List.mem_cons_self, hk⟩
      · exact ⟨List.mem_cons_of_mem _ (ih h).1, (ih h).2⟩

omit [DecidableEq α] in
theorem mem_minsert {m : SMap α} {k : Nat} {v : α} {e : Nat × α} (h : e ∈ minsert k v m) : e = (k, v) ∨ e ∈ m := by
  induction m with
  | nil => exact Or.inl (List.mem_singleton.mp h)
  | cons e' r ih =>
    simp only [minsert] at h
    split at h
    · rcases List.mem_cons.mp h with rfl | h
      · exact Or.inl rfl
      · exact Or.inr h
    · split at h
      · rcases List.mem_cons.mp h with rfl | h
        · exact Or.inl rfl
        · exact Or.inr (List.mem_cons_of_mem _ h)
      · rcases List.mem_cons.mp h with rfl | h
        · exact Or.inr List.mem_cons_self
        · rcases ih h with h | h
          · exact Or.inl h
          · exact Or.inr (List.mem_cons_of_mem _ h)

/-- What stands in a map after a write: what was written, or what stood there. -/
theorem mem_mset {d : α} {m : SMap α} {k : Nat} {v : α} {e : Nat × α} (h : e ∈ mset d m k v) : e = (k, v) ∨ e ∈ m := by
  unfold mset at h
  split at h
  · exact Or.inr (mem_merase h).1
  · exact mem_minsert h

theorem merase_wf {d : α} {m : SMap α} (k : Nat) (h : mwf d m = true) : mwf d (merase k m) = true := by
  rw [mwf_iff] at h ⊢
  have sub : (merase k m).Sublist m := by
    induction m with
    | nil => exact List.Sublist.refl _
    | cons e r ih =>
      have hr := ih ⟨h.1.tail, fun x hx => h.2 x (List.mem_cons_of_mem _ hx)⟩
      simp only [merase]
      split
      · exact hr.cons e
      · exact hr.cons_cons e
  exact ⟨h.1.sublist sub, fun e he => h.2 e (sub.subset he)⟩

theorem minsert_wf {d : α} {m : SMap α} (k : Nat) {v : α} (hv : v ≠ d) (h : mwf d m = true) :
    mwf d (minsert k v m) = true := by
  rw [mwf_iff] at h ⊢
  refine ⟨?_, ?_⟩
  · have hp := h.1
    clear h
    induction m with
    | nil => simp [minsert]
    | cons e r ih =>
      have hr := ih hp.tail
      simp only [minsert]
      split
      · rename_i h1
        refine List.Pairwise.cons ?_ hp
        intro x hx
        rcases List.mem_cons.mp hx with rfl | hx
        · exact h1
        · exact lt_trans h1 (List.rel_of_pairwise_cons hp hx)
      · split
        · rename_i h1 h2
          refine List.Pairwise.cons ?_ hp.tail
          intro x hx
          have := List.rel_of_pairwise_cons hp hx
          simp only [h2]
          exact this
        · rename_i h1 h2
          refine List.Pairwise.cons ?_ hr
          intro x hx
          rcases mem_minsert hx with rfl | hx
          · show e.1 < k
            omega
          · exact List.rel_of_pairwise_cons hp hx
  · intro e he
    rcases mem_minsert he with rfl | he
    · exact hv
    · exact h.2 e he

/-- Writing keeps the canonical form. -/
theorem mset_wf {d : α} {m : SMap α} (k : Nat) (v : α) (h : mwf d m = true) : mwf d (mset d m k v) = true := by
  unfold mset
  split
  · exact merase_wf k h
  · rename_i hv
    exact minsert_wf k hv h

theorem mmod_wf {d : α} {m : SMap α} (k : Nat) (f : α → α) (h : mwf d m = true) : mwf d (mmod d m k f) = true :=
  mset_wf k _ h

/-- Leaving entries out keeps the canonical form. -/
theorem filter_wf {d : α} {m : SMap α} (p : Nat × α → Bool) (h : mwf d m = true) : mwf d (m.filter p) = true := by
  rw [mwf_iff] at h ⊢
  exact ⟨h.1.sublist List.filter_sublist, fun e he => h.2 e (List.mem_filter.mp he).1⟩

theorem mclear_wf {d : α} {m : SMap α} (a n : Nat) (h : mwf d m = true) : mwf d (mclear m a n) = true := filter_wf _ h

/-- A run of writes keeps the canonical form. -/
theorem mwrite_wf {d : BitVec 8} (bs : List (BitVec 8)) {m : SMap (BitVec 8)} (a : Nat) (h : mwf d m = true) :
    mwf d (mwrite d m a bs) = true := by
  induction bs generalizing m a with
  | nil => exact h
  | cons b r ih => exact ih (a + 1) (mset_wf a b h)

/-- Equal contents in canonical form are equal data. -/
theorem mget_of_mem {d : α} {m : SMap α} (h : mwf d m = true) {e : Nat × α} (he : e ∈ m) : mget d m e.1 = e.2 := by
  rw [mwf_iff] at h
  induction m with
  | nil => cases he
  | cons e' r ih =>
    rcases List.mem_cons.mp he with rfl | he
    · simp [mget]
    · have hlt := List.rel_of_pairwise_cons h.1 he
      have : e'.1 ≠ e.1 := by omega
      simp only [mget, this, if_false]
      exact ih ⟨h.1.tail, fun x hx => h.2 x (List.mem_cons_of_mem _ hx)⟩ he

omit [DecidableEq α] in
theorem mget_filter_keys (d : α) (m : SMap α) (p : Nat → Bool) (k : Nat) :
    mget d (m.filter (fun e => p e.1)) k = if p k then mget d m k else d := by
  induction m with
  | nil => simp [mget]
  | cons e r ih =>
    by_cases hp : p e.1
    · rw [List.filter_cons_of_pos (by simpa using hp)]
      simp only [mget]
      split
      · rename_i hk; simp [← hk, hp]
      · exact ih
    · rw [List.filter_cons_of_neg (by simpa using hp), ih]
      by_cases hk : e.1 = k
      · subst hk
        simp [hp]
      · simp [mget, hk]

theorem mget_mclear (d : α) (m : SMap α) (a n k : Nat) :
    mget d (mclear m a n) k = if a ≤ k ∧ k < a + n then d else mget d m k := by
  rw [mclear, mget_filter_keys d m (fun k => decide (k < a) || decide (a + n ≤ k)) k]
  split <;> split <;> first | rfl | (rename_i h1 h2; simp at h1; omega)

/-! ### Bytes -/

theorem mget_mwrite_below (d : BitVec 8) (bs : List (BitVec 8)) (m : SMap (BitVec 8)) (a k : Nat) (h : k < a) :
    mget d (mwrite d m a bs) k = mget d m k := by
  induction bs generalizing m a with
  | nil => rfl
  | cons b r ih => rw [mwrite, ih _ _ (by omega), mget_mset_other _ _ _ (by omega)]

/-- A run of bytes written reads back; every other byte is as before. -/
theorem mget_mwrite (d : BitVec 8) (bs : List (BitVec 8)) (m : SMap (BitVec 8)) (a k : Nat) :
    mget d (mwrite d m a bs) k = if h : a ≤ k ∧ k < a + bs.length then bs[k - a]'(by omega) else mget d m k := by
  induction bs generalizing m a with
  | nil => simp [mwrite]
  | cons b r ih =>
    rw [mwrite, ih]
    by_cases h1 : k = a
    · subst h1
      simp
    · by_cases h2 : a + 1 ≤ k ∧ k < a + 1 + r.length
      · have h3 : a ≤ k ∧ k < a + (b :: r).length := by simp; omega
        simp only [h2, h3, and_self, dif_pos]
        have : k - a = (k - (a + 1)) + 1 := by omega
        simp [this]
      · have h3 : ¬(a ≤ k ∧ k < a + (b :: r).length) := by simp; omega
        simp only [h2, h3, dif_neg, not_false_iff]
        exact mget_mset_other _ _ _ h1

theorem mbytes_length (d : BitVec 8) (m : SMap (BitVec 8)) (a n : Nat) : (mbytes d m a n).length = n := by
  induction n generalizing a with
  | zero => rfl
  | succ n ih => simp [mbytes, ih]

theorem mbytes_getElem (d : BitVec 8) (m : SMap (BitVec 8)) (a n i : Nat) (h : i < (mbytes d m a n).length) :
    (mbytes d m a n)[i] = mget d m (a + i) := by
  induction n generalizing a i with
  | zero => simp [mbytes] at h
  | succ n ih =>
    cases i with
    | zero => simp [mbytes]
    | succ i =>
      simp only [mbytes, List.getElem_cons_succ]
      rw [ih]
      congr 1
      omega

/-- Reading back the bytes just written. -/
theorem mbytes_mwrite (d : BitVec 8) (m : SMap (BitVec 8)) (a : Nat) (bs : List (BitVec 8)) :
    mbytes d (mwrite d m a bs) a bs.length = bs := by
  apply List.ext_getElem (mbytes_length _ _ _ _)
  intro i h1 h2
  rw [mbytes_getElem, mget_mwrite]
  have : a ≤ a + i ∧ a + i < a + bs.length := by omega
  simp [this]

end Sys2Proof.Machine
end

