-- ==== Sys2Proof/Laws/State.lean ====
section
/-! SUPPORT. One lemma per field for each of the updates most meanings are made of, true by unfolding. -/

namespace Sys2Proof.Machine

section
variable (s : Dev) (t : Nat) (x : Tile)
@[simp] theorem setTile_freeCtr : (setTile s t x).freeCtr = s.freeCtr := rfl
@[simp] theorem setTile_time : (setTile s t x).time = s.time := rfl
@[simp] theorem setTile_timeValid : (setTile s t x).timeValid = s.timeValid := rfl
@[simp] theorem setTile_uptime : (setTile s t x).uptime = s.uptime := rfl
@[simp] theorem setTile_tiles : (setTile s t x).tiles = mset Tile.reset s.tiles t x := rfl
@[simp] theorem setTile_io : (setTile s t x).io = s.io := rfl
@[simp] theorem setTile_dowels : (setTile s t x).dowels = s.dowels := rfl
@[simp] theorem setTile_waiters : (setTile s t x).waiters = s.waiters := rfl
@[simp] theorem setTile_dops : (setTile s t x).dops = s.dops := rfl
@[simp] theorem setTile_wakes : (setTile s t x).wakes = s.wakes := rfl
@[simp] theorem setTile_dseq : (setTile s t x).dseq = s.dseq := rfl
@[simp] theorem setTile_clamps : (setTile s t x).clamps = s.clamps := rfl
@[simp] theorem setTile_mesh : (setTile s t x).mesh = s.mesh := rfl
@[simp] theorem setTile_parts : (setTile s t x).parts = s.parts := rfl
@[simp] theorem setTile_partCmd : (setTile s t x).partCmd = s.partCmd := rfl
@[simp] theorem setTile_zeroing : (setTile s t x).zeroing = s.zeroing := rfl
@[simp] theorem setTile_hports : (setTile s t x).hports = s.hports := rfl
@[simp] theorem setTile_ctrlPort : (setTile s t x).ctrlPort = s.ctrlPort := rfl
@[simp] theorem setTile_xlt : (setTile s t x).xlt = s.xlt := rfl
@[simp] theorem setTile_knots : (setTile s t x).knots = s.knots := rfl
@[simp] theorem setTile_lny : (setTile s t x).lny = s.lny := rfl
@[simp] theorem setTile_hold : (setTile s t x).hold = s.hold := rfl
@[simp] theorem setTile_coldRefuse : (setTile s t x).coldRefuse = s.coldRefuse := rfl
@[simp] theorem setTile_hlc : (setTile s t x).hlc = s.hlc := rfl
@[simp] theorem setTile_bm : (setTile s t x).bm = s.bm := rfl
@[simp] theorem setTile_wqs : (setTile s t x).wqs = s.wqs := rfl
@[simp] theorem setTile_fatal : (setTile s t x).fatal = s.fatal := rfl
@[simp] theorem setTile_rings : (setTile s t x).rings = s.rings := rfl
@[simp] theorem setTile_corrLog : (setTile s t x).corrLog = s.corrLog := rfl
@[simp] theorem setTile_logPend : (setTile s t x).logPend = s.logPend := rfl
@[simp] theorem setTile_mgmt : (setTile s t x).mgmt = s.mgmt := rfl
@[simp] theorem setTile_hbm : (setTile s t x).hbm = s.hbm := rfl
@[simp] theorem setTile_clk : (setTile s t x).clk = s.clk := rfl
@[simp] theorem setTile_kiln : (setTile s t x).kiln = s.kiln := rfl
@[simp] theorem setTile_pwr : (setTile s t x).pwr = s.pwr := rfl
@[simp] theorem setTile_pf : (setTile s t x).pf = s.pf := rfl
@[simp] theorem setTile_stack : (setTile s t x).stack = s.stack := rfl
@[simp] theorem setTile_stackPoison : (setTile s t x).stackPoison = s.stackPoison := rfl
@[simp] theorem setTile_out : (setTile s t x).out = s.out := rfl
@[simp] theorem setTile_kindle : (setTile s t x).kindle = s.kindle := rfl
@[simp] theorem setTile_reqCtr : (setTile s t x).reqCtr = s.reqCtr := rfl
@[simp] theorem setTile_sent : (setTile s t x).sent = s.sent := rfl
@[simp] theorem setTile_rebuild : (setTile s t x).rebuild = s.rebuild := rfl
@[simp] theorem setTile_barq : (setTile s t x).barq = s.barq := rfl
end

section
variable (s : Dev) (t : Nat) (f : Tile → Tile)
@[simp] theorem modTile_freeCtr : (modTile s t f).freeCtr = s.freeCtr := rfl
@[simp] theorem modTile_time : (modTile s t f).time = s.time := rfl
@[simp] theorem modTile_timeValid : (modTile s t f).timeValid = s.timeValid := rfl
@[simp] theorem modTile_uptime : (modTile s t f).uptime = s.uptime := rfl
@[simp] theorem modTile_tiles : (modTile s t f).tiles = mset Tile.reset s.tiles t (f (tileOf s t)) := rfl
@[simp] theorem modTile_io : (modTile s t f).io = s.io := rfl
@[simp] theorem modTile_dowels : (modTile s t f).dowels = s.dowels := rfl
@[simp] theorem modTile_waiters : (modTile s t f).waiters = s.waiters := rfl
@[simp] theorem modTile_dops : (modTile s t f).dops = s.dops := rfl
@[simp] theorem modTile_wakes : (modTile s t f).wakes = s.wakes := rfl
@[simp] theorem modTile_dseq : (modTile s t f).dseq = s.dseq := rfl
@[simp] theorem modTile_clamps : (modTile s t f).clamps = s.clamps := rfl
@[simp] theorem modTile_mesh : (modTile s t f).mesh = s.mesh := rfl
@[simp] theorem modTile_parts : (modTile s t f).parts = s.parts := rfl
@[simp] theorem modTile_partCmd : (modTile s t f).partCmd = s.partCmd := rfl
@[simp] theorem modTile_zeroing : (modTile s t f).zeroing = s.zeroing := rfl
@[simp] theorem modTile_hports : (modTile s t f).hports = s.hports := rfl
@[simp] theorem modTile_ctrlPort : (modTile s t f).ctrlPort = s.ctrlPort := rfl
@[simp] theorem modTile_xlt : (modTile s t f).xlt = s.xlt := rfl
@[simp] theorem modTile_knots : (modTile s t f).knots = s.knots := rfl
@[simp] theorem modTile_lny : (modTile s t f).lny = s.lny := rfl
@[simp] theorem modTile_hold : (modTile s t f).hold = s.hold := rfl
@[simp] theorem modTile_coldRefuse : (modTile s t f).coldRefuse = s.coldRefuse := rfl
@[simp] theorem modTile_hlc : (modTile s t f).hlc = s.hlc := rfl
@[simp] theorem modTile_bm : (modTile s t f).bm = s.bm := rfl
@[simp] theorem modTile_wqs : (modTile s t f).wqs = s.wqs := rfl
@[simp] theorem modTile_fatal : (modTile s t f).fatal = s.fatal := rfl
@[simp] theorem modTile_rings : (modTile s t f).rings = s.rings := rfl
@[simp] theorem modTile_corrLog : (modTile s t f).corrLog = s.corrLog := rfl
@[simp] theorem modTile_logPend : (modTile s t f).logPend = s.logPend := rfl
@[simp] theorem modTile_mgmt : (modTile s t f).mgmt = s.mgmt := rfl
@[simp] theorem modTile_hbm : (modTile s t f).hbm = s.hbm := rfl
@[simp] theorem modTile_clk : (modTile s t f).clk = s.clk := rfl
@[simp] theorem modTile_kiln : (modTile s t f).kiln = s.kiln := rfl
@[simp] theorem modTile_pwr : (modTile s t f).pwr = s.pwr := rfl
@[simp] theorem modTile_pf : (modTile s t f).pf = s.pf := rfl
@[simp] theorem modTile_stack : (modTile s t f).stack = s.stack := rfl
@[simp] theorem modTile_stackPoison : (modTile s t f).stackPoison = s.stackPoison := rfl
@[simp] theorem modTile_out : (modTile s t f).out = s.out := rfl
@[simp] theorem modTile_kindle : (modTile s t f).kindle = s.kindle := rfl
@[simp] theorem modTile_reqCtr : (modTile s t f).reqCtr = s.reqCtr := rfl
@[simp] theorem modTile_sent : (modTile s t f).sent = s.sent := rfl
@[simp] theorem modTile_rebuild : (modTile s t f).rebuild = s.rebuild := rfl
@[simp] theorem modTile_barq : (modTile s t f).barq = s.barq := rfl
end

section
variable (s : Dev)
@[simp] theorem drawFree_freeCtr : (drawFree s).freeCtr = s.freeCtr + 1 := rfl
@[simp] theorem drawFree_time : (drawFree s).time = s.time := rfl
@[simp] theorem drawFree_timeValid : (drawFree s).timeValid = s.timeValid := rfl
@[simp] theorem drawFree_uptime : (drawFree s).uptime = s.uptime := rfl
@[simp] theorem drawFree_tiles : (drawFree s).tiles = s.tiles := rfl
@[simp] theorem drawFree_io : (drawFree s).io = s.io := rfl
@[simp] theorem drawFree_dowels : (drawFree s).dowels = s.dowels := rfl
@[simp] theorem drawFree_waiters : (drawFree s).waiters = s.waiters := rfl
@[simp] theorem drawFree_dops : (drawFree s).dops = s.dops := rfl
@[simp] theorem drawFree_wakes : (drawFree s).wakes = s.wakes := rfl
@[simp] theorem drawFree_dseq : (drawFree s).dseq = s.dseq := rfl
@[simp] theorem drawFree_clamps : (drawFree s).clamps = s.clamps := rfl
@[simp] theorem drawFree_mesh : (drawFree s).mesh = s.mesh := rfl
@[simp] theorem drawFree_parts : (drawFree s).parts = s.parts := rfl
@[simp] theorem drawFree_partCmd : (drawFree s).partCmd = s.partCmd := rfl
@[simp] theorem drawFree_zeroing : (drawFree s).zeroing = s.zeroing := rfl
@[simp] theorem drawFree_hports : (drawFree s).hports = s.hports := rfl
@[simp] theorem drawFree_ctrlPort : (drawFree s).ctrlPort = s.ctrlPort := rfl
@[simp] theorem drawFree_xlt : (drawFree s).xlt = s.xlt := rfl
@[simp] theorem drawFree_knots : (drawFree s).knots = s.knots := rfl
@[simp] theorem drawFree_lny : (drawFree s).lny = s.lny := rfl
@[simp] theorem drawFree_hold : (drawFree s).hold = s.hold := rfl
@[simp] theorem drawFree_coldRefuse : (drawFree s).coldRefuse = s.coldRefuse := rfl
@[simp] theorem drawFree_hlc : (drawFree s).hlc = s.hlc := rfl
@[simp] theorem drawFree_bm : (drawFree s).bm = s.bm := rfl
@[simp] theorem drawFree_wqs : (drawFree s).wqs = s.wqs := rfl
@[simp] theorem drawFree_fatal : (drawFree s).fatal = s.fatal := rfl
@[simp] theorem drawFree_rings : (drawFree s).rings = s.rings := rfl
@[simp] theorem drawFree_corrLog : (drawFree s).corrLog = s.corrLog := rfl
@[simp] theorem drawFree_logPend : (drawFree s).logPend = s.logPend := rfl
@[simp] theorem drawFree_mgmt : (drawFree s).mgmt = s.mgmt := rfl
@[simp] theorem drawFree_hbm : (drawFree s).hbm = s.hbm := rfl
@[simp] theorem drawFree_clk : (drawFree s).clk = s.clk := rfl
@[simp] theorem drawFree_kiln : (drawFree s).kiln = s.kiln := rfl
@[simp] theorem drawFree_pwr : (drawFree s).pwr = s.pwr := rfl
@[simp] theorem drawFree_pf : (drawFree s).pf = s.pf := rfl
@[simp] theorem drawFree_stack : (drawFree s).stack = s.stack := rfl
@[simp] theorem drawFree_stackPoison : (drawFree s).stackPoison = s.stackPoison := rfl
@[simp] theorem drawFree_out : (drawFree s).out = s.out := rfl
@[simp] theorem drawFree_kindle : (drawFree s).kindle = s.kindle := rfl
@[simp] theorem drawFree_reqCtr : (drawFree s).reqCtr = s.reqCtr := rfl
@[simp] theorem drawFree_sent : (drawFree s).sent = s.sent := rfl
@[simp] theorem drawFree_rebuild : (drawFree s).rebuild = s.rebuild := rfl
@[simp] theorem drawFree_barq : (drawFree s).barq = s.barq := rfl
end

section
variable (s : Dev) (m : Msg)
@[simp] theorem send_freeCtr : (send s m).freeCtr = s.freeCtr := rfl
@[simp] theorem send_time : (send s m).time = s.time := rfl
@[simp] theorem send_timeValid : (send s m).timeValid = s.timeValid := rfl
@[simp] theorem send_uptime : (send s m).uptime = s.uptime := rfl
@[simp] theorem send_tiles : (send s m).tiles = s.tiles := rfl
@[simp] theorem send_io : (send s m).io = s.io := rfl
@[simp] theorem send_dowels : (send s m).dowels = s.dowels := rfl
@[simp] theorem send_waiters : (send s m).waiters = s.waiters := rfl
@[simp] theorem send_dops : (send s m).dops = s.dops := rfl
@[simp] theorem send_wakes : (send s m).wakes = s.wakes := rfl
@[simp] theorem send_dseq : (send s m).dseq = s.dseq := rfl
@[simp] theorem send_clamps : (send s m).clamps = s.clamps := rfl
@[simp] theorem send_mesh : (send s m).mesh = s.mesh := rfl
@[simp] theorem send_parts : (send s m).parts = s.parts := rfl
@[simp] theorem send_partCmd : (send s m).partCmd = s.partCmd := rfl
@[simp] theorem send_zeroing : (send s m).zeroing = s.zeroing := rfl
@[simp] theorem send_hports : (send s m).hports = s.hports := rfl
@[simp] theorem send_ctrlPort : (send s m).ctrlPort = s.ctrlPort := rfl
@[simp] theorem send_xlt : (send s m).xlt = s.xlt := rfl
@[simp] theorem send_knots : (send s m).knots = s.knots := rfl
@[simp] theorem send_lny : (send s m).lny = s.lny := rfl
@[simp] theorem send_hold : (send s m).hold = s.hold := rfl
@[simp] theorem send_coldRefuse : (send s m).coldRefuse = s.coldRefuse := rfl
@[simp] theorem send_hlc : (send s m).hlc = s.hlc := rfl
@[simp] theorem send_bm : (send s m).bm = s.bm := rfl
@[simp] theorem send_wqs : (send s m).wqs = s.wqs := rfl
@[simp] theorem send_fatal : (send s m).fatal = s.fatal := rfl
@[simp] theorem send_rings : (send s m).rings = s.rings := rfl
@[simp] theorem send_corrLog : (send s m).corrLog = s.corrLog := rfl
@[simp] theorem send_logPend : (send s m).logPend = s.logPend := rfl
@[simp] theorem send_mgmt : (send s m).mgmt = s.mgmt := rfl
@[simp] theorem send_hbm : (send s m).hbm = s.hbm := rfl
@[simp] theorem send_clk : (send s m).clk = s.clk := rfl
@[simp] theorem send_kiln : (send s m).kiln = s.kiln := rfl
@[simp] theorem send_pwr : (send s m).pwr = s.pwr := rfl
@[simp] theorem send_pf : (send s m).pf = s.pf := rfl
@[simp] theorem send_stack : (send s m).stack = s.stack := rfl
@[simp] theorem send_stackPoison : (send s m).stackPoison = s.stackPoison := rfl
@[simp] theorem send_out : (send s m).out = s.out ++ [m] := rfl
@[simp] theorem send_kindle : (send s m).kindle = s.kindle := rfl
@[simp] theorem send_reqCtr : (send s m).reqCtr = s.reqCtr := rfl
@[simp] theorem send_sent : (send s m).sent = s.sent := rfl
@[simp] theorem send_rebuild : (send s m).rebuild = s.rebuild := rfl
@[simp] theorem send_barq : (send s m).barq = s.barq := rfl
end

section
variable (s : Dev) (o : Nat) (v : Word)
@[simp] theorem ioSet_freeCtr : (ioSet s o v).freeCtr = s.freeCtr := rfl
@[simp] theorem ioSet_time : (ioSet s o v).time = s.time := rfl
@[simp] theorem ioSet_timeValid : (ioSet s o v).timeValid = s.timeValid := rfl
@[simp] theorem ioSet_uptime : (ioSet s o v).uptime = s.uptime := rfl
@[simp] theorem ioSet_tiles : (ioSet s o v).tiles = s.tiles := rfl
@[simp] theorem ioSet_io : (ioSet s o v).io = mset 0 s.io o v := rfl
@[simp] theorem ioSet_dowels : (ioSet s o v).dowels = s.dowels := rfl
@[simp] theorem ioSet_waiters : (ioSet s o v).waiters = s.waiters := rfl
@[simp] theorem ioSet_dops : (ioSet s o v).dops = s.dops := rfl
@[simp] theorem ioSet_wakes : (ioSet s o v).wakes = s.wakes := rfl
@[simp] theorem ioSet_dseq : (ioSet s o v).dseq = s.dseq := rfl
@[simp] theorem ioSet_clamps : (ioSet s o v).clamps = s.clamps := rfl
@[simp] theorem ioSet_mesh : (ioSet s o v).mesh = s.mesh := rfl
@[simp] theorem ioSet_parts : (ioSet s o v).parts = s.parts := rfl
@[simp] theorem ioSet_partCmd : (ioSet s o v).partCmd = s.partCmd := rfl
@[simp] theorem ioSet_zeroing : (ioSet s o v).zeroing = s.zeroing := rfl
@[simp] theorem ioSet_hports : (ioSet s o v).hports = s.hports := rfl
@[simp] theorem ioSet_ctrlPort : (ioSet s o v).ctrlPort = s.ctrlPort := rfl
@[simp] theorem ioSet_xlt : (ioSet s o v).xlt = s.xlt := rfl
@[simp] theorem ioSet_knots : (ioSet s o v).knots = s.knots := rfl
@[simp] theorem ioSet_lny : (ioSet s o v).lny = s.lny := rfl
@[simp] theorem ioSet_hold : (ioSet s o v).hold = s.hold := rfl
@[simp] theorem ioSet_coldRefuse : (ioSet s o v).coldRefuse = s.coldRefuse := rfl
@[simp] theorem ioSet_hlc : (ioSet s o v).hlc = s.hlc := rfl
@[simp] theorem ioSet_bm : (ioSet s o v).bm = s.bm := rfl
@[simp] theorem ioSet_wqs : (ioSet s o v).wqs = s.wqs := rfl
@[simp] theorem ioSet_fatal : (ioSet s o v).fatal = s.fatal := rfl
@[simp] theorem ioSet_rings : (ioSet s o v).rings = s.rings := rfl
@[simp] theorem ioSet_corrLog : (ioSet s o v).corrLog = s.corrLog := rfl
@[simp] theorem ioSet_logPend : (ioSet s o v).logPend = s.logPend := rfl
@[simp] theorem ioSet_mgmt : (ioSet s o v).mgmt = s.mgmt := rfl
@[simp] theorem ioSet_hbm : (ioSet s o v).hbm = s.hbm := rfl
@[simp] theorem ioSet_clk : (ioSet s o v).clk = s.clk := rfl
@[simp] theorem ioSet_kiln : (ioSet s o v).kiln = s.kiln := rfl
@[simp] theorem ioSet_pwr : (ioSet s o v).pwr = s.pwr := rfl
@[simp] theorem ioSet_pf : (ioSet s o v).pf = s.pf := rfl
@[simp] theorem ioSet_stack : (ioSet s o v).stack = s.stack := rfl
@[simp] theorem ioSet_stackPoison : (ioSet s o v).stackPoison = s.stackPoison := rfl
@[simp] theorem ioSet_out : (ioSet s o v).out = s.out := rfl
@[simp] theorem ioSet_kindle : (ioSet s o v).kindle = s.kindle := rfl
@[simp] theorem ioSet_reqCtr : (ioSet s o v).reqCtr = s.reqCtr := rfl
@[simp] theorem ioSet_sent : (ioSet s o v).sent = s.sent := rfl
@[simp] theorem ioSet_rebuild : (ioSet s o v).rebuild = s.rebuild := rfl
@[simp] theorem ioSet_barq : (ioSet s o v).barq = s.barq := rfl
end

section
variable (s : Dev) (f : HbmSt → HbmSt)
@[simp] theorem modHbm_freeCtr : (modHbm s f).freeCtr = s.freeCtr := rfl
@[simp] theorem modHbm_time : (modHbm s f).time = s.time := rfl
@[simp] theorem modHbm_timeValid : (modHbm s f).timeValid = s.timeValid := rfl
@[simp] theorem modHbm_uptime : (modHbm s f).uptime = s.uptime := rfl
@[simp] theorem modHbm_tiles : (modHbm s f).tiles = s.tiles := rfl
@[simp] theorem modHbm_io : (modHbm s f).io = s.io := rfl
@[simp] theorem modHbm_dowels : (modHbm s f).dowels = s.dowels := rfl
@[simp] theorem modHbm_waiters : (modHbm s f).waiters = s.waiters := rfl
@[simp] theorem modHbm_dops : (modHbm s f).dops = s.dops := rfl
@[simp] theorem modHbm_wakes : (modHbm s f).wakes = s.wakes := rfl
@[simp] theorem modHbm_dseq : (modHbm s f).dseq = s.dseq := rfl
@[simp] theorem modHbm_clamps : (modHbm s f).clamps = s.clamps := rfl
@[simp] theorem modHbm_mesh : (modHbm s f).mesh = s.mesh := rfl
@[simp] theorem modHbm_parts : (modHbm s f).parts = s.parts := rfl
@[simp] theorem modHbm_partCmd : (modHbm s f).partCmd = s.partCmd := rfl
@[simp] theorem modHbm_zeroing : (modHbm s f).zeroing = s.zeroing := rfl
@[simp] theorem modHbm_hports : (modHbm s f).hports = s.hports := rfl
@[simp] theorem modHbm_ctrlPort : (modHbm s f).ctrlPort = s.ctrlPort := rfl
@[simp] theorem modHbm_xlt : (modHbm s f).xlt = s.xlt := rfl
@[simp] theorem modHbm_knots : (modHbm s f).knots = s.knots := rfl
@[simp] theorem modHbm_lny : (modHbm s f).lny = s.lny := rfl
@[simp] theorem modHbm_hold : (modHbm s f).hold = s.hold := rfl
@[simp] theorem modHbm_coldRefuse : (modHbm s f).coldRefuse = s.coldRefuse := rfl
@[simp] theorem modHbm_hlc : (modHbm s f).hlc = s.hlc := rfl
@[simp] theorem modHbm_bm : (modHbm s f).bm = s.bm := rfl
@[simp] theorem modHbm_wqs : (modHbm s f).wqs = s.wqs := rfl
@[simp] theorem modHbm_fatal : (modHbm s f).fatal = s.fatal := rfl
@[simp] theorem modHbm_rings : (modHbm s f).rings = s.rings := rfl
@[simp] theorem modHbm_corrLog : (modHbm s f).corrLog = s.corrLog := rfl
@[simp] theorem modHbm_logPend : (modHbm s f).logPend = s.logPend := rfl
@[simp] theorem modHbm_mgmt : (modHbm s f).mgmt = s.mgmt := rfl
@[simp] theorem modHbm_hbm : (modHbm s f).hbm = f s.hbm := rfl
@[simp] theorem modHbm_clk : (modHbm s f).clk = s.clk := rfl
@[simp] theorem modHbm_kiln : (modHbm s f).kiln = s.kiln := rfl
@[simp] theorem modHbm_pwr : (modHbm s f).pwr = s.pwr := rfl
@[simp] theorem modHbm_pf : (modHbm s f).pf = s.pf := rfl
@[simp] theorem modHbm_stack : (modHbm s f).stack = s.stack := rfl
@[simp] theorem modHbm_stackPoison : (modHbm s f).stackPoison = s.stackPoison := rfl
@[simp] theorem modHbm_out : (modHbm s f).out = s.out := rfl
@[simp] theorem modHbm_kindle : (modHbm s f).kindle = s.kindle := rfl
@[simp] theorem modHbm_reqCtr : (modHbm s f).reqCtr = s.reqCtr := rfl
@[simp] theorem modHbm_sent : (modHbm s f).sent = s.sent := rfl
@[simp] theorem modHbm_rebuild : (modHbm s f).rebuild = s.rebuild := rfl
@[simp] theorem modHbm_barq : (modHbm s f).barq = s.barq := rfl
end

section
variable (s : Dev) (f : PwrSt → PwrSt)
@[simp] theorem modPwr_freeCtr : (modPwr s f).freeCtr = s.freeCtr := rfl
@[simp] theorem modPwr_time : (modPwr s f).time = s.time := rfl
@[simp] theorem modPwr_timeValid : (modPwr s f).timeValid = s.timeValid := rfl
@[simp] theorem modPwr_uptime : (modPwr s f).uptime = s.uptime := rfl
@[simp] theorem modPwr_tiles : (modPwr s f).tiles = s.tiles := rfl
@[simp] theorem modPwr_io : (modPwr s f).io = s.io := rfl
@[simp] theorem modPwr_dowels : (modPwr s f).dowels = s.dowels := rfl
@[simp] theorem modPwr_waiters : (modPwr s f).waiters = s.waiters := rfl
@[simp] theorem modPwr_dops : (modPwr s f).dops = s.dops := rfl
@[simp] theorem modPwr_wakes : (modPwr s f).wakes = s.wakes := rfl
@[simp] theorem modPwr_dseq : (modPwr s f).dseq = s.dseq := rfl
@[simp] theorem modPwr_clamps : (modPwr s f).clamps = s.clamps := rfl
@[simp] theorem modPwr_mesh : (modPwr s f).mesh = s.mesh := rfl
@[simp] theorem modPwr_parts : (modPwr s f).parts = s.parts := rfl
@[simp] theorem modPwr_partCmd : (modPwr s f).partCmd = s.partCmd := rfl
@[simp] theorem modPwr_zeroing : (modPwr s f).zeroing = s.zeroing := rfl
@[simp] theorem modPwr_hports : (modPwr s f).hports = s.hports := rfl
@[simp] theorem modPwr_ctrlPort : (modPwr s f).ctrlPort = s.ctrlPort := rfl
@[simp] theorem modPwr_xlt : (modPwr s f).xlt = s.xlt := rfl
@[simp] theorem modPwr_knots : (modPwr s f).knots = s.knots := rfl
@[simp] theorem modPwr_lny : (modPwr s f).lny = s.lny := rfl
@[simp] theorem modPwr_hold : (modPwr s f).hold = s.hold := rfl
@[simp] theorem modPwr_coldRefuse : (modPwr s f).coldRefuse = s.coldRefuse := rfl
@[simp] theorem modPwr_hlc : (modPwr s f).hlc = s.hlc := rfl
@[simp] theorem modPwr_bm : (modPwr s f).bm = s.bm := rfl
@[simp] theorem modPwr_wqs : (modPwr s f).wqs = s.wqs := rfl
@[simp] theorem modPwr_fatal : (modPwr s f).fatal = s.fatal := rfl
@[simp] theorem modPwr_rings : (modPwr s f).rings = s.rings := rfl
@[simp] theorem modPwr_corrLog : (modPwr s f).corrLog = s.corrLog := rfl
@[simp] theorem modPwr_logPend : (modPwr s f).logPend = s.logPend := rfl
@[simp] theorem modPwr_mgmt : (modPwr s f).mgmt = s.mgmt := rfl
@[simp] theorem modPwr_hbm : (modPwr s f).hbm = s.hbm := rfl
@[simp] theorem modPwr_clk : (modPwr s f).clk = s.clk := rfl
@[simp] theorem modPwr_kiln : (modPwr s f).kiln = s.kiln := rfl
@[simp] theorem modPwr_pwr : (modPwr s f).pwr = f s.pwr := rfl
@[simp] theorem modPwr_pf : (modPwr s f).pf = s.pf := rfl
@[simp] theorem modPwr_stack : (modPwr s f).stack = s.stack := rfl
@[simp] theorem modPwr_stackPoison : (modPwr s f).stackPoison = s.stackPoison := rfl
@[simp] theorem modPwr_out : (modPwr s f).out = s.out := rfl
@[simp] theorem modPwr_kindle : (modPwr s f).kindle = s.kindle := rfl
@[simp] theorem modPwr_reqCtr : (modPwr s f).reqCtr = s.reqCtr := rfl
@[simp] theorem modPwr_sent : (modPwr s f).sent = s.sent := rfl
@[simp] theorem modPwr_rebuild : (modPwr s f).rebuild = s.rebuild := rfl
@[simp] theorem modPwr_barq : (modPwr s f).barq = s.barq := rfl
end

section
variable (s : Dev) (f : KilnSt → KilnSt)
@[simp] theorem modKiln_freeCtr : (modKiln s f).freeCtr = s.freeCtr := rfl
@[simp] theorem modKiln_time : (modKiln s f).time = s.time := rfl
@[simp] theorem modKiln_timeValid : (modKiln s f).timeValid = s.timeValid := rfl
@[simp] theorem modKiln_uptime : (modKiln s f).uptime = s.uptime := rfl
@[simp] theorem modKiln_tiles : (modKiln s f).tiles = s.tiles := rfl
@[simp] theorem modKiln_io : (modKiln s f).io = s.io := rfl
@[simp] theorem modKiln_dowels : (modKiln s f).dowels = s.dowels := rfl
@[simp] theorem modKiln_waiters : (modKiln s f).waiters = s.waiters := rfl
@[simp] theorem modKiln_dops : (modKiln s f).dops = s.dops := rfl
@[simp] theorem modKiln_wakes : (modKiln s f).wakes = s.wakes := rfl
@[simp] theorem modKiln_dseq : (modKiln s f).dseq = s.dseq := rfl
@[simp] theorem modKiln_clamps : (modKiln s f).clamps = s.clamps := rfl
@[simp] theorem modKiln_mesh : (modKiln s f).mesh = s.mesh := rfl
@[simp] theorem modKiln_parts : (modKiln s f).parts = s.parts := rfl
@[simp] theorem modKiln_partCmd : (modKiln s f).partCmd = s.partCmd := rfl
@[simp] theorem modKiln_zeroing : (modKiln s f).zeroing = s.zeroing := rfl
@[simp] theorem modKiln_hports : (modKiln s f).hports = s.hports := rfl
@[simp] theorem modKiln_ctrlPort : (modKiln s f).ctrlPort = s.ctrlPort := rfl
@[simp] theorem modKiln_xlt : (modKiln s f).xlt = s.xlt := rfl
@[simp] theorem modKiln_knots : (modKiln s f).knots = s.knots := rfl
@[simp] theorem modKiln_lny : (modKiln s f).lny = s.lny := rfl
@[simp] theorem modKiln_hold : (modKiln s f).hold = s.hold := rfl
@[simp] theorem modKiln_coldRefuse : (modKiln s f).coldRefuse = s.coldRefuse := rfl
@[simp] theorem modKiln_hlc : (modKiln s f).hlc = s.hlc := rfl
@[simp] theorem modKiln_bm : (modKiln s f).bm = s.bm := rfl
@[simp] theorem modKiln_wqs : (modKiln s f).wqs = s.wqs := rfl
@[simp] theorem modKiln_fatal : (modKiln s f).fatal = s.fatal := rfl
@[simp] theorem modKiln_rings : (modKiln s f).rings = s.rings := rfl
@[simp] theorem modKiln_corrLog : (modKiln s f).corrLog = s.corrLog := rfl
@[simp] theorem modKiln_logPend : (modKiln s f).logPend = s.logPend := rfl
@[simp] theorem modKiln_mgmt : (modKiln s f).mgmt = s.mgmt := rfl
@[simp] theorem modKiln_hbm : (modKiln s f).hbm = s.hbm := rfl
@[simp] theorem modKiln_clk : (modKiln s f).clk = s.clk := rfl
@[simp] theorem modKiln_kiln : (modKiln s f).kiln = f s.kiln := rfl
@[simp] theorem modKiln_pwr : (modKiln s f).pwr = s.pwr := rfl
@[simp] theorem modKiln_pf : (modKiln s f).pf = s.pf := rfl
@[simp] theorem modKiln_stack : (modKiln s f).stack = s.stack := rfl
@[simp] theorem modKiln_stackPoison : (modKiln s f).stackPoison = s.stackPoison := rfl
@[simp] theorem modKiln_out : (modKiln s f).out = s.out := rfl
@[simp] theorem modKiln_kindle : (modKiln s f).kindle = s.kindle := rfl
@[simp] theorem modKiln_reqCtr : (modKiln s f).reqCtr = s.reqCtr := rfl
@[simp] theorem modKiln_sent : (modKiln s f).sent = s.sent := rfl
@[simp] theorem modKiln_rebuild : (modKiln s f).rebuild = s.rebuild := rfl
@[simp] theorem modKiln_barq : (modKiln s f).barq = s.barq := rfl
end

section
variable (s : Dev) (f : MgmtSt → MgmtSt)
@[simp] theorem modMgmt_freeCtr : (modMgmt s f).freeCtr = s.freeCtr := rfl
@[simp] theorem modMgmt_time : (modMgmt s f).time = s.time := rfl
@[simp] theorem modMgmt_timeValid : (modMgmt s f).timeValid = s.timeValid := rfl
@[simp] theorem modMgmt_uptime : (modMgmt s f).uptime = s.uptime := rfl
@[simp] theorem modMgmt_tiles : (modMgmt s f).tiles = s.tiles := rfl
@[simp] theorem modMgmt_io : (modMgmt s f).io = s.io := rfl
@[simp] theorem modMgmt_dowels : (modMgmt s f).dowels = s.dowels := rfl
@[simp] theorem modMgmt_waiters : (modMgmt s f).waiters = s.waiters := rfl
@[simp] theorem modMgmt_dops : (modMgmt s f).dops = s.dops := rfl
@[simp] theorem modMgmt_wakes : (modMgmt s f).wakes = s.wakes := rfl
@[simp] theorem modMgmt_dseq : (modMgmt s f).dseq = s.dseq := rfl
@[simp] theorem modMgmt_clamps : (modMgmt s f).clamps = s.clamps := rfl
@[simp] theorem modMgmt_mesh : (modMgmt s f).mesh = s.mesh := rfl
@[simp] theorem modMgmt_parts : (modMgmt s f).parts = s.parts := rfl
@[simp] theorem modMgmt_partCmd : (modMgmt s f).partCmd = s.partCmd := rfl
@[simp] theorem modMgmt_zeroing : (modMgmt s f).zeroing = s.zeroing := rfl
@[simp] theorem modMgmt_hports : (modMgmt s f).hports = s.hports := rfl
@[simp] theorem modMgmt_ctrlPort : (modMgmt s f).ctrlPort = s.ctrlPort := rfl
@[simp] theorem modMgmt_xlt : (modMgmt s f).xlt = s.xlt := rfl
@[simp] theorem modMgmt_knots : (modMgmt s f).knots = s.knots := rfl
@[simp] theorem modMgmt_lny : (modMgmt s f).lny = s.lny := rfl
@[simp] theorem modMgmt_hold : (modMgmt s f).hold = s.hold := rfl
@[simp] theorem modMgmt_coldRefuse : (modMgmt s f).coldRefuse = s.coldRefuse := rfl
@[simp] theorem modMgmt_hlc : (modMgmt s f).hlc = s.hlc := rfl
@[simp] theorem modMgmt_bm : (modMgmt s f).bm = s.bm := rfl
@[simp] theorem modMgmt_wqs : (modMgmt s f).wqs = s.wqs := rfl
@[simp] theorem modMgmt_fatal : (modMgmt s f).fatal = s.fatal := rfl
@[simp] theorem modMgmt_rings : (modMgmt s f).rings = s.rings := rfl
@[simp] theorem modMgmt_corrLog : (modMgmt s f).corrLog = s.corrLog := rfl
@[simp] theorem modMgmt_logPend : (modMgmt s f).logPend = s.logPend := rfl
@[simp] theorem modMgmt_mgmt : (modMgmt s f).mgmt = f s.mgmt := rfl
@[simp] theorem modMgmt_hbm : (modMgmt s f).hbm = s.hbm := rfl
@[simp] theorem modMgmt_clk : (modMgmt s f).clk = s.clk := rfl
@[simp] theorem modMgmt_kiln : (modMgmt s f).kiln = s.kiln := rfl
@[simp] theorem modMgmt_pwr : (modMgmt s f).pwr = s.pwr := rfl
@[simp] theorem modMgmt_pf : (modMgmt s f).pf = s.pf := rfl
@[simp] theorem modMgmt_stack : (modMgmt s f).stack = s.stack := rfl
@[simp] theorem modMgmt_stackPoison : (modMgmt s f).stackPoison = s.stackPoison := rfl
@[simp] theorem modMgmt_out : (modMgmt s f).out = s.out := rfl
@[simp] theorem modMgmt_kindle : (modMgmt s f).kindle = s.kindle := rfl
@[simp] theorem modMgmt_reqCtr : (modMgmt s f).reqCtr = s.reqCtr := rfl
@[simp] theorem modMgmt_sent : (modMgmt s f).sent = s.sent := rfl
@[simp] theorem modMgmt_rebuild : (modMgmt s f).rebuild = s.rebuild := rfl
@[simp] theorem modMgmt_barq : (modMgmt s f).barq = s.barq := rfl
end

section
variable (s : State) (d : Dev) (t : Nat) (x : Tile)
@[simp] theorem withDev_dev : (withDev s d).dev = d := rfl
@[simp] theorem withDev_pending : (withDev s d).pending = s.pending := rfl
@[simp] theorem withDev_flue : (withDev s d).flue = s.flue := rfl
@[simp] theorem putTile_dev : (putTile s t x).dev = setTile s.dev t x := rfl
@[simp] theorem putTile_pending : (putTile s t x).pending = s.pending := rfl
@[simp] theorem putTile_flue : (putTile s t x).flue = s.flue := rfl
end

section
variable (s : State) (m : Nat) (g : FlueMgr)
@[simp] theorem putMgr_dev : (putMgr s m g).dev = s.dev := rfl
@[simp] theorem putMgr_pending : (putMgr s m g).pending = s.pending := rfl
end

end Sys2Proof.Machine
end

