-- ==== Sys2Proof/Laws/Ops.lean ====
section
/-! SUPPORT. What each shared operation does, said once: tiles, registers, issue, the ends of an instruction, taking an
exception and returning. -/

namespace Sys2Proof.Machine
open Sys2Proof

/-! ### Tiles -/

@[simp] theorem tileOf_setTile_same (s : Dev) (t : Nat) (x : Tile) : tileOf (setTile s t x) t = x := by simp [tileOf]

theorem tileOf_setTile_other (s : Dev) {t u : Nat} (x : Tile) (h : u ≠ t) : tileOf (setTile s t x) u = tileOf s u := by
  simp [tileOf, mget_mset_other _ _ _ h]

theorem tileOf_setTile (s : Dev) (t u : Nat) (x : Tile) : tileOf (setTile s t x) u = if u = t then x else tileOf s u := by
  simp [tileOf, mget_mset]

@[simp] theorem tileOf_modTile_same (s : Dev) (t : Nat) (f : Tile → Tile) : tileOf (modTile s t f) t = f (tileOf s t) :=
  tileOf_setTile_same _ _ _

theorem tileOf_modTile_other (s : Dev) {t u : Nat} (f : Tile → Tile) (h : u ≠ t) : tileOf (modTile s t f) u = tileOf s u :=
  tileOf_setTile_other _ _ h

@[simp] theorem tileOf_send (s : Dev) (m : Msg) (t : Nat) : tileOf (send s m) t = tileOf s t := rfl
@[simp] theorem tileOf_drawFree (s : Dev) (t : Nat) : tileOf (drawFree s) t = tileOf s t := rfl
@[simp] theorem tileOf_ioSet (s : Dev) (o : Nat) (v : Word) (t : Nat) : tileOf (ioSet s o v) t = tileOf s t := rfl

theorem minsert_minsert {α : Type} (k : Nat) (v w : α) (m : SMap α) : minsert k v (minsert k w m) = minsert k v m := by
  induction m with
  | nil => simp [minsert]
  | cons e r ih =>
    simp only [minsert]
    split
    · simp [minsert]
    · split
      · simp [minsert]
      · rename_i h1 h2
        simp [minsert, h1, h2, ih]

theorem merase_minsert {α : Type} (k : Nat) (w : α) (m : SMap α) : merase k (minsert k w m) = merase k m := by
  induction m with
  | nil => simp [minsert, merase]
  | cons e r ih =>
    simp only [minsert]
    split
    · simp [merase]
    · split
      · rename_i h1 h2
        subst h2
        simp [merase]
      · rename_i h1 h2
        simp [merase, ih]

/-! ### Folding -/

@[simp] theorem foldCore_core (t : Tile) (a b c : Nat) (v : Word) : (foldCore t a b c v).core = t.core := by
  unfold foldCore; split <;> rfl
@[simp] theorem foldCore_spad (t : Tile) (a b c : Nat) (v : Word) : (foldCore t a b c v).spad = t.spad := by
  unfold foldCore; split <;> rfl
@[simp] theorem foldCore_lvu (t : Tile) (a b c : Nat) (v : Word) : (foldCore t a b c v).lvu = t.lvu := by
  unfold foldCore; split <;> rfl
@[simp] theorem foldCore_me (t : Tile) (a b c : Nat) (v : Word) : (foldCore t a b c v).me = t.me := by
  unfold foldCore; split <;> rfl
@[simp] theorem foldCore_dr (t : Tile) (a b c : Nat) (v : Word) : (foldCore t a b c v).dr = t.dr := by
  unfold foldCore; split <;> rfl

/-- Folding changes nothing but the digests. -/
theorem foldCore_eq (t : Tile) (a b c : Nat) (v : Word) : foldCore t a b c v = { t with dig := (foldCore t a b c v).dig } := by
  unfold foldCore; split <;> rfl

/-- Writing a g register changes nothing but the g registers and the digests. -/
theorem setG_eq (t : Tile) (r : Nat) (v : Word) :
    setG t r v = { t with core := { t.core with g := (setG t r v).core.g }, dig := (setG t r v).dig } := by
  unfold setG
  split
  · rfl
  · rw [foldCore_eq]

/-- Writing a predicate changes nothing but the predicates and the digests. -/
theorem setP_eq (t : Tile) (p : Nat) (b : Bool) :
    setP t p b = { t with core := { t.core with p := (setP t p b).core.p }, dig := (setP t p b).dig } := by
  unfold setP
  split
  · rfl
  · dsimp only
    rw [foldCore_eq]

/-! ### Registers -/

@[simp] theorem getG_zero (t : Tile) : getG t 0 = 0 := rfl

/-- A write to g0 is discarded (R178). -/
@[simp] theorem setG_zero (t : Tile) (v : Word) : setG t 0 v = t := rfl

theorem getG_foldCore (t : Tile) (a b c : Nat) (v : Word) (r : Nat) : getG (foldCore t a b c v) r = getG t r := by
  simp [getG]

/-- A g register reads what was written; the others are as before. -/
theorem getG_setG (t : Tile) (r q : Nat) (v : Word) : getG (setG t r v) q = if q = r ∧ r ≠ 0 then v else getG t q := by
  unfold setG
  by_cases hr : r = 0
  · simp [hr]
  · simp only [hr, if_false, getG_foldCore]
    unfold getG
    by_cases hq : q = 0
    · subst hq; simp [Ne.symm hr]
    · simp [hq, hr, mget_mset]

/-- Writing a g register changes nothing of the core but the g registers. -/
theorem setG_core (t : Tile) (r : Nat) (v : Word) : (setG t r v).core = { t.core with g := (setG t r v).core.g } := by
  unfold setG; split <;> simp

@[simp] theorem setG_pc (t : Tile) (r : Nat) (v : Word) : (setG t r v).core.pc = t.core.pc := by rw [setG_core]
@[simp] theorem setG_p (t : Tile) (r : Nat) (v : Word) : (setG t r v).core.p = t.core.p := by rw [setG_core]
@[simp] theorem setG_status (t : Tile) (r : Nat) (v : Word) : (setG t r v).core.status = t.core.status := by rw [setG_core]
@[simp] theorem setG_slot (t : Tile) (r : Nat) (v : Word) : (setG t r v).core.slot = t.core.slot := by rw [setG_core]
@[simp] theorem setG_fcsr (t : Tile) (r : Nat) (v : Word) : (setG t r v).core.fcsr = t.core.fcsr := by rw [setG_core]
@[simp] theorem setG_spad (t : Tile) (r : Nat) (v : Word) : (setG t r v).spad = t.spad := by unfold setG; split <;> simp
@[simp] theorem setG_lvu (t : Tile) (r : Nat) (v : Word) : (setG t r v).lvu = t.lvu := by unfold setG; split <;> simp
@[simp] theorem setG_me (t : Tile) (r : Nat) (v : Word) : (setG t r v).me = t.me := by unfold setG; split <;> simp
@[simp] theorem setG_dr (t : Tile) (r : Nat) (v : Word) : (setG t r v).dr = t.dr := by unfold setG; split <;> simp

theorem bit_or_one (w : BitVec 16) (p q : PredNo) : bit (w ||| 1#16 <<< p.val) q = if q = p then true else bit w q := by
  unfold bit
  fin_cases p <;> fin_cases q <;> simp

theorem bit_and_not_one (w : BitVec 16) (p q : PredNo) :
    bit (w &&& ~~~(1#16 <<< p.val)) q = if q = p then false else bit w q := by
  unfold bit
  fin_cases p <;> fin_cases q <;> simp

/-- A predicate reads what was written; the others are as before. -/
theorem getP_setP (t : Tile) (p q : PredNo) (b : Bool) : getP (setP t p b) q = if q = p ∧ p ≠ 0 then b else getP t q := by
  unfold setP
  by_cases hp : p = 0
  · subst hp; simp
  · have h0 : p.val ≠ 0 := fun h => hp (Fin.ext h)
    simp only [h0, if_false]
    unfold getP
    rw [foldCore_core]
    by_cases hq : q = p
    · subst hq
      cases b <;> simp [bit_or_one, bit_and_not_one, hp]
    · cases b <;> simp [bit_or_one, bit_and_not_one, hq]

/-- Writing a predicate changes nothing of the core but the predicates. -/
theorem setP_core (t : Tile) (p : Nat) (b : Bool) : (setP t p b).core = { t.core with p := (setP t p b).core.p } := by
  unfold setP; split <;> simp

@[simp] theorem getP_zero (t : Tile) : getP t 0 = true := rfl
@[simp] theorem setP_zero (t : Tile) (b : Bool) : setP t 0 b = t := rfl

/-! ### Issue -/

/-- An instruction that issues ends as its work ends. -/
theorem issue_ready {s : State} {t : TileId} {gu : Guard} {size : Nat} {illegal : Tile → Bool} {body : Tile → Res}
    (h : Issues s t gu size) (hi : illegal (tileIn s t) = false) :
    issue s.dev t gu size illegal body = finish s.dev t (tileIn s t) size (body (tileIn s t)) := by
  obtain ⟨h1, h2, h3, h4, h5⟩ := h
  unfold tileIn at *
  simp [issue, h1, h2, hi, h3, h4, h5]

/-- An instruction that only changes its own tile. -/
theorem issueT_ready {s : State} {t : TileId} {gu : Guard} {size occ : Nat} {f : Tile → Tile} (h : Issues s t gu size) :
    issueT s.dev t gu size occ false f = setTile s.dev t (advance (f (tileIn s t)) size occ) := by
  unfold issueT
  rw [issue_ready h rfl]
  rfl

/-- An encoding that is no instruction raises ILLEGAL (R204). -/
theorem issue_illegal {s : State} {t : TileId} {gu : Guard} {size : Nat} {body : Tile → Res} {illegal : Tile → Bool}
    (h : Issues s t gu size) (hi : illegal (tileIn s t) = true) :
    issue s.dev t gu size illegal body = setTile s.dev t (enterException (tileIn s t) 1 0 0) := by
  obtain ⟨h1, h2, h3, h4, h5⟩ := h
  have : fetchFault (tileIn s t) size true = some 1 := by
    unfold fetchFault at *
    simp only [Bool.false_eq_true, if_false, if_true] at *
    split at h3
    · cases h3
    · split at h3
      · cases h3
      · split at h3
        · cases h3
        · rename_i q1 q2 q3
          rw [if_neg q1, if_neg q2, if_neg q3]
  unfold tileIn at *
  simp [issue, h1, h2, hi, this, h5]

/-- A false guard: the instruction advances and does nothing else (R184). -/
theorem issue_skipped {s : State} {t : TileId} {gu : Guard} {size : Nat} {illegal : Tile → Bool} {body : Tile → Res}
    (h1 : s.dev.hold = false) (h2 : canIssue (tileOf s.dev t) = true)
    (h3 : fetchFault (tileIn s t) size (illegal (tileIn s t)) = none) (h4 : guardOf (tileIn s t) gu = false)
    (h5 : (tileOf s.dev t).core.run = true) :
    issue s.dev t gu size illegal body = setTile s.dev t (advance (tileIn s t) size 1) := by
  unfold tileIn at *
  simp [issue, h1, h2, h3, h4, h5]

/-- An instruction that stalled and issues after RUN became 0 does what a running core's does; the core halts after it
(R206, R215). -/
theorem issue_stopped {s : Dev} {t : TileId} {gu : Guard} {size : Nat} {illegal : Tile → Bool} {body : Tile → Res}
    (h1 : s.hold = false) (h2 : canIssue (tileOf s t) = true)
    (h3 : fetchFault (landDue (tileOf s t)) size (illegal (landDue (tileOf s t))) = none)
    (h4 : guardOf (landDue (tileOf s t)) gu = true) (h5 : (tileOf s t).core.run = false) :
    issue s t gu size illegal body = settle (finish s t (landDue (tileOf s t)) size (body (landDue (tileOf s t)))) t := by
  simp [issue, h1, h2, h3, h4, h5]

/-- A core that cannot issue, or a part whose issue is held, leaves everything as it is (R146, R180). -/
theorem issue_held {s : Dev} {t : TileId} {gu : Guard} {size : Nat} {illegal : Tile → Bool} {body : Tile → Res}
    (h : s.hold = true ∨ canIssue (tileOf s t) = false) : issue s t gu size illegal body = s := by
  rcases h with h | h <;> simp [issue, h]

/-! ### The ends of an instruction -/

@[simp] theorem advance_pc (t : Tile) (size occ : Nat) : (advance t size occ).core.pc = t.core.pc + BitVec.ofNat 64 size := rfl
@[simp] theorem advance_g (t : Tile) (size occ : Nat) : (advance t size occ).core.g = t.core.g := rfl
@[simp] theorem advance_p (t : Tile) (size occ : Nat) : (advance t size occ).core.p = t.core.p := rfl
@[simp] theorem advance_sv (t : Tile) (size occ : Nat) : (advance t size occ).core.sv = t.core.sv := rfl
@[simp] theorem advance_status (t : Tile) (size occ : Nat) : (advance t size occ).core.status = t.core.status := rfl
@[simp] theorem advance_fcsr (t : Tile) (size occ : Nat) : (advance t size occ).core.fcsr = t.core.fcsr := rfl
@[simp] theorem advance_slot (t : Tile) (size occ : Nat) : (advance t size occ).core.slot = t.core.slot + occ := rfl
@[simp] theorem advance_spad (t : Tile) (size occ : Nat) : (advance t size occ).spad = t.spad := rfl
@[simp] theorem advance_lvu (t : Tile) (size occ : Nat) : (advance t size occ).lvu = t.lvu := rfl
@[simp] theorem advance_me (t : Tile) (size occ : Nat) : (advance t size occ).me = t.me := rfl
@[simp] theorem getG_advance (t : Tile) (size occ r : Nat) : getG (advance t size occ) r = getG t r := rfl
@[simp] theorem getP_advance (t : Tile) (size occ r : Nat) : getP (advance t size occ) r = getP t r := rfl

@[simp] theorem takeBranch_pc (t : Tile) (a : Word) : (takeBranch t a).core.pc = a := rfl
@[simp] theorem getG_takeBranch (t : Tile) (a : Word) (r : Nat) : getG (takeBranch t a) r = getG t r := rfl

/-- What taking an exception leaves alone: the general registers, predicates, accumulators, memories. -/
theorem enterException_frame (t : Tile) (code sub : Nat) (bad : Word) :
    (∀ r, getG (enterException t code sub bad) r = getG t r) ∧ (enterException t code sub bad).core.p = t.core.p ∧
    (enterException t code sub bad).core.sv = t.core.sv ∧ (enterException t code sub bad).spad = t.spad ∧
    (enterException t code sub bad).lvu = t.lvu ∧ (enterException t code sub bad).me = t.me :=
  ⟨fun _ => rfl, rfl, rfl, rfl, rfl, rfl⟩

/-- Where nothing is pending and due, a tile is found as it stands. -/
theorem landDue_idle (t : Tile) (h1 : t.core.loads = []) (h2 : t.core.prod = none) : landDue t = t := by
  obtain ⟨core⟩ := t
  obtain ⟨⟩ := core
  simp only at h1 h2
  subst h1 h2
  rfl

/-- Loads that land write general registers only. -/
theorem landLoads_eq (l : List PendLoad) (n : Nat) (t : Tile) :
    landLoads l n t = { t with core := { t.core with g := (landLoads l n t).core.g }, dig := (landLoads l n t).dig } := by
  induction l generalizing t with
  | nil => rfl
  | cons e r ih =>
    unfold landLoads
    split
    · rw [ih, setG_eq]
    · exact ih t

theorem landDue_core (t : Tile) : (landDue t).core =
    { t.core with g := (landLoads t.core.loads t.core.slot t).core.g
                  loads := t.core.loads.filter (fun l => decide (t.core.slot < l.due))
                  plo := (landDue t).core.plo, phi := (landDue t).core.phi, prod := (landDue t).core.prod } := by
  unfold landDue landProd
  dsimp only
  split
  · rw [landLoads_eq]
  · split <;> rw [landLoads_eq]

/-- A product in flight that is due lands; one that is not stays. -/
theorem landDue_prod (t : Tile) (p : PendProd) (h : t.core.prod = some p) :
    (landDue t).core.prod = (if p.due ≤ t.core.slot then none else some p) ∧
    (landDue t).core.plo = (if p.due ≤ t.core.slot then p.plo else t.core.plo) ∧
    (landDue t).core.phi = (if p.due ≤ t.core.slot then p.phi else t.core.phi) := by
  have e : (landLoads t.core.loads t.core.slot t).core.prod = some p := by rw [landLoads_eq]; exact h
  have e2 : (landLoads t.core.loads t.core.slot t).core.plo = t.core.plo := by rw [landLoads_eq]
  have e3 : (landLoads t.core.loads t.core.slot t).core.phi = t.core.phi := by rw [landLoads_eq]
  unfold landDue landProd
  simp only [e]
  split <;> simp [e2, e3]

@[simp] theorem landDue_pc (t : Tile) : (landDue t).core.pc = t.core.pc := by rw [landDue_core]
@[simp] theorem landDue_slot (t : Tile) : (landDue t).core.slot = t.core.slot := by rw [landDue_core]
@[simp] theorem landDue_p (t : Tile) : (landDue t).core.p = t.core.p := by rw [landDue_core]
@[simp] theorem landDue_status (t : Tile) : (landDue t).core.status = t.core.status := by rw [landDue_core]
@[simp] theorem landDue_run (t : Tile) : (landDue t).core.run = t.core.run := by rw [landDue_core]
@[simp] theorem landDue_sb (t : Tile) : (landDue t).core.sb = t.core.sb := by rw [landDue_core]

/-- A tile that holds something is not the tile no command has touched. -/
theorem ne_reset_of_run {t : Tile} (h : t.core.run = true) : t ≠ Tile.reset := by
  intro e
  rw [e] at h
  cases h

/-- Putting a tile twice is putting the second one. -/
theorem setTile_setTile (s : Dev) (t : Nat) {x : Tile} (y : Tile) (h : x ≠ Tile.reset) :
    setTile (setTile s t x) t y = setTile s t y := by
  have e : mset Tile.reset (minsert t x s.tiles) t y = mset Tile.reset s.tiles t y := by
    unfold mset
    split
    · exact merase_minsert _ _ _
    · exact minsert_minsert _ _ _ _
  have e0 : mset Tile.reset s.tiles t x = minsert t x s.tiles := if_neg h
  unfold setTile
  dsimp only
  rw [e0, e]

/-- The tile an instruction finds runs, so it is not the untouched tile. -/
theorem tileIn_ne_reset {s : State} {t : TileId} {gu : Guard} {size : Nat} (h : Issues s t gu size) : tileIn s t ≠ Tile.reset :=
  ne_reset_of_run (by unfold tileIn; rw [landDue_run]; exact h.2.2.2.2)

/-! ### The step -/

/-- The command at the front runs on the state with the queue's rest. -/
theorem step_front (s : State) (c : Instr) (r : List Instr) (h : s.pending = c :: r) :
    step s = exec c { s with pending := r } := by
  simp [step, h]

theorem onDev_eq (s : State) (f : Dev → Dev) : onDev s f = .next (withDev s (f s.dev)) := rfl

end Sys2Proof.Machine
end

