-- ==== Sys2Proof/Laws/Memory.lean ====
section
/-! SUPPORT. Every operation over the memories (instruction store, scratchpad, stacked memory, poison marks) keeps the
canonical form, and what it leaves alone. -/

namespace Sys2Proof.Machine
open Sys2Proof

/-- The memories of a tile are in canonical form. -/
def TileMemWf (x : Tile) : Prop :=
  mwf 0 x.istore = true ∧ mwf false x.istPoison = true ∧ mwf 0 x.spad = true ∧ mwf false x.dr.poison = true

/-- The stacked memory is in canonical form. -/
def StackWf (s : Dev) : Prop := mwf 0 s.stack = true ∧ mwf false s.stackPoison = true

theorem tileMemWf_iff (x : Tile) : tileMemWf x = true ↔ TileMemWf x := by
  simp [tileMemWf, TileMemWf, and_assoc]

theorem tile_reset_wf : TileMemWf Tile.reset := ⟨rfl, rfl, rfl, rfl⟩
theorem stack_reset_wf : StackWf Dev.reset := ⟨rfl, rfl⟩

theorem foldl_mset_wf {α β : Type} [DecidableEq α] {d : α} (l : List β) (k : β → Nat) (v : β → α) {m : SMap α}
    (h : mwf d m = true) : mwf d (l.foldl (fun p b => mset d p (k b) (v b)) m) = true := by
  induction l generalizing m with
  | nil => exact h
  | cons b r ih => exact ih (mset_wf _ _ h)

/-! ### The scratchpad -/

theorem spadPut_wf {x : Tile} (off : Nat) (bs : List Byte) (h : TileMemWf x) : TileMemWf (spadPut x off bs) := by
  unfold spadPut
  by_cases hn : bs.length = 0
  · simp only [hn, if_true]
    exact h
  · simp only [hn, if_false]
    exact ⟨h.1, h.2.1, mwrite_wf _ _ h.2.2.1, foldl_mset_wf _ (fun w => w) (fun _ => false) h.2.2.2⟩

theorem spadPoison_wf {x : Tile} (w : Nat) (h : TileMemWf x) : TileMemWf (spadPoison x w) :=
  ⟨h.1, h.2.1, h.2.2.1, mset_wf w true h.2.2.2⟩

theorem foldl_tile_wf {β : Type} (l : List β) (f : Tile → β → Tile) (hf : ∀ y b, TileMemWf y → TileMemWf (f y b)) {x : Tile}
    (h : TileMemWf x) : TileMemWf (l.foldl f x) := by
  induction l generalizing x with
  | nil => exact h
  | cons b r ih => exact ih (hf _ _ h)

theorem spadPutPoison_wf {x : Tile} (off : Nat) (bs : List Byte) (h : TileMemWf x) : TileMemWf (spadPutPoison x off bs) :=
  foldl_tile_wf _ _ (fun _ w hy => spadPoison_wf w hy) (spadPut_wf off bs h)

theorem putMarked_wf {x : Tile} (o : Nat) (bs : List Byte) (ps : List Bool) (h : TileMemWf x) :
    TileMemWf (putMarked x o bs ps) := by
  refine foldl_tile_wf _ _ (fun y b hy => ?_) (spadPut_wf o bs h)
  split
  · exact spadPoison_wf _ hy
  · exact hy

theorem zeroDrawer_wf {x : Tile} (d : Nat) (h : TileMemWf x) : TileMemWf (zeroDrawer x d) :=
  ⟨h.1, h.2.1, mclear_wf _ _ h.2.2.1, mclear_wf _ _ h.2.2.2⟩

theorem dirtyTile_wf {x : Tile} (h : TileMemWf x) : TileMemWf (dirtyTile x) := ⟨h.1, h.2.1, h.2.2.1, rfl⟩

/-- The bytes written read back. -/
theorem spadGet_spadPut (x : Tile) (off : Nat) (bs : List Byte) : spadGet (spadPut x off bs) off bs.length = bs := by
  unfold spadPut spadGet
  by_cases h : bs.length = 0
  · rw [List.length_eq_zero_iff.mp h]
    rfl
  · simp only [h, if_false]
    exact mbytes_mwrite _ _ _ _

/-- Every byte outside those written is as before. -/
theorem spadPut_other (x : Tile) (off : Nat) (bs : List Byte) {a : Nat} (h : a < off ∨ off + bs.length ≤ a) :
    mget 0 (spadPut x off bs).spad a = mget 0 x.spad a := by
  unfold spadPut
  by_cases hn : bs.length = 0
  · simp only [hn, if_true]
  · simp only [hn, if_false]
    rw [mget_mwrite, dif_neg (by omega)]

/-- A drawer that has been zeroed reads zero; the others are as before. -/
theorem zeroDrawer_spad (x : Tile) (d a : Nat) :
    mget 0 (zeroDrawer x d).spad a = if d * 0x80000 ≤ a ∧ a < d * 0x80000 + 0x80000 then 0 else mget 0 x.spad a :=
  mget_mclear _ _ _ _ _

/-! ### The instruction store -/

theorem istWrite_wf {x : Tile} (a n v : Nat) (h : TileMemWf x) : TileMemWf (istWrite x a n v) := by
  refine ⟨mwrite_wf _ _ h.1, ?_, h.2.2⟩
  unfold istWrite
  by_cases hn : n = 8
  · simp only [hn, if_true]
    exact mset_wf _ _ h.2.1
  · simp only [hn, if_false]
    exact h.2.1

/-! ### The stacked memory -/

theorem stackPutByte_wf {s : Dev} (a : Nat) (b : Byte) (h : StackWf s) : StackWf (stackPutByte s a b) := by
  unfold stackPutByte
  split
  · split
    · exact h
    · exact ⟨mset_wf _ _ h.1, h.2⟩
  · exact h

theorem stackMark_wf {s : Dev} (us : List Nat) (v : Bool) (h : StackWf s) : StackWf (stackMark s us v) := by
  refine ⟨h.1, ?_⟩
  unfold stackMark
  have : ∀ m : SMap Bool, mwf false m = true → mwf false (us.foldl (fun m u => match stackAt s (64 * u) with
      | some k => mset false m (k / 64) v
      | none => m) m) = true := by
    induction us with
    | nil => exact fun m hm => hm
    | cons u r ih =>
      intro m hm
      apply ih
      dsimp only
      split
      · exact mset_wf _ _ hm
      · exact hm
  exact this _ h.2

theorem stackPut_wf {s : Dev} (a : Nat) (bs : List Byte) (h : StackWf s) : StackWf (stackPut s a bs) := by
  apply stackMark_wf
  have : ∀ p : Dev × Nat, StackWf p.1 →
      StackWf (bs.foldl (fun (p : Dev × Nat) b => (stackPutByte p.1 p.2 b, p.2 + 1)) p).1 := by
    induction bs with
    | nil => exact fun p hp => hp
    | cons b r ih => exact fun p hp => ih _ (stackPutByte_wf _ _ hp)
  exact this (s, a) h

theorem zeroStack_wf {s : Dev} (k : Nat) (h : StackWf s) : StackWf (zeroStack s k) :=
  ⟨mclear_wf _ _ h.1, mclear_wf _ _ h.2⟩

theorem zeroRange_wf {s : Dev} (k a n : Nat) (h : StackWf s) : StackWf (zeroRange s k a n) :=
  ⟨filter_wf _ h.1, filter_wf _ h.2⟩

theorem funcOff_wf {s : Dev} (f : Nat) (h : StackWf s) : StackWf (funcOff s f) := by
  unfold funcOff
  split
  · exact h
  · split
    · exact ⟨mclear_wf _ _ h.1, mclear_wf _ _ h.2⟩
    · exact h

/-- The place of a byte of stacked memory does not depend on what stands there. -/
theorem stackAt_put (s : Dev) (m : SMap Byte) (a : Nat) : stackAt { s with stack := m } a = stackAt s a := rfl

theorem stackPutByte_at (s : Dev) (a b : Nat) (v : Byte) : stackAt (stackPutByte s a v) b = stackAt s b := by
  unfold stackPutByte
  split
  · split <;> rfl
  · rfl

/-- A byte of stacked memory after a write of one byte. -/
theorem stackPutByte_stack (s : Dev) (a k : Nat) (v : Byte) :
    mget 0 (stackPutByte s a v).stack k =
      if stackAt s a = some k ∧ pcOut s (k / 2 ^ 31) = false then v else mget 0 s.stack k := by
  unfold stackPutByte
  split
  · rename_i k' hk
    by_cases ho : pcOut s (k' / 2 ^ 31) = true
    · simp only [ho, if_true, hk]
      split
      · rename_i h
        obtain ⟨h1, h2⟩ := h
        cases h1
        rw [ho] at h2
        cases h2
      · rfl
    · rw [Bool.not_eq_true] at ho
      simp only [ho, hk, mget_mset, Bool.false_eq_true, if_false]
      by_cases hkk : k = k'
      · subst hkk
        simp only [ho, and_self, if_true]
      · simp [hkk, Ne.symm hkk]
  · rename_i hk
    simp [hk]

end Sys2Proof.Machine
end

