-- ==== Sys2Proof/Laws/Access.lean ====
section
/-! SUPPORT. What the checks of an access say of a tile's own scratchpad in monitor mode. -/

namespace Sys2Proof.Machine
open Sys2Proof

theorem ownAddr_toNat (t : TileId) {off : Nat} (h : off < 0x400000) :
    (ownAddr t off).toNat = 0x4000000000 + 0x400000 * t.val + off := by
  have := t.isLt
  unfold ownAddr
  rw [BitVec.toNat_ofNat, Nat.mod_eq_of_lt (by omega)]

theorem devDecode_own (t : TileId) {off : Nat} (h : off < 0x300000) :
    devDecode (0x4000000000 + 0x400000 * t.val + off) = some (.scratch t off) := by
  have := t.isLt
  have e : 0x4000000000 + 0x400000 * t.val + off - 0x4000000000 = 0x400000 * t.val + off := by omega
  have e1 : (0x400000 * t.val + off) % 0x400000 = off := by omega
  have e2 : (0x400000 * t.val + off) / 0x400000 = t.val := by omega
  unfold devDecode
  rw [if_neg (by omega), if_pos (by omega)]
  simp only [e, e1, e2, populated, h, decide_true, if_true]

/-- An access in monitor mode to the own scratchpad, whole in one piece, to a drawer the scalar port owns that is not being
zeroed, passes its checks and leaves the state as it is. -/
theorem checkParts_own (s : Dev) (t : TileId) (x : Tile) (wr : Bool) (v : Nat) {off n : Nat} (hu : isUser x = false)
    (hm : x.member ≠ 0) (hb : drawerBusy x off = false) (hp : bit (drawerOwn x (drawerOf off)) 0 = true)
    (hn : 0 < n) (h2 : off + n ≤ 0x300000) :
    checkParts (setTile s t x) t wr v [((ownAddr t off).toNat, n)] =
      .ok (setTile s t x) [(.scratch t off, (ownAddr t off).toNat, n)] := by
  have ha := ownAddr_toNat t (off := off) (by omega)
  have hd := devDecode_own t (off := off) (by omega)
  have hpop : populated (off + n - 1) = true := by unfold populated; simp; omega
  have hmon : monitorTarget (setTile s t x) t (ownAddr t off).toNat n wr = some (.scratch t off) := by
    unfold monitorTarget
    rw [ha, hd]
    simp [samePart, hm, hpop]
  have ht : coreTarget (setTile s t x) t wr (ownAddr t off).toNat n = (setTile s t x, .ok (.scratch t off)) := by
    unfold coreTarget
    simp only [tileOf_setTile_same, hu, Bool.false_eq_true, if_false, hmon]
  have hl : targetsOf (setTile s t x) t wr [((ownAddr t off).toNat, n)] =
      (setTile s t x, [((ownAddr t off).toNat, n, .ok (.scratch t off))]) := by
    simp [targetsOf, ht]
  have hs : drawerSays (setTile s t x) t wr (.scratch t off) = 0 := by
    simp [drawerSays, hb, portMay, hu, hp]
  unfold checkParts
  rw [hl]
  simp [firstPiece, notScratch, isScratch, widthFault, hs]

theorem splitAccess_one {va n : Nat} (h : va % 8 + n ≤ 8) : splitAccess va n = [(va, n)] := by
  unfold splitAccess
  rw [if_pos h]

theorem ownAddr_mod8 (t : TileId) {off : Nat} (h : off < 0x400000) : (ownAddr t off).toNat % 8 = off % 8 := by
  rw [ownAddr_toNat t h]
  omega

/-- No buffered store overlaps: nothing is forwarded. -/
theorem youngest_none {x : Tile} {t off n : Nat} (h : x.core.sb.any (sbOverlaps t off n) = false) : youngest x t off n = none := by
  unfold youngest
  rw [List.find?_eq_none]
  intro e he
  have := List.any_eq_false.mp h e (List.mem_reverse.mp he)
  simpa using this

/-- A read with nothing injected changes nothing. -/
theorem spadTouch_none {s : Dev} {t off : Nat} (h : (tileOf s t).inject = []) : spadTouch s t off = s := by
  unfold spadTouch
  simp [h]

theorem foldStore_eq (x : Tile) (m a : Nat) (v : Word) : foldStore x m a v = { x with dig := (foldStore x m a v).dig } := by
  unfold foldStore
  split <;> rfl

theorem foldPieces_eq (v : Nat) (l : List (Target × Nat × Nat)) (x : Tile) :
    foldPieces v x l = { x with dig := (foldPieces v x l).dig } := by
  induction l generalizing v x with
  | nil => rfl
  | cons p r ih => rw [foldPieces, ih, foldStore_eq]

end Sys2Proof.Machine
end

