-- ==== Sys2Proof/Laws/Dispatch.lean ====
section
/-! SUPPORT. The dispatch, one lemma per command: a command meets its meaning. -/

namespace Sys2Proof.Machine
open Sys2Proof

variable (s : State)

@[simp] theorem exec_registerWrite (agent : RegAgent) (tcb : Option TileId) (off : BitVec 24) (four : Bool) (v : BitVec 64) :
    exec (.registerWrite agent tcb off four v) s = execRegisterWrite agent tcb off four v s := rfl
@[simp] theorem exec_rcRead (agent : RegAgent) (tcb : Option TileId) (off : BitVec 24) (four : Bool) :
    exec (.rcRead agent tcb off four) s = execRcRead agent tcb off four s := rfl
@[simp] theorem exec_registerAccessInReset (agent : RegAgent) (tcb : Option TileId) (off : BitVec 24) (four : Bool) (wr : Option (BitVec 64)) :
    exec (.registerAccessInReset agent tcb off four wr) s = execRegisterAccessInReset agent tcb off four wr s := rfl
@[simp] theorem exec_tileFailure (phys : Fin 288) :
    exec (.tileFailure phys) s = execTileFailure phys s := rfl
@[simp] theorem exec_spareSelfTestDone (col : Fin 32) (pass : Bool) :
    exec (.spareSelfTestDone col pass) s = execSpareSelfTestDone col pass s := rfl
@[simp] theorem exec_fieldEntryCommit :
    exec (.fieldEntryCommit) s = execFieldEntryCommit s := rfl
@[simp] theorem exec_meshLinkOut (unit : Fin 356) (axis bridge : Bool) :
    exec (.meshLinkOut unit axis bridge) s = execMeshLinkOut unit axis bridge s := rfl
@[simp] theorem exec_flitReplay (phys : Fin 288) :
    exec (.flitReplay phys) s = execFlitReplay phys s := rfl
@[simp] theorem exec_routerFailure (phys : Fin 288) :
    exec (.routerFailure phys) s = execRouterFailure phys s := rfl
@[simp] theorem exec_pllLockLost (pll : Fin 31) :
    exec (.pllLockLost pll) s = execPllLockLost pll s := rfl
@[simp] theorem exec_dvfsStep (leaf : Fin 2) :
    exec (.dvfsStep leaf) s = execDvfsStep leaf s := rfl
@[simp] theorem exec_dvfsStepDone (leaf : Fin 2) :
    exec (.dvfsStepDone leaf) s = execDvfsStepDone leaf s := rfl
@[simp] theorem exec_fastLoopTick (p : Fin 0x8000000) (vin iin : BitVec 16) :
    exec (.fastLoopTick p vin iin) s = execFastLoopTick p vin iin s := rfl
@[simp] theorem exec_epochBoundary :
    exec (.epochBoundary) s = execEpochBoundary s := rfl
@[simp] theorem exec_epochMessage (term : BitVec 32) (epoch : BitVec 64) (cords : Fin 16) (slew : BitVec 16) (start stopOk resume shedClear : Bool) :
    exec (.epochMessage term epoch cords slew start stopOk resume shedClear) s = execEpochMessage term epoch cords slew start stopOk resume shedClear s := rfl
@[simp] theorem exec_slowLoop :
    exec (.slowLoop) s = execSlowLoop s := rfl
@[simp] theorem exec_silentEntry :
    exec (.silentEntry) s = execSilentEntry s := rfl
@[simp] theorem exec_shedOrder (term ident : BitVec 32) (target slope : BitVec 16) :
    exec (.shedOrder term ident target slope) s = execShedOrder term ident target slope s := rfl
@[simp] theorem exec_droopGuard :
    exec (.droopGuard) s = execDroopGuard s := rfl
@[simp] theorem exec_droopGuardRelease :
    exec (.droopGuardRelease) s = execDroopGuardRelease s := rfl
@[simp] theorem exec_kindlingQuantum (t : TileId) (engine : Fin 2) :
    exec (.kindlingQuantum t engine) s = execKindlingQuantum t engine s := rfl
@[simp] theorem exec_kindlingQuantumEnd (t : TileId) (engine : Fin 2) (sig : BitVec 64) :
    exec (.kindlingQuantumEnd t engine sig) s = execKindlingQuantumEnd t engine sig s := rfl
@[simp] theorem exec_bankSmoulder (slope : BitVec 16) :
    exec (.bankSmoulder slope) s = execBankSmoulder slope s := rfl
@[simp] theorem exec_bankCold (slope : BitVec 16) :
    exec (.bankCold slope) s = execBankCold slope s := rfl
@[simp] theorem exec_bankCancel :
    exec (.bankCancel) s = execBankCancel s := rfl
@[simp] theorem exec_bankColdDrained :
    exec (.bankColdDrained) s = execBankColdDrained s := rfl
@[simp] theorem exec_thermalCap (leaf : Fin 2) (temp : Fin 1024) :
    exec (.thermalCap leaf temp) s = execThermalCap leaf temp s := rfl
@[simp] theorem exec_thermalTrip :
    exec (.thermalTrip) s = execThermalTrip s := rfl
@[simp] theorem exec_inputExcursionStart (vin : BitVec 16) :
    exec (.inputExcursionStart vin) s = execInputExcursionStart vin s := rfl
@[simp] theorem exec_inputExcursionEnd (vin : BitVec 16) :
    exec (.inputExcursionEnd vin) s = execInputExcursionEnd vin s := rfl
@[simp] theorem exec_inputFault (high : Bool) (vin : BitVec 16) :
    exec (.inputFault high vin) s = execInputFault high vin s := rfl
@[simp] theorem exec_inputDebounceDone :
    exec (.inputDebounceDone) s = execInputDebounceDone s := rfl
@[simp] theorem exec_inrushNodeUp :
    exec (.inrushNodeUp) s = execInrushNodeUp s := rfl
@[simp] theorem exec_ibGood :
    exec .ibGood s = execIbGood s := rfl
@[simp] theorem exec_inrushWindowFault :
    exec (.inrushWindowFault) s = execInrushWindowFault s := rfl
@[simp] theorem exec_vmgmtGood :
    exec .vmgmtGood s = execVmgmtGood s := rfl
@[simp] theorem exec_railGood (rail : Fin 11) (reading : BitVec 16 × BitVec 16) :
    exec (.railGood rail reading) s = execRailGood rail reading s := rfl
@[simp] theorem exec_nextRailEnable :
    exec (.nextRailEnable) s = execNextRailEnable s := rfl
@[simp] theorem exec_railDown (rail : Fin 11) :
    exec (.railDown rail) s = execRailDown rail s := rfl
@[simp] theorem exec_dischargeWindowEnd (rail : Fin 11) (ilim : Bool) (mv da : BitVec 16) :
    exec (.dischargeWindowEnd rail ilim mv da) s = execDischargeWindowEnd rail ilim mv da s := rfl
@[simp] theorem exec_pllLockDone :
    exec (.pllLockDone) s = execPllLockDone s := rfl
@[simp] theorem exec_qclamp (stack : Option (Fin 6)) (mv da : BitVec 16) :
    exec (.qclamp stack mv da) s = execQclamp stack mv da s := rfl
@[simp] theorem exec_softStartFault (rail : Fin 11) (kind : Fin 3) (mv da : BitVec 16) :
    exec (.softStartFault rail kind mv da) s = execSoftStartFault rail kind mv da s := rfl
@[simp] theorem exec_retryBackoffEnd :
    exec (.retryBackoffEnd) s = execRetryBackoffEnd s := rfl
@[simp] theorem exec_pwrClearLatch :
    exec (.pwrClearLatch) s = execPwrClearLatch s := rfl
@[simp] theorem exec_inputReturn (back : BitVec 16 × Bool) :
    exec (.inputReturn back) s = execInputReturn back s := rfl
@[simp] theorem exec_offTimeEnd :
    exec (.offTimeEnd) s = execOffTimeEnd s := rfl
@[simp] theorem exec_railFault (rail : Fin 11) (mv da : BitVec 16) :
    exec (.railFault rail mv da) s = execRailFault rail mv da s := rfl
@[simp] theorem exec_mgmtSupplyLost :
    exec .mgmtSupplyLost s = execMgmtSupplyLost s := rfl
@[simp] theorem exec_pwrEnLow :
    exec (.pwrEnLow) s = execPwrEnLow s := rfl
@[simp] theorem exec_funcPowerUp (f : Fin 24) :
    exec (.funcPowerUp f) s = execFuncPowerUp f s := rfl
@[simp] theorem exec_funcPowerDown (f : Fin 24) :
    exec (.funcPowerDown f) s = execFuncPowerDown f s := rfl
@[simp] theorem exec_funcTransitionDone (f : Fin 24) (fail : Option (BitVec 16 × BitVec 16)) :
    exec (.funcTransitionDone f fail) s = execFuncTransitionDone f fail s := rfl
@[simp] theorem exec_alwaysOnLogCommit :
    exec (.alwaysOnLogCommit) s = execAlwaysOnLogCommit s := rfl
@[simp] theorem exec_prefetchFetch (t : TileId) (ecc : Fin 3) :
    exec (.prefetchFetch t ecc) s = execPrefetchFetch t ecc s := rfl
@[simp] theorem exec_alu (t : TileId) (gu : Guard) (rd ra rb : RegNo) (fn : Fin 64) :
    exec (.alu t gu rd ra rb fn) s = execAlu t gu rd ra rb fn s := rfl
@[simp] theorem exec_addi (t : TileId) (gu : Guard) (rd ra : RegNo) (imm : BitVec 11) :
    exec (.addi t gu rd ra imm) s = execAddi t gu rd ra imm s := rfl
@[simp] theorem exec_andi (t : TileId) (gu : Guard) (rd ra : RegNo) (imm : BitVec 11) :
    exec (.andi t gu rd ra imm) s = execAndi t gu rd ra imm s := rfl
@[simp] theorem exec_ori (t : TileId) (gu : Guard) (rd ra : RegNo) (imm : BitVec 11) :
    exec (.ori t gu rd ra imm) s = execOri t gu rd ra imm s := rfl
@[simp] theorem exec_xori (t : TileId) (gu : Guard) (rd ra : RegNo) (imm : BitVec 11) :
    exec (.xori t gu rd ra imm) s = execXori t gu rd ra imm s := rfl
@[simp] theorem exec_shifti (t : TileId) (gu : Guard) (rd ra : RegNo) (kind : Fin 4) (w : Bool) (shamt : Fin 64) :
    exec (.shifti t gu rd ra kind w shamt) s = execShifti t gu rd ra kind w shamt s := rfl
@[simp] theorem exec_mul (t : TileId) (gu : Guard) (ra rb : RegNo) :
    exec (.mul t gu ra rb) s = execMul t gu ra rb s := rfl
@[simp] theorem exec_mulh (t : TileId) (gu : Guard) (ra rb : RegNo) :
    exec (.mulh t gu ra rb) s = execMulh t gu ra rb s := rfl
@[simp] theorem exec_div (t : TileId) (gu : Guard) (ra rb : RegNo) :
    exec (.div t gu ra rb) s = execDiv t gu ra rb s := rfl
@[simp] theorem exec_divu (t : TileId) (gu : Guard) (ra rb : RegNo) :
    exec (.divu t gu ra rb) s = execDivu t gu ra rb s := rfl
@[simp] theorem exec_divW (t : TileId) (gu : Guard) (ra rb : RegNo) :
    exec (.divW t gu ra rb) s = execDivW t gu ra rb s := rfl
@[simp] theorem exec_divuW (t : TileId) (gu : Guard) (ra rb : RegNo) :
    exec (.divuW t gu ra rb) s = execDivuW t gu ra rb s := rfl
@[simp] theorem exec_productLands (t : TileId) :
    exec (.productLands t) s = execProductLands t s := rfl
@[simp] theorem exec_li (t : TileId) (gu : Guard) (rd : RegNo) (imm : BitVec 32) :
    exec (.li t gu rd imm) s = execLi t gu rd imm s := rfl
@[simp] theorem exec_lih (t : TileId) (gu : Guard) (rd : RegNo) (imm : BitVec 32) :
    exec (.lih t gu rd imm) s = execLih t gu rd imm s := rfl
@[simp] theorem exec_longAlu (t : TileId) (gu : Guard) (op : Fin 4) (rd ra : RegNo) (imm : BitVec 32) :
    exec (.longAlu t gu op rd ra imm) s = execLongAlu t gu op rd ra imm s := rfl
@[simp] theorem exec_longLoad (t : TileId) (gu : Guard) (op : Fin 7) (rd ra : RegNo) (imm : BitVec 32) :
    exec (.longLoad t gu op rd ra imm) s = execLongLoad t gu op rd ra imm s := rfl
@[simp] theorem exec_longStore (t : TileId) (gu : Guard) (op : Fin 4) (rs ra : RegNo) (imm : BitVec 32) :
    exec (.longStore t gu op rs ra imm) s = execLongStore t gu op rs ra imm s := rfl
@[simp] theorem exec_cmp (t : TileId) (gu : Guard) (pd : PredNo) (ra rb : RegNo) (cc : Fin 16) :
    exec (.cmp t gu pd ra rb cc) s = execCmp t gu pd ra rb cc s := rfl
@[simp] theorem exec_cmpi (t : TileId) (gu : Guard) (pd : PredNo) (ra : RegNo) (cc : Fin 16) (imm : BitVec 8) :
    exec (.cmpi t gu pd ra cc imm) s = execCmpi t gu pd ra cc imm s := rfl
@[simp] theorem exec_plogic (t : TileId) (gu : Guard) (pd pa pb : PredNo) (fn : Fin 8) :
    exec (.plogic t gu pd pa pb fn) s = execPlogic t gu pd pa pb fn s := rfl
@[simp] theorem exec_load (t : TileId) (gu : Guard) (op : Fin 7) (rd ra : RegNo) (imm : BitVec 11) :
    exec (.load t gu op rd ra imm) s = execLoad t gu op rd ra imm s := rfl
@[simp] theorem exec_store (t : TileId) (gu : Guard) (op : Fin 4) (rs ra : RegNo) (imm : BitVec 11) :
    exec (.store t gu op rs ra imm) s = execStore t gu op rs ra imm s := rfl
@[simp] theorem exec_loadDataReturn (t : TileId) (ext : LoadAns) :
    exec (.loadDataReturn t ext) s = execLoadDataReturn t ext s := rfl
@[simp] theorem exec_loadLands (t : TileId) :
    exec (.loadLands t) s = execLoadLands t s := rfl
@[simp] theorem exec_storeBufferDrain (t : TileId) :
    exec (.storeBufferDrain t) s = execStoreBufferDrain t s := rfl
@[simp] theorem exec_br (t : TileId) (gu : Guard) (disp : BitVec 21) :
    exec (.br t gu disp) s = execBr t gu disp s := rfl
@[simp] theorem exec_call (t : TileId) (gu : Guard) (disp : BitVec 21) :
    exec (.call t gu disp) s = execCall t gu disp s := rfl
@[simp] theorem exec_jump (t : TileId) (gu : Guard) (rd ra : RegNo) :
    exec (.jump t gu rd ra) s = execJump t gu rd ra s := rfl
@[simp] theorem exec_nop (t : TileId) (gu : Guard) :
    exec (.nop t gu) s = execNop t gu s := rfl
@[simp] theorem exec_sys (t : TileId) (gu : Guard) :
    exec (.sys t gu) s = execSys t gu s := rfl
@[simp] theorem exec_brk (t : TileId) (gu : Guard) :
    exec (.brk t gu) s = execBrk t gu s := rfl
@[simp] theorem exec_eret (t : TileId) (gu : Guard) :
    exec (.eret t gu) s = execEret t gu s := rfl
@[simp] theorem exec_fence (t : TileId) (gu : Guard) :
    exec (.fence t gu) s = execFence t gu s := rfl
@[simp] theorem exec_isync (t : TileId) (gu : Guard) :
    exec (.isync t gu) s = execIsync t gu s := rfl
@[simp] theorem exec_mfc (t : TileId) (gu : Guard) (rd : RegNo) (idx : Fin 64) :
    exec (.mfc t gu rd idx) s = execMfc t gu rd idx s := rfl
@[simp] theorem exec_mtc (t : TileId) (gu : Guard) (idx : Fin 64) (ra : RegNo) :
    exec (.mtc t gu idx ra) s = execMtc t gu idx ra s := rfl
@[simp] theorem exec_mfpr (t : TileId) (gu : Guard) (rd : RegNo) :
    exec (.mfpr t gu rd) s = execMfpr t gu rd s := rfl
@[simp] theorem exec_mtpr (t : TileId) (gu : Guard) (ra : RegNo) :
    exec (.mtpr t gu ra) s = execMtpr t gu ra s := rfl
@[simp] theorem exec_fadd (t : TileId) (gu : Guard) (single : Bool) (rd ra rb : RegNo) :
    exec (.fadd t gu single rd ra rb) s = execFadd t gu single rd ra rb s := rfl
@[simp] theorem exec_fsub (t : TileId) (gu : Guard) (single : Bool) (rd ra rb : RegNo) :
    exec (.fsub t gu single rd ra rb) s = execFsub t gu single rd ra rb s := rfl
@[simp] theorem exec_fmul (t : TileId) (gu : Guard) (single : Bool) (rd ra rb : RegNo) :
    exec (.fmul t gu single rd ra rb) s = execFmul t gu single rd ra rb s := rfl
@[simp] theorem exec_fdiv (t : TileId) (gu : Guard) (single : Bool) (rd ra rb : RegNo) :
    exec (.fdiv t gu single rd ra rb) s = execFdiv t gu single rd ra rb s := rfl
@[simp] theorem exec_fsqrt (t : TileId) (gu : Guard) (single : Bool) (rd ra : RegNo) :
    exec (.fsqrt t gu single rd ra) s = execFsqrt t gu single rd ra s := rfl
@[simp] theorem exec_fmin (t : TileId) (gu : Guard) (single : Bool) (rd ra rb : RegNo) :
    exec (.fmin t gu single rd ra rb) s = execFmin t gu single rd ra rb s := rfl
@[simp] theorem exec_fmax (t : TileId) (gu : Guard) (single : Bool) (rd ra rb : RegNo) :
    exec (.fmax t gu single rd ra rb) s = execFmax t gu single rd ra rb s := rfl
@[simp] theorem exec_fabs (t : TileId) (gu : Guard) (single : Bool) (rd ra : RegNo) :
    exec (.fabs t gu single rd ra) s = execFabs t gu single rd ra s := rfl
@[simp] theorem exec_fneg (t : TileId) (gu : Guard) (single : Bool) (rd ra : RegNo) :
    exec (.fneg t gu single rd ra) s = execFneg t gu single rd ra s := rfl
@[simp] theorem exec_fcvt (t : TileId) (gu : Guard) (single : Bool) (rd ra : RegNo) :
    exec (.fcvt t gu single rd ra) s = execFcvt t gu single rd ra s := rfl
@[simp] theorem exec_fcvtL (t : TileId) (gu : Guard) (single : Bool) (rd ra : RegNo) :
    exec (.fcvtL t gu single rd ra) s = execFcvtL t gu single rd ra s := rfl
@[simp] theorem exec_fcvtFL (t : TileId) (gu : Guard) (single : Bool) (rd ra : RegNo) :
    exec (.fcvtFL t gu single rd ra) s = execFcvtFL t gu single rd ra s := rfl
@[simp] theorem exec_fcvtLu (t : TileId) (gu : Guard) (single : Bool) (rd ra : RegNo) :
    exec (.fcvtLu t gu single rd ra) s = execFcvtLu t gu single rd ra s := rfl
@[simp] theorem exec_fcvtFLu (t : TileId) (gu : Guard) (single : Bool) (rd ra : RegNo) :
    exec (.fcvtFLu t gu single rd ra) s = execFcvtFLu t gu single rd ra s := rfl
@[simp] theorem exec_fclass (t : TileId) (gu : Guard) (single : Bool) (rd ra : RegNo) :
    exec (.fclass t gu single rd ra) s = execFclass t gu single rd ra s := rfl
@[simp] theorem exec_fma (t : TileId) (gu : Guard) (single : Bool) (rd ra rb rc : RegNo) :
    exec (.fma t gu single rd ra rb rc) s = execFma t gu single rd ra rb rc s := rfl
@[simp] theorem exec_fcmp (t : TileId) (gu : Guard) (single : Bool) (pd : PredNo) (ra rb : RegNo) (cc : Fin 16) :
    exec (.fcmp t gu single pd ra rb cc) s = execFcmp t gu single pd ra rb cc s := rfl
@[simp] theorem exec_interruptEntry (t : TileId) :
    exec (.interruptEntry t) s = execInterruptEntry t s := rfl
@[simp] theorem exec_timerInterruptPending (t : TileId) :
    exec (.timerInterruptPending t) s = execTimerInterruptPending t s := rfl
@[simp] theorem exec_quiesceInterrupt (t : TileId) :
    exec (.quiesceInterrupt t) s = execQuiesceInterrupt t s := rfl
@[simp] theorem exec_tcbDoorbell (t : TileId) (msg : BitVec 32) :
    exec (.tcbDoorbell t msg) s = execTcbDoorbell t msg s := rfl
@[simp] theorem exec_coreHalt (t : TileId) :
    exec (.coreHalt t) s = execCoreHalt t s := rfl
@[simp] theorem exec_coreResume (t : TileId) :
    exec (.coreResume t) s = execCoreResume t s := rfl
@[simp] theorem exec_coreSreset (t : TileId) :
    exec (.coreSreset t) s = execCoreSreset t s := rfl
@[simp] theorem exec_cregDataWrite (t : TileId) (v : Word) :
    exec (.cregDataWrite t v) s = execCregDataWrite t v s := rfl
@[simp] theorem exec_istoreWinWrite (t : TileId) (off : Fin 4096) (size : Fin 9) (v : Word) :
    exec (.istoreWinWrite t off size v) s = execIstoreWinWrite t off size v s := rfl
@[simp] theorem exec_svld (t : TileId) (gu : Guard) (full : Bool) (v : PredNo) (ra : RegNo) (imm : BitVec 10) :
    exec (.svld t gu full v ra imm) s = execSvld t gu full v ra imm s := rfl
@[simp] theorem exec_svst (t : TileId) (gu : Guard) (full : Bool) (v : PredNo) (ra : RegNo) (imm : BitVec 10) :
    exec (.svst t gu full v ra imm) s = execSvst t gu full v ra imm s := rfl
@[simp] theorem exec_svInt (t : TileId) (gu : Guard) (full : Bool) (et : Fin 8) (fn : Fin 32) (vd va vb : PredNo) :
    exec (.svInt t gu full et fn vd va vb) s = execSvInt t gu full et fn vd va vb s := rfl
@[simp] theorem exec_svFp (t : TileId) (gu : Guard) (full : Bool) (et : Fin 8) (fn : Fin 32) (vd va vb : PredNo) :
    exec (.svFp t gu full et fn vd va vb) s = execSvFp t gu full et fn vd va vb s := rfl
@[simp] theorem exec_vperm (t : TileId) (gu : Guard) (full : Bool) (et : Fin 8) (vd va vb : PredNo) :
    exec (.vperm t gu full et vd va vb) s = execVperm t gu full et vd va vb s := rfl
@[simp] theorem exec_vzipl (t : TileId) (gu : Guard) (full : Bool) (et : Fin 8) (vd va vb : PredNo) :
    exec (.vzipl t gu full et vd va vb) s = execVzipl t gu full et vd va vb s := rfl
@[simp] theorem exec_vziph (t : TileId) (gu : Guard) (full : Bool) (et : Fin 8) (vd va vb : PredNo) :
    exec (.vziph t gu full et vd va vb) s = execVziph t gu full et vd va vb s := rfl
@[simp] theorem exec_svVbcast (t : TileId) (gu : Guard) (full : Bool) (et : Fin 8) (vd : PredNo) (ra : RegNo) (idx : Fin 64) :
    exec (.svVbcast t gu full et vd ra idx) s = execSvVbcast t gu full et vd ra idx s := rfl
@[simp] theorem exec_vins (t : TileId) (gu : Guard) (full : Bool) (et : Fin 8) (vd : PredNo) (ra : RegNo) (idx : Fin 64) :
    exec (.vins t gu full et vd ra idx) s = execVins t gu full et vd ra idx s := rfl
@[simp] theorem exec_vext (t : TileId) (gu : Guard) (full : Bool) (et : Fin 8) (rd : RegNo) (va : PredNo) (idx : Fin 64) :
    exec (.vext t gu full et rd va idx) s = execVext t gu full et rd va idx s := rfl
@[simp] theorem exec_vrsum (t : TileId) (gu : Guard) (full : Bool) (et : Fin 8) (rd : RegNo) (va : PredNo) (idx : Fin 64) :
    exec (.vrsum t gu full et rd va idx) s = execVrsum t gu full et rd va idx s := rfl
@[simp] theorem exec_vsad (t : TileId) (gu : Guard) (full : Bool) (lw : Bool) (ty : Fin 4) (vd va vb : PredNo) :
    exec (.vsad t gu full lw ty vd va vb) s = execVsad t gu full lw ty vd va vb s := rfl
@[simp] theorem exec_vsada (t : TileId) (gu : Guard) (full : Bool) (lw : Bool) (ty : Fin 4) (vd va vb : PredNo) :
    exec (.vsada t gu full lw ty vd va vb) s = execVsada t gu full lw ty vd va vb s := rfl
@[simp] theorem exec_setvl (t : TileId) (gu : Guard) (rd ra : RegNo) (sew : Fin 4) (alt : Bool) :
    exec (.setvl t gu rd ra sew alt) s = execSetvl t gu rd ra sew alt s := rfl
@[simp] theorem exec_lvStart (t : TileId) :
    exec (.lvStart t) s = execLvStart t s := rfl
@[simp] theorem exec_lvInteger (t : TileId) (gu : Guard) (fn : Fin 8) (vd va vb : RegNo) (vm : Fin 8) :
    exec (.lvInteger t gu fn vd va vb vm) s = execLvInteger t gu fn vd va vb vm s := rfl
@[simp] theorem exec_lvLogicShift (t : TileId) (gu : Guard) (fn : Fin 7) (vd va vb : RegNo) (vm : Fin 8) :
    exec (.lvLogicShift t gu fn vd va vb vm) s = execLvLogicShift t gu fn vd va vb vm s := rfl
@[simp] theorem exec_vcvt (t : TileId) (gu : Guard) (vd va : RegNo) (ty : Fin 8) (vm : Fin 8) :
    exec (.vcvt t gu vd va ty vm) s = execVcvt t gu vd va ty vm s := rfl
@[simp] theorem exec_vcvtI (t : TileId) (gu : Guard) (vd va : RegNo) (ty : Fin 8) (vm : Fin 8) :
    exec (.vcvtI t gu vd va ty vm) s = execVcvtI t gu vd va ty vm s := rfl
@[simp] theorem exec_lvFloat (t : TileId) (gu : Guard) (fn : Fin 8) (vd va vb : RegNo) (vm : Fin 8) :
    exec (.lvFloat t gu fn vd va vb vm) s = execLvFloat t gu fn vd va vb vm s := rfl
@[simp] theorem exec_lvCompare (t : TileId) (gu : Guard) (fn : Fin 8) (vd va vb : RegNo) (vm : Fin 8) :
    exec (.lvCompare t gu fn vd va vb vm) s = execLvCompare t gu fn vd va vb vm s := rfl
@[simp] theorem exec_vld (t : TileId) (gu : Guard) (vd ra : RegNo) (vm : Fin 8) :
    exec (.vld t gu vd ra vm) s = execVld t gu vd ra vm s := rfl
@[simp] theorem exec_vlds (t : TileId) (gu : Guard) (vd ra rb : RegNo) (vm : Fin 8) :
    exec (.vlds t gu vd ra rb vm) s = execVlds t gu vd ra rb vm s := rfl
@[simp] theorem exec_vldx (t : TileId) (gu : Guard) (vd ra rb : RegNo) (vm : Fin 8) :
    exec (.vldx t gu vd ra rb vm) s = execVldx t gu vd ra rb vm s := rfl
@[simp] theorem exec_vst (t : TileId) (gu : Guard) (vd ra : RegNo) (vm : Fin 8) :
    exec (.vst t gu vd ra vm) s = execVst t gu vd ra vm s := rfl
@[simp] theorem exec_vsts (t : TileId) (gu : Guard) (vd ra rb : RegNo) (vm : Fin 8) :
    exec (.vsts t gu vd ra rb vm) s = execVsts t gu vd ra rb vm s := rfl
@[simp] theorem exec_vstx (t : TileId) (gu : Guard) (vd ra rb : RegNo) (vm : Fin 8) :
    exec (.vstx t gu vd ra rb vm) s = execVstx t gu vd ra rb vm s := rfl
@[simp] theorem exec_vlm (t : TileId) (gu : Guard) (vd ra : RegNo) :
    exec (.vlm t gu vd ra) s = execVlm t gu vd ra s := rfl
@[simp] theorem exec_vsm (t : TileId) (gu : Guard) (vd ra : RegNo) :
    exec (.vsm t gu vd ra) s = execVsm t gu vd ra s := rfl
@[simp] theorem exec_lvVbcast (t : TileId) (gu : Guard) (vd ra : RegNo) (vm : Fin 8) :
    exec (.lvVbcast t gu vd ra vm) s = execLvVbcast t gu vd ra vm s := rfl
@[simp] theorem exec_vmv (t : TileId) (gu : Guard) (vd va : RegNo) (vm : Fin 8) :
    exec (.vmv t gu vd va vm) s = execVmv t gu vd va vm s := rfl
@[simp] theorem exec_vmfs (t : TileId) (gu : Guard) (rd va : RegNo) :
    exec (.vmfs t gu rd va) s = execVmfs t gu rd va s := rfl
@[simp] theorem exec_vmsf (t : TileId) (gu : Guard) (vd ra : RegNo) :
    exec (.vmsf t gu vd ra) s = execVmsf t gu vd ra s := rfl
@[simp] theorem exec_vfirst (t : TileId) (gu : Guard) (rd va : RegNo) (vm : Fin 8) :
    exec (.vfirst t gu rd va vm) s = execVfirst t gu rd va vm s := rfl
@[simp] theorem exec_vpopc (t : TileId) (gu : Guard) (rd va : RegNo) (vm : Fin 8) :
    exec (.vpopc t gu rd va vm) s = execVpopc t gu rd va vm s := rfl
@[simp] theorem exec_vcompress (t : TileId) (gu : Guard) (vd va vb : RegNo) :
    exec (.vcompress t gu vd va vb) s = execVcompress t gu vd va vb s := rfl
@[simp] theorem exec_vid (t : TileId) (gu : Guard) (vd : RegNo) (vm : Fin 8) :
    exec (.vid t gu vd vm) s = execVid t gu vd vm s := rfl
@[simp] theorem exec_vexp (t : TileId) (gu : Guard) (vd va : RegNo) (vm : Fin 8) :
    exec (.vexp t gu vd va vm) s = execVexp t gu vd va vm s := rfl
@[simp] theorem exec_vlog (t : TileId) (gu : Guard) (vd va : RegNo) (vm : Fin 8) :
    exec (.vlog t gu vd va vm) s = execVlog t gu vd va vm s := rfl
@[simp] theorem exec_vrcp (t : TileId) (gu : Guard) (vd va : RegNo) (vm : Fin 8) :
    exec (.vrcp t gu vd va vm) s = execVrcp t gu vd va vm s := rfl
@[simp] theorem exec_vrsqrt (t : TileId) (gu : Guard) (vd va : RegNo) (vm : Fin 8) :
    exec (.vrsqrt t gu vd va vm) s = execVrsqrt t gu vd va vm s := rfl
@[simp] theorem exec_vtanh (t : TileId) (gu : Guard) (vd va : RegNo) (vm : Fin 8) :
    exec (.vtanh t gu vd va vm) s = execVtanh t gu vd va vm s := rfl
@[simp] theorem exec_vmaxr (t : TileId) (gu : Guard) (vd va : RegNo) (vm : Fin 8) :
    exec (.vmaxr t gu vd va vm) s = execVmaxr t gu vd va vm s := rfl
@[simp] theorem exec_vsumr (t : TileId) (gu : Guard) (vd va : RegNo) (vm : Fin 8) :
    exec (.vsumr t gu vd va vm) s = execVsumr t gu vd va vm s := rfl
@[simp] theorem exec_vsoftmax (t : TileId) (gu : Guard) (vd va : RegNo) (vm : Fin 8) :
    exec (.vsoftmax t gu vd va vm) s = execVsoftmax t gu vd va vm s := rfl
@[simp] theorem exec_vsync (t : TileId) (gu : Guard) :
    exec (.vsync t gu) s = execVsync t gu s := rfl
@[simp] theorem exec_vmand (t : TileId) (gu : Guard) (vd va vb : RegNo) :
    exec (.vmand t gu vd va vb) s = execVmand t gu vd va vb s := rfl
@[simp] theorem exec_vmor (t : TileId) (gu : Guard) (vd va vb : RegNo) :
    exec (.vmor t gu vd va vb) s = execVmor t gu vd va vb s := rfl
@[simp] theorem exec_vmxor (t : TileId) (gu : Guard) (vd va vb : RegNo) :
    exec (.vmxor t gu vd va vb) s = execVmxor t gu vd va vb s := rfl
@[simp] theorem exec_vmandn (t : TileId) (gu : Guard) (vd va vb : RegNo) :
    exec (.vmandn t gu vd va vb) s = execVmandn t gu vd va vb s := rfl
@[simp] theorem exec_spload (t : TileId) (gu : Guard) (ra rb : RegNo) :
    exec (.spload t gu ra rb) s = execSpload t gu ra rb s := rfl
@[simp] theorem exec_spenter (t : TileId) (gu : Guard) (ra : RegNo) :
    exec (.spenter t gu ra) s = execSpenter t gu ra s := rfl
@[simp] theorem exec_spresume (t : TileId) (gu : Guard) :
    exec (.spresume t gu) s = execSpresume t gu s := rfl
@[simp] theorem exec_spexit (t : TileId) (gu : Guard) (rd : RegNo) :
    exec (.spexit t gu rd) s = execSpexit t gu rd s := rfl
@[simp] theorem exec_spstop (t : TileId) (gu : Guard) :
    exec (.spstop t gu) s = execSpstop t gu s := rfl
@[simp] theorem exec_tcbSpstop (t : TileId) :
    exec (.tcbSpstop t) s = execTcbSpstop t s := rfl
@[simp] theorem exec_spindleInstruction (t : TileId) (lane : Fin 32) :
    exec (.spindleInstruction t lane) s = execSpindleInstruction t lane s := rfl
@[simp] theorem exec_sphalt (t : TileId) (lane : Fin 32) (gu : Guard) :
    exec (.sphalt t lane gu) s = execSphalt t lane gu s := rfl
@[simp] theorem exec_sid (t : TileId) (lane : Fin 32) (gu : Guard) (td : RegNo) :
    exec (.sid t lane gu td) s = execSid t lane gu td s := rfl
@[simp] theorem exec_sparrive (t : TileId) (lane : Fin 32) (gu : Guard) (ta : RegNo) :
    exec (.sparrive t lane gu ta) s = execSparrive t lane gu ta s := rfl
@[simp] theorem exec_vregWinAccess (t : TileId) (off : Fin 2048) (size : Fin 9) (wr : Option Word) :
    exec (.vregWinAccess t off size wr) s = execVregWinAccess t off size wr s := rfl
@[simp] theorem exec_mma (t : TileId) (gu : Guard) (ra rb rc : RegNo) (acc : Fin 4) (dw : Bool) :
    exec (.mma t gu ra rb rc acc dw) s = execMma t gu ra rb rc acc dw s := rfl
@[simp] theorem exec_mstore (t : TileId) (gu : Guard) (ra rc : RegNo) (acc : Fin 4) (dw : Bool) :
    exec (.mstore t gu ra rc acc dw) s = execMstore t gu ra rc acc dw s := rfl
@[simp] theorem exec_mscale (t : TileId) (gu : Guard) (ra rc : RegNo) (dw : Bool) :
    exec (.mscale t gu ra rc dw) s = execMscale t gu ra rc dw s := rfl
@[simp] theorem exec_mzero (t : TileId) (gu : Guard) (acc : Fin 4) (dw : Bool) :
    exec (.mzero t gu acc dw) s = execMzero t gu acc dw s := rfl
@[simp] theorem exec_mzeroP (t : TileId) (gu : Guard) (acc : Fin 4) (dw : Bool) :
    exec (.mzeroP t gu acc dw) s = execMzeroP t gu acc dw s := rfl
@[simp] theorem exec_msync (t : TileId) (gu : Guard) :
    exec (.msync t gu) s = execMsync t gu s := rfl
@[simp] theorem exec_meCommandStart (t : TileId) :
    exec (.meCommandStart t) s = execMeCommandStart t s := rfl
@[simp] theorem exec_meCommandComplete (t : TileId) (corr : Nat) (ue : Option (Fin 6 × Fin 4096)) :
    exec (.meCommandComplete t corr ue) s = execMeCommandComplete t corr ue s := rfl
@[simp] theorem exec_maccWinAccess (t : TileId) (off : Fin 4096) (size : Fin 9) (wr : Option Word) :
    exec (.maccWinAccess t off size wr) s = execMaccWinAccess t off size wr s := rfl
@[simp] theorem exec_drawerOwnWrite (t : TileId) (d : Fin 6) (v : Word) :
    exec (.drawerOwnWrite t d v) s = execDrawerOwnWrite t d v s := rfl
@[simp] theorem exec_drawerZeroingStart (t : TileId) :
    exec (.drawerZeroingStart t) s = execDrawerZeroingStart t s := rfl
@[simp] theorem exec_drawerZeroingDone (t : TileId) :
    exec (.drawerZeroingDone t) s = execDrawerZeroingDone t s := rfl
@[simp] theorem exec_scrubSlot (t : TileId) (bank : Fin 24) (free : Bool) (ecc : Fin 3) :
    exec (.scrubSlot t bank free ecc) s = execScrubSlot t bank free ecc s := rfl
@[simp] theorem exec_scrubWriteback (t : TileId) :
    exec (.scrubWriteback t) s = execScrubWriteback t s := rfl
@[simp] theorem exec_transferPortRequest (t src : TileId) :
    exec (.transferPortRequest t src) s = execTransferPortRequest t src s := rfl
@[simp] theorem exec_darrive (t : TileId) (gu : Guard) (ra rb : RegNo) :
    exec (.darrive t gu ra rb) s = execDarrive t gu ra rb s := rfl
@[simp] theorem exec_dset (t : TileId) (gu : Guard) (ra rb : RegNo) :
    exec (.dset t gu ra rb) s = execDset t gu ra rb s := rfl
@[simp] theorem exec_dreset (t : TileId) (gu : Guard) (ra : RegNo) :
    exec (.dreset t gu ra) s = execDreset t gu ra s := rfl
@[simp] theorem exec_dwait (t : TileId) (gu : Guard) (pd : PredNo) (ra rb : RegNo) :
    exec (.dwait t gu pd ra rb) s = execDwait t gu pd ra rb s := rfl
@[simp] theorem exec_dtest (t : TileId) (gu : Guard) (pd : PredNo) (ra rb : RegNo) :
    exec (.dtest t gu pd ra rb) s = execDtest t gu pd ra rb s := rfl
@[simp] theorem exec_dread (t : TileId) (gu : Guard) (rd ra : RegNo) :
    exec (.dread t gu rd ra) s = execDread t gu rd ra s := rfl
@[simp] theorem exec_dowelStoreCommand (port : Fin 2) (tile : TileId) (idx : Fin 512) (v : Word) :
    exec (.dowelStoreCommand port tile idx v) s = execDowelStoreCommand port tile idx v s := rfl
@[simp] theorem exec_dowelOpArrival (src : DowelSrc) (tile : TileId) (idx : Fin 512) :
    exec (.dowelOpArrival src tile idx) s = execDowelOpArrival src tile idx s := rfl
@[simp] theorem exec_dowelWake (t : TileId) :
    exec (.dowelWake t) s = execDowelWake t s := rfl
@[simp] theorem exec_dwaitPoll (t : TileId) :
    exec (.dwaitPoll t) s = execDwaitPoll t s := rfl
@[simp] theorem exec_carrive (t : TileId) (gu : Guard) (ra : RegNo) :
    exec (.carrive t gu ra) s = execCarrive t gu ra s := rfl
@[simp] theorem exec_cwait (t : TileId) (gu : Guard) (pd : PredNo) (ra : RegNo) :
    exec (.cwait t gu pd ra) s = execCwait t gu pd ra s := rfl
@[simp] theorem exec_ctest (t : TileId) (gu : Guard) (pd : PredNo) (ra : RegNo) :
    exec (.ctest t gu pd ra) s = execCtest t gu pd ra s := rfl
@[simp] theorem exec_cbar (t : TileId) (gu : Guard) (pd : PredNo) (ra : RegNo) :
    exec (.cbar t gu pd ra) s = execCbar t gu pd ra s := rfl
@[simp] theorem exec_clampRelease (c : Fin 16) :
    exec (.clampRelease c) s = execClampRelease c s := rfl
@[simp] theorem exec_tsub (t : TileId) (gu : Guard) (ra rb : RegNo) :
    exec (.tsub t gu ra rb) s = execTsub t gu ra rb s := rfl
@[simp] theorem exec_tstat (t : TileId) (gu : Guard) (rd rb : RegNo) :
    exec (.tstat t gu rd rb) s = execTstat t gu rd rb s := rfl
@[simp] theorem exec_tsync (t : TileId) (gu : Guard) (rb : RegNo) :
    exec (.tsync t gu rb) s = execTsync t gu rb s := rfl
@[simp] theorem exec_tclear (t : TileId) (gu : Guard) (ra rb : RegNo) :
    exec (.tclear t gu ra rb) s = execTclear t gu ra rb s := rfl
@[simp] theorem exec_tstop (t : TileId) (gu : Guard) (rb : RegNo) :
    exec (.tstop t gu rb) s = execTstop t gu rb s := rfl
@[simp] theorem exec_tgo (t : TileId) (gu : Guard) (rb : RegNo) :
    exec (.tgo t gu rb) s = execTgo t gu rb s := rfl
@[simp] theorem exec_tsave (t : TileId) (gu : Guard) (ra rb : RegNo) :
    exec (.tsave t gu ra rb) s = execTsave t gu ra rb s := rfl
@[simp] theorem exec_trest (t : TileId) (gu : Guard) (ra rb : RegNo) :
    exec (.trest t gu ra rb) s = execTrest t gu ra rb s := rfl
@[simp] theorem exec_teCtrlStop (t : TileId) (ch : Fin 4) :
    exec (.teCtrlStop t ch) s = execTeCtrlStop t ch s := rfl
@[simp] theorem exec_teCtrlGo (t : TileId) (ch : Fin 4) :
    exec (.teCtrlGo t ch) s = execTeCtrlGo t ch s := rfl
@[simp] theorem exec_teCtrlClear (t : TileId) (ch mode : Fin 4) :
    exec (.teCtrlClear t ch mode) s = execTeCtrlClear t ch mode s := rfl
@[simp] theorem exec_descriptorStart (t : TileId) (ch : Fin 4) :
    exec (.descriptorStart t ch) s = execDescriptorStart t ch s := rfl
@[simp] theorem exec_blockPretranslate (t : TileId) (ch : Fin 4) :
    exec (.blockPretranslate t ch) s = execBlockPretranslate t ch s := rfl
@[simp] theorem exec_blockCommit (t : TileId) (ch : Fin 4) (ext : LoadAns) :
    exec (.blockCommit t ch ext) s = execBlockCommit t ch ext s := rfl
@[simp] theorem exec_teStopDone (t : TileId) (ch : Fin 4) :
    exec (.teStopDone t ch) s = execTeStopDone t ch s := rfl
@[simp] theorem exec_pageWalk (leaf : Fin 2) :
    exec (.pageWalk leaf) s = execPageWalk leaf s := rfl
@[simp] theorem exec_pageWalkEntryRead (leaf : Fin 2) (k : Fin 8) (entry : Option Word) (cas : Bool) :
    exec (.pageWalkEntryRead leaf k entry cas) s = execPageWalkEntryRead leaf k entry cas s := rfl
@[simp] theorem exec_pageGroupResponse (port : Fin 2) (fn : Fin 128) (idx : Fin 512) (pasid : BitVec 20) (code : Fin 16) :
    exec (.pageGroupResponse port fn idx pasid code) s = execPageGroupResponse port fn idx pasid code s := rfl
@[simp] theorem exec_priTimeout (port : Fin 2) (fn : Fin 128) (idx : Fin 512) :
    exec (.priTimeout port fn idx) s = execPriTimeout port fn idx s := rfl
@[simp] theorem exec_xltInvWrite (v : Word) :
    exec (.xltInvWrite v) s = execXltInvWrite v s := rfl
@[simp] theorem exec_atsInvalidateRequest (port : Fin 2) (fn : Fin 128) (pasid : Option (BitVec 20)) :
    exec (.atsInvalidateRequest port fn pasid) s = execAtsInvalidateRequest port fn pasid s := rfl
@[simp] theorem exec_invalidationComplete :
    exec (.invalidationComplete) s = execInvalidationComplete s := rfl
@[simp] theorem exec_xltCtxWrite (agent : RegAgent) (n : TileId) (k : Fin 32) (v : Word) :
    exec (.xltCtxWrite agent n k v) s = execXltCtxWrite agent n k v s := rfl
@[simp] theorem exec_stopMarker (n : TileId) :
    exec (.stopMarker n) s = execStopMarker n s := rfl
@[simp] theorem exec_xltFmtWrite (agent : RegAgent) (f k : Fin 4) (v : Word) :
    exec (.xltFmtWrite agent f k v) s = execXltFmtWrite agent f k v s := rfl
@[simp] theorem exec_priDisable (port : Fin 2) (fn : Fin 128) :
    exec (.priDisable port fn) s = execPriDisable port fn s := rfl
@[simp] theorem exec_hostLinkTraining (port : Fin 2) (rate : Fin 7) (width : Fin 17) (flit cache : Bool) (cxl : Fin 4) :
    exec (.hostLinkTraining port rate width flit cache cxl) s = execHostLinkTraining port rate width flit cache cxl s := rfl
@[simp] theorem exec_dataLinkDown (port : Fin 2) :
    exec (.dataLinkDown port) s = execDataLinkDown port s := rfl
@[simp] theorem exec_downTimerExpiry (port : Fin 2) :
    exec (.downTimerExpiry port) s = execDownTimerExpiry port s := rfl
@[simp] theorem exec_hotReset (port : Fin 2) :
    exec (.hotReset port) s = execHotReset port s := rfl
@[simp] theorem exec_perstAssert (port : Fin 2) :
    exec (.perstAssert port) s = execPerstAssert port s := rfl
@[simp] theorem exec_linkDisable (port : Fin 2) :
    exec (.linkDisable port) s = execLinkDisable port s := rfl
@[simp] theorem exec_functionLevelReset (port : Fin 2) (fn : Fin 128) :
    exec (.functionLevelReset port fn) s = execFunctionLevelReset port fn s := rfl
@[simp] theorem exec_hostBarWrite (port : Fin 2) (fn : Fin 128) (requester : BitVec 16) (bar : Fin 3) (off : BitVec 38) (data : List Byte) (ep : Bool) :
    exec (.hostBarWrite port fn requester bar off data ep) s = execHostBarWrite port fn requester bar off data ep s := rfl
@[simp] theorem exec_hostBarRead (port : Fin 2) (fn : Fin 128) (requester : BitVec 16) (bar : Fin 3) (off : BitVec 38) (n : Fin 4097) :
    exec (.hostBarRead port fn requester bar off n) s = execHostBarRead port fn requester bar off n s := rfl
@[simp] theorem exec_configRequest (port : Fin 2) (fn : Fin 128) (field : Fin 32) (v : Option (BitVec 64)) :
    exec (.configRequest port fn field v) s = execConfigRequest port fn field v s := rfl
@[simp] theorem exec_flushRead (port : Fin 2) :
    exec (.flushRead port) s = execFlushRead port s := rfl
@[simp] theorem exec_hostReadCompletion (reader : HostReader) (ans : HostAns) :
    exec (.hostReadCompletion reader ans) s = execHostReadCompletion reader ans s := rfl
@[simp] theorem exec_completionTimeout (reader : HostReader) :
    exec (.completionTimeout reader) s = execCompletionTimeout reader s := rfl
@[simp] theorem exec_hportRetrain (port : Fin 2) :
    exec (.hportRetrain port) s = execHportRetrain port s := rfl
@[simp] theorem exec_hlcRequest (port : Fin 2) (line : Fin 0x400000000000) (tiles walkers others : List Nat) (ecc : Fin 5) :
    exec (.hlcRequest port line tiles walkers others ecc) s = execHlcRequest port line tiles walkers others ecc s := rfl
@[simp] theorem exec_hlcFill (port : Fin 2) (line : Fin 0x400000000000) (st : Fin 4) (data : List Byte) (poison : Bool) :
    exec (.hlcFill port line st data poison) s = execHlcFill port line st data poison s := rfl
@[simp] theorem exec_hostSnoop (port : Fin 2) (line : Fin 0x400000000000) (kind : Fin 3) :
    exec (.hostSnoop port line kind) s = execHostSnoop port line kind s := rfl
@[simp] theorem exec_evictionWritebackDone (port : Fin 2) (line : Fin 0x400000000000) :
    exec (.evictionWritebackDone port line) s = execEvictionWritebackDone port line s := rfl
@[simp] theorem exec_hlcPreload (v : Option Word) :
    exec (.hlcPreload v) s = execHlcPreload v s := rfl
@[simp] theorem exec_hlcUnlock :
    exec (.hlcUnlock) s = execHlcUnlock s := rfl
@[simp] theorem exec_wqDoorbell (q : TileId) (tail : BitVec 32) :
    exec (.wqDoorbell q tail) s = execWqDoorbell q tail s := rfl
@[simp] theorem exec_descriptorFetch (q : TileId) (ans : Option (List Word)) :
    exec (.descriptorFetch q ans) s = execDescriptorFetch q ans s := rfl
@[simp] theorem exec_grainHashInputs (q : TileId) (list : Option (List Word)) (host : List (Option (List Byte × Bool))) :
    exec (.grainHashInputs q list host) s = execGrainHashInputs q list host s := rfl
@[simp] theorem exec_workOrderDispatch (q : TileId) :
    exec (.workOrderDispatch q) s = execWorkOrderDispatch q s := rfl
@[simp] theorem exec_wqDoneWrite (agent : RegAgent) (q : TileId) (v : Word) (host : List (Option (List Byte × Bool))) :
    exec (.wqDoneWrite agent q v host) s = execWqDoneWrite agent q v host s := rfl
@[simp] theorem exec_completionRecordWrite (q : TileId) :
    exec (.completionRecordWrite q) s = execCompletionRecordWrite q s := rfl
@[simp] theorem exec_wqEnable (q : TileId) :
    exec (.wqEnable q) s = execWqEnable q s := rfl
@[simp] theorem exec_wqDisable (q : TileId) :
    exec (.wqDisable q) s = execWqDisable q s := rfl
@[simp] theorem exec_wqCqheadWrite (q : TileId) (v : BitVec 32) :
    exec (.wqCqheadWrite q v) s = execWqCqheadWrite q v s := rfl
@[simp] theorem exec_memoryWriteAccept (pc : Fin 192) :
    exec (.memoryWriteAccept pc) s = execMemoryWriteAccept pc s := rfl
@[simp] theorem exec_hbmCommandSlot (pc : Fin 192) (loc : Fin 0x80000000) (ecc : Fin 3) :
    exec (.hbmCommandSlot pc loc ecc) s = execHbmCommandSlot pc loc ecc s := rfl
@[simp] theorem exec_refresh (pc : Fin 192) :
    exec (.refresh pc) s = execRefresh pc s := rfl
@[simp] theorem exec_refreshRateChange (stack : Fin 6) (temp : Fin 256) :
    exec (.refreshRateChange stack temp) s = execRefreshRateChange stack temp s := rfl
@[simp] theorem exec_hbmScrubSlot (pc : Fin 192) (ecc : Fin 3) :
    exec (.hbmScrubSlot pc ecc) s = execHbmScrubSlot pc ecc s := rfl
@[simp] theorem exec_rowRemap (late : Fin 17) :
    exec (.rowRemap late) s = execRowRemap late s := rfl
@[simp] theorem exec_rowRemapDone :
    exec (.rowRemapDone) s = execRowRemapDone s := rfl
@[simp] theorem exec_pcMapOut (pc : Fin 192) :
    exec (.pcMapOut pc) s = execPcMapOut pc s := rfl
@[simp] theorem exec_memoryRecalWindow (pc : Fin 192) (late : Fin 17) :
    exec (.memoryRecalWindow pc late) s = execMemoryRecalWindow pc late s := rfl
@[simp] theorem exec_stackTraining (stack : Fin 6) (fails : List (Fin 192)) :
    exec (.stackTraining stack fails) s = execStackTraining stack fails s := rfl
@[simp] theorem exec_stackZeroFillDone (stack : Fin 6) :
    exec (.stackZeroFillDone stack) s = execStackZeroFillDone stack s := rfl
@[simp] theorem exec_stackThermalTrip (stack : Fin 6) :
    exec (.stackThermalTrip stack) s = execStackThermalTrip stack s := rfl
@[simp] theorem exec_lenysTraining (port : Fin 16) (gen2 : Bool) (farSlot : TileId) (farPort : Fin 16) (farCab farInc : BitVec 32) (ok : Bool) :
    exec (.lenysTraining port gen2 farSlot farPort farCab farInc ok) s = execLenysTraining port gen2 farSlot farPort farCab farInc ok s := rfl
@[simp] theorem exec_codewordReceive (port : Fin 16) (seq ack : Fin 1024) (errs : Nat) (idle : Bool) (ms : List StreamMsg) :
    exec (.codewordReceive port seq ack errs idle ms) s = execCodewordReceive port seq ack errs idle ms s := rfl
@[simp] theorem exec_linkReplay (port : Fin 16) (seq : Fin 1024) :
    exec (.linkReplay port seq) s = execLinkReplay port seq s := rfl
@[simp] theorem exec_portRetrain (port : Fin 16) :
    exec (.portRetrain port) s = execPortRetrain port s := rfl
@[simp] theorem exec_laneFail (port : Fin 16) (lane : Fin 5) :
    exec (.laneFail port lane) s = execLaneFail port lane s := rfl
@[simp] theorem exec_lenysRecalWindow (port : Fin 16) :
    exec (.lenysRecalWindow port) s = execLenysRecalWindow port s := rfl
@[simp] theorem exec_portDown (port : Fin 16) :
    exec (.portDown port) s = execPortDown port s := rfl
@[simp] theorem exec_localReroute :
    exec (.localReroute) s = execLocalReroute s := rfl
@[simp] theorem exec_routeTableLoad (entries : List (TileId × Word)) :
    exec (.routeTableLoad entries) s = execRouteTableLoad entries s := rfl
@[simp] theorem exec_e2eReceive (src : TileId) :
    exec (.e2eReceive src) s = execE2eReceive src s := rfl
@[simp] theorem exec_e2eAck (src : TileId) (seq : BitVec 32) (refs : List (BitVec 32 × Nat)) (inc dinc : BitVec 32) (stale : Bool) :
    exec (.e2eAck src seq refs inc dinc stale) s = execE2eAck src seq refs inc dinc stale s := rfl
@[simp] theorem exec_e2eRetransmit (d : TileId) :
    exec (.e2eRetransmit d) s = execE2eRetransmit d s := rfl
@[simp] theorem exec_destinationUnreachable (d : TileId) :
    exec (.destinationUnreachable d) s = execDestinationUnreachable d s := rfl
@[simp] theorem exec_buildNotice :
    exec (.buildNotice) s = execBuildNotice s := rfl
@[simp] theorem exec_barrierArriveAtRoot :
    exec (.barrierArriveAtRoot) s = execBarrierArriveAtRoot s := rfl
@[simp] theorem exec_barrierRelease :
    exec (.barrierRelease) s = execBarrierRelease s := rfl
@[simp] theorem exec_barrierAbort :
    exec (.barrierAbort) s = execBarrierAbort s := rfl
@[simp] theorem exec_timeExchange (off : BitVec 16) (now : Word) :
    exec (.timeExchange off now) s = execTimeExchange off now s := rfl
@[simp] theorem exec_holdover :
    exec (.holdover) s = execHoldover s := rfl
@[simp] theorem exec_lenysRetrainWrite (port : Fin 16) :
    exec (.lenysRetrainWrite port) s = execLenysRetrainWrite port s := rfl
@[simp] theorem exec_partBuild (v : Word) :
    exec (.partBuild v) s = execPartBuild v s := rfl
@[simp] theorem exec_partReset (v : Word) :
    exec (.partReset v) s = execPartReset v s := rfl
@[simp] theorem exec_partTeardown (v : Word) :
    exec (.partTeardown v) s = execPartTeardown v s := rfl
@[simp] theorem exec_partCmdHoldEnd :
    exec (.partCmdHoldEnd) s = execPartCmdHoldEnd s := rfl
@[simp] theorem exec_partitionFatal (p : Fin 128) (id : BitVec 16) (phys : Option (Fin 288)) :
    exec (.partitionFatal p id phys) s = execPartitionFatal p id phys s := rfl
@[simp] theorem exec_rollbackCommit (src : MgSrc) (typ : BitVec 8) :
    exec (.rollbackCommit src typ) s = execRollbackCommit src typ s := rfl
@[simp] theorem exec_getVersion (tr : Fin 7) :
    exec (.getVersion tr) s = execGetVersion tr s := rfl
@[simp] theorem exec_getCapabilities (tr : Fin 7) (flags : BitVec 32) :
    exec (.getCapabilities tr flags) s = execGetCapabilities tr flags s := rfl
@[simp] theorem exec_negotiateAlgorithms (tr : Fin 7) (p384 sha secp aes : Bool) :
    exec (.negotiateAlgorithms tr p384 sha secp aes) s = execNegotiateAlgorithms tr p384 sha secp aes s := rfl
@[simp] theorem exec_getDigests (tr : Fin 7) :
    exec (.getDigests tr) s = execGetDigests tr s := rfl
@[simp] theorem exec_getCertificate (tr : Fin 7) (slot : Fin 8) (off len : BitVec 16) :
    exec (.getCertificate tr slot off len) s = execGetCertificate tr slot off len s := rfl
@[simp] theorem exec_challenge (tr : Fin 7) (slot : Fin 8) (nonce : BitVec 256) :
    exec (.challenge tr slot nonce) s = execChallenge tr slot nonce s := rfl
@[simp] theorem exec_getMeasurements (tr : Fin 7) (index : BitVec 8) (signed : Bool) (nonce : BitVec 256) :
    exec (.getMeasurements tr index signed nonce) s = execGetMeasurements tr index signed nonce s := rfl
@[simp] theorem exec_keyExchange (tr : Fin 7) (slot : Fin 8) (share : BitVec 768) :
    exec (.keyExchange tr slot share) s = execKeyExchange tr slot share s := rfl
@[simp] theorem exec_finish (tr : Fin 7) (sess : BitVec 32) (mac : BitVec 384) :
    exec (.finish tr sess mac) s = execFinish tr sess mac s := rfl
@[simp] theorem exec_spdmHeartbeat (tr : Fin 7) (sess : BitVec 32) :
    exec (.spdmHeartbeat tr sess) s = execSpdmHeartbeat tr sess s := rfl
@[simp] theorem exec_keyUpdate (tr : Fin 7) (sess : BitVec 32) (op : Fin 4) :
    exec (.keyUpdate tr sess op) s = execKeyUpdate tr sess op s := rfl
@[simp] theorem exec_endSession (tr : Fin 7) (sess : BitVec 32) :
    exec (.endSession tr sess) s = execEndSession tr sess s := rfl
@[simp] theorem exec_bmStart (part twin : Fin 128) :
    exec (.bmStart part twin) s = execBmStart part twin s := rfl
@[simp] theorem exec_bmHello :
    exec (.bmHello) s = execBmHello s := rfl
@[simp] theorem exec_bmReady :
    exec (.bmReady) s = execBmReady s := rfl
@[simp] theorem exec_bmStop :
    exec (.bmStop) s = execBmStop s := rfl
@[simp] theorem exec_checkpointCompare :
    exec (.checkpointCompare) s = execCheckpointCompare s := rfl
@[simp] theorem exec_bmCheckpointTimeout (rank : Option TileId) :
    exec (.bmCheckpointTimeout rank) s = execBmCheckpointTimeout rank s := rfl
@[simp] theorem exec_bmLost :
    exec (.bmLost) s = execBmLost s := rfl
@[simp] theorem exec_flueEpoch (m : Fin 2) (reports : List FlueReport) (draw : BitVec 32) (want : List (TileId × Fin 16)) :
    exec (.flueEpoch m reports draw want) s = execFlueEpoch m reports draw want s := rfl
@[simp] theorem exec_flueHeartbeat (m : Fin 2) (now : BitVec 64) (heard : Bool) :
    exec (.flueHeartbeat m now heard) s = execFlueHeartbeat m now heard s := rfl
@[simp] theorem exec_managerFailover (m : Fin 2) (now : BitVec 64) :
    exec (.managerFailover m now) s = execManagerFailover m now s := rfl
@[simp] theorem exec_higherTermSeen (m : Fin 2) (term : BitVec 32) :
    exec (.higherTermSeen m term) s = execHigherTermSeen m term s := rfl
@[simp] theorem exec_shelfFailure :
    exec (.shelfFailure) s = execShelfFailure s := rfl
@[simp] theorem exec_envelopeRequest (watts ms : BitVec 32) :
    exec (.envelopeRequest watts ms) s = execEnvelopeRequest watts ms s := rfl
@[simp] theorem exec_contractChange (param : Fin 3) (v : BitVec 32) :
    exec (.contractChange param v) s = execContractChange param v s := rfl
@[simp] theorem exec_flueStart (m : Fin 2) :
    exec (.flueStart m) s = execFlueStart m s := rfl
@[simp] theorem exec_watchdogExpiry :
    exec (.watchdogExpiry) s = execWatchdogExpiry s := rfl
@[simp] theorem exec_firmwareStart :
    exec (.firmwareStart) s = execFirmwareStart s := rfl
@[simp] theorem exec_selfTest :
    exec (.selfTest) s = execSelfTest s := rfl
@[simp] theorem exec_selfTestDone (tiles : List (Fin 288)) (defects : List Defect) :
    exec (.selfTestDone tiles defects) s = execSelfTestDone tiles defects s := rfl
@[simp] theorem exec_bootReady :
    exec (.bootReady) s = execBootReady s := rfl
@[simp] theorem exec_logRecordWrite :
    exec (.logRecordWrite) s = execLogRecordWrite s := rfl
@[simp] theorem exec_logCompaction :
    exec (.logCompaction) s = execLogCompaction s := rfl
@[simp] theorem exec_setdasa (iface : Fin 2) (addr : Fin 128) :
    exec (.setdasa iface addr) s = execSetdasa iface addr s := rfl
@[simp] theorem exec_setEndpointId (port : Fin 2) (eid : BitVec 8) :
    exec (.setEndpointId port eid) s = execSetEndpointId port eid s := rfl
@[simp] theorem exec_relay (iface : Fin 2) (toLenys : Bool) (dst : BitVec 16) (packet : List Byte) :
    exec (.relay iface toLenys dst packet) s = execRelay iface toLenys dst packet s := rfl
@[simp] theorem exec_getId (src : MgSrc) :
    exec (.getId src) s = execGetId src s := rfl
@[simp] theorem exec_regRead (src : MgSrc) (off : BitVec 32) :
    exec (.regRead src off) s = execRegRead src off s := rfl
@[simp] theorem exec_regWrite (src : MgSrc) (off : BitVec 32) (v : BitVec 64) :
    exec (.regWrite src off v) s = execRegWrite src off v s := rfl
@[simp] theorem exec_getKnot (src : MgSrc) (off len : BitVec 32) :
    exec (.getKnot src off len) s = execGetKnot src off len s := rfl
@[simp] theorem exec_getLog (src : MgSrc) (stream : BitVec 8) (first count : BitVec 32) :
    exec (.getLog src stream first count) s = execGetLog src stream first count s := rfl
@[simp] theorem exec_getTlm (src : MgSrc) (first count : BitVec 32) :
    exec (.getTlm src first count) s = execGetTlm src first count s := rfl
@[simp] theorem exec_imageWrite (src : MgSrc) (typ slot : BitVec 8) (off : BitVec 32) (data : List Byte) :
    exec (.imageWrite src typ slot off data) s = execImageWrite src typ slot off data s := rfl
@[simp] theorem exec_imageSelect (src : MgSrc) (typ slot : BitVec 8) :
    exec (.imageSelect src typ slot) s = execImageSelect src typ slot s := rfl
@[simp] theorem exec_setTime (src : MgSrc) (v : BitVec 64) :
    exec (.setTime src v) s = execSetTime src v s := rfl
@[simp] theorem exec_setDefine (src : MgSrc) (k : BitVec 8) (valid : Bool) (base : BitVec 32) (m0 m1 m2 : BitVec 64) :
    exec (.setDefine src k valid base m0 m1 m2) s = execSetDefine src k valid base m0 m1 m2 s := rfl
@[simp] theorem exec_clampJoin (src : MgSrc) (c : BitVec 8) (cab : Bool) (group : BitVec 8) :
    exec (.clampJoin src c cab group) s = execClampJoin src c cab group s := rfl
@[simp] theorem exec_mbxGo (port : Fin 2) :
    exec (.mbxGo port) s = execMbxGo port s := rfl
@[simp] theorem exec_telemetrySample (late : Fin 3) :
    exec (.telemetrySample late) s = execTelemetrySample late s := rfl
@[simp] theorem exec_errorHarvest :
    exec (.errorHarvest) s = execErrorHarvest s := rfl
@[simp] theorem exec_partFatalSelfReset :
    exec (.partFatalSelfReset) s = execPartFatalSelfReset s := rfl
@[simp] theorem exec_domainResetAssert :
    exec (.domainResetAssert) s = execDomainResetAssert s := rfl
@[simp] theorem exec_domainResetRelease :
    exec (.domainResetRelease) s = execDomainResetRelease s := rfl
@[simp] theorem exec_resetNotice :
    exec (.resetNotice) s = execResetNotice s := rfl
@[simp] theorem exec_errInject (ident : BitVec 16) (tile : TileId) (pc : BitVec 8) :
    exec (.errInject ident tile pc) s = execErrInject ident tile pc s := rfl
@[simp] theorem exec_errorRingRecord (p : Fin 128) :
    exec (.errorRingRecord p) s = execErrorRingRecord p s := rfl
@[simp] theorem exec_errorRingEnable (p : Fin 128) :
    exec (.errorRingEnable p) s = execErrorRingEnable p s := rfl
@[simp] theorem exec_correctedSummaryWindow (log : Bool) :
    exec (.correctedSummaryWindow log) s = execCorrectedSummaryWindow log s := rfl
@[simp] theorem exec_errorRingMsix (p : Fin 128) :
    exec (.errorRingMsix p) s = execErrorRingMsix p s := rfl
@[simp] theorem exec_illegalInstruction (t : TileId) (gu : Guard) (long : Bool) :
    exec (.illegalInstruction t gu long) s = execIllegalInstruction t gu long s := rfl
@[simp] theorem exec_remoteStoreAck (t : TileId) :
    exec (.remoteStoreAck t) s = execRemoteStoreAck t s := rfl
@[simp] theorem exec_blockWriteRefused (t : TileId) (ch : Fin 4) (code : Fin 3) :
    exec (.blockWriteRefused t ch code) s = execBlockWriteRefused t ch code s := rfl
@[simp] theorem exec_grantZeroingDone :
    exec (.grantZeroingDone) s = execGrantZeroingDone s := rfl
@[simp] theorem exec_bmHelloTimeout :
    exec (.bmHelloTimeout) s = execBmHelloTimeout s := rfl
@[simp] theorem exec_mgmtSramUe :
    exec (.mgmtSramUe) s = execMgmtSramUe s := rfl
@[simp] theorem exec_perstDeassert (port : Fin 2) :
    exec (.perstDeassert port) s = execPerstDeassert port s := rfl
@[simp] theorem exec_pwrEnHigh (vin : BitVec 16) :
    exec (.pwrEnHigh vin) s = execPwrEnHigh vin s := rfl
@[simp] theorem exec_portPllLockLost (pll : Fin 31) :
    exec (.portPllLockLost pll) s = execPortPllLockLost pll s := rfl

end Sys2Proof.Machine
end

