-- ==== Sys2Proof/WellFormed.lean ====
section
/-! DEFINITION. Which commands are well formed: what a command's event data must satisfy for the event to be one the spec
describes. Encodings of tile instructions that the spec reserves are well formed as commands: their meaning raises ILLEGAL
(R228). -/

namespace Sys2Proof
open Sys2Proof

/-- An access to a register lies at a multiple of its width (R765). -/
def regAligned (off : BitVec 24) (four : Bool) : Bool := off.toNat % (if four then 4 else 8) == 0

/-- A write of the instruction-store window: half a unit or a unit, aligned (R214). -/
def istAligned (off size : Nat) : Bool := (size == 4 || size == 8) && off % size == 0

/-- An access to a byte window of at most eight bytes, inside the window (R289, R318). -/
def winInside (bytes off size : Nat) : Bool := decide (1 ≤ size) && decide (off + size ≤ bytes)

/-- Host data brought for a list of ranges: an answer that came is not empty. -/
def hostData (l : List (Option (List Byte × Bool))) : Bool := l.all (fun e => match e with | some (b, _) => !b.isEmpty | none => true)

/-- Is a command well formed? -/
def Instr.wf : Instr → Bool
  | .registerWrite _ _ off four _ => regAligned off four
  | .rcRead _ _ off four => regAligned off four
  | .registerAccessInReset _ _ off four _ => regAligned off four
  | .istoreWinWrite _ off size _ => istAligned off size
  | .vregWinAccess _ off size _ => winInside 2048 off size
  | .maccWinAccess _ off size _ => winInside 4096 off size
  | .hlcFill _ _ _ data _ => data.length == 64
  | .descriptorFetch _ ans => match ans with | some ws => ws.length == 16 | none => true
  | .grainHashInputs _ _ host => hostData host
  | .wqDoneWrite _ _ _ host => hostData host
  | .hostBarWrite _ _ _ _ _ data _ => decide (data.length ≤ 4096)
  | .imageWrite _ _ _ _ data => decide (data.length ≤ 1000)
  | .relay _ _ _ packet => decide (packet.length ≤ 1040)
  | _ => true

end Sys2Proof
end

