-- ==== Sys2Proof/Tests/Slice0.lean ====
section
/-! SUPPORT. Tests of the model, each about one step of a small state: what is not well formed is refused; a concrete state
meets the hypotheses of every statement (`test_meets_…`); and what one command leaves, worked out by hand from the rule its
comment names (`test_…`). -/

namespace Sys2Proof.Tests
open Sys2Proof Sys2Proof.Machine

set_option Elab.async false

/-! ### Small states -/

/-- A tile of partition 0 whose core runs in monitor mode at pc 0. -/
def go : Tile := { Tile.reset with core := { CoreSt.reset with run := true, halted := false }, member := 1 }

/-- The core of that tile changed. -/
def goC (f : CoreSt → CoreSt) : Tile := { go with core := f go.core }

/-- The state after reset with tile 0 replaced. -/
def one (x : Tile) : State := putTile State.reset 0 x

/-- The state after reset with the part changed. -/
def dev (f : Dev → Dev) : State := withDev State.reset (f Dev.reset)

/-- The guard that is always true: p0 (R178, R184). -/
def p0 : Guard := ⟨false, 0⟩

/-- Does the command complete in a state with this property? -/
def after (c : Instr) (s : State) (post : State → Bool) : Bool :=
  match exec c s with | .next u => post u | .fault _ => false | .refused _ => false

/-! ### What is not well formed -/

/-- R765: an access to a register lies at a multiple of its width. -/
theorem test_wf_register_alignment : (Instr.registerWrite .mgmt none 0x12 false 0).wf = false ∧
    (Instr.registerWrite .mgmt none 0x12 true 0).wf = false ∧ (Instr.rcRead .mgmt none 0x14 false).wf = false ∧
    (Instr.registerAccessInReset .mgmt none 0x11 true none).wf = false ∧
    (Instr.registerWrite .mgmt none 0x14 true 0).wf = true := by decide

/-- R214: the window onto the instruction store takes aligned units of 4 or 8 bytes. -/
theorem test_wf_istore_window : (Instr.istoreWinWrite 0 4 8 0).wf = false ∧ (Instr.istoreWinWrite 0 0 2 0).wf = false ∧
    (Instr.istoreWinWrite 0 4092 4 0).wf = true := by decide

/-- R289, R318: a window access lies inside its window. -/
theorem test_wf_windows : (Instr.vregWinAccess 0 2041 8 none).wf = false ∧ (Instr.vregWinAccess 0 0 0 none).wf = false ∧
    (Instr.maccWinAccess 0 4089 8 none).wf = false ∧ (Instr.vregWinAccess 0 2040 8 none).wf = true := by decide

/-- R499: a line has 64 bytes. -/
theorem test_wf_line_data : (Instr.hlcFill 0 0 1 [0] false).wf = false ∧
    (Instr.hlcFill 0 0 1 (List.replicate 64 0) false).wf = true := by decide

/-- R514: a descriptor has 16 words. -/
theorem test_wf_descriptor : (Instr.descriptorFetch 0 (some [1])).wf = false ∧
    (Instr.descriptorFetch 0 none).wf = true := by decide

/-- R653: host data that came is not empty. -/
theorem test_wf_grain_inputs : (Instr.grainHashInputs 0 none [some ([], false)]).wf = false ∧
    (Instr.wqDoneWrite .mgmt 0 0 [some ([], false)]).wf = false := by decide

/-- R472, R723, R726: the bounds of a host write, an image write and a relayed packet. -/
theorem test_wf_lengths : (Instr.hostBarWrite 0 0 0 0 0 (List.replicate 4097 0) false).wf = false ∧
    (Instr.imageWrite (.host 0) 1 0 0 (List.replicate 1001 0)).wf = false ∧
    (Instr.relay 0 true 0 (List.replicate 1041 0)).wf = false := by decide +kernel

/-! ### The queue, the managers -/

theorem test_meets_StepRunsFrontCommand :
    let s := { State.reset with pending := [.slowLoop, .epochBoundary] }
    s.pending = .slowLoop :: [.epochBoundary] ∧ step s = .next { s with pending := [.epochBoundary] } ∧
    State.reset.pending = [] ∧ step State.reset = .next State.reset := ⟨rfl, rfl, rfl, rfl⟩

theorem test_meets_EveryRunCompletesAndKeepsManagers : exec (.tcbDoorbell 0 5) State.reset = .next (putTile State.reset 0
    { Tile.reset with core := { CoreSt.reset with mbox := 5, ipend := 2 } }) := by rfl

/-! ### Scalar instructions -/

theorem test_meets_RegisterAndPredicateWriteFrame : go.core.prod = none := rfl

/-- R178: a write to g0 and to p0 is discarded. -/
theorem test_discarded_writes : getG (setG go 0 9) 0 = 0 ∧ getG (setG go 31 9) 31 = 9 ∧ getP (setP go 0 false) 0 = true ∧
    getP (setP go 15 true) 15 = true := by decide

theorem test_meets_IntegerInstructionsComplete : Issues (one go) 0 p0 4 ∧ Issues (one go) 0 p0 8 ∧
    ((0x12 : Fin 64).val ≤ 0x1A ∧ (0 : RegNo) = 0) ∧ (0x1A < (0x1B : Fin 64).val) ∧ (0x12 ≤ (0x12 : Fin 64).val ∧ (31 : RegNo) ≠ 0) ∧
    (31 : Fin 64).val < 32 := by unfold Issues; decide

/-- R230: 5 + (2^64 − 1) = 4, the register 3 slots on; a reserved function raises ILLEGAL (R228) at `evec`. -/
theorem test_alu : let s := one (goC fun c => { c with g := [(2, 5), (3, 0xFFFFFFFFFFFFFFFF)], evec := 0x1000 })
    after (.alu 0 p0 1 2 3 0) s (fun u => getG (tileOf u.dev 0) 1 == 4 && (tileOf u.dev 0).core.pc == 4) = true ∧
    after (.alu 0 p0 1 2 3 0x1B) s (fun u => (tileOf u.dev 0).core.cause == 1 && (tileOf u.dev 0).core.pc == 0x1000) = true := by
  decide

/-- R230: clz, ctz, cpop and rev8 of 0x10; min and max of −1 and 1, signed and unsigned. -/
theorem test_alu_functions : aluOp 0x12 0x10 0 = 59 ∧ aluOp 0x13 0x10 0 = 4 ∧ aluOp 0x14 0x70 0 = 3 ∧ aluOp 0x12 0 0 = 64 ∧
    aluOp 0x15 0x0102030405060708 0 = 0x0807060504030201 ∧ aluOp 0x09 (-1) 1 = -1 ∧ aluOp 0x0B (-1) 1 = 1 := by decide

/-- R231, R233: sign-extended immediates; `lih` keeps the low half; a long form at pc 4 raises IALIGN (R223). -/
theorem test_immediates : let s := one (goC fun c => { c with g := [(2, 5)] })
    after (.addi 0 p0 1 2 0x7FF) s (fun u => getG (tileOf u.dev 0) 1 == 4) = true ∧
    after (.li 0 p0 1 0x80000000) s (fun u => getG (tileOf u.dev 0) 1 == 0xFFFFFFFF80000000 && (tileOf u.dev 0).core.pc == 8) = true ∧
    after (.lih 0 p0 2 0x12345678) s (fun u => getG (tileOf u.dev 0) 2 == 0x1234567800000005) = true ∧
    after (.li 0 p0 1 7) (one (goC fun c => { c with pc := 4 })) (fun u => (tileOf u.dev 0).core.cause == 3) = true := by decide

/-- R184: an instruction whose guard is false only advances. -/
theorem test_guard_false : after (.addi 0 ⟨true, 0⟩ 1 0 9) (one go)
    (fun u => getG (tileOf u.dev 0) 1 == 0 && (tileOf u.dev 0).core.pc == 4) = true := by decide

theorem test_meets_ProductAndQuotientAreExact : (3 : Word) ≠ 0 ∧ (¬ ((7 : Word).toInt = -2 ^ 63 ∧ (3 : Word).toInt = -1)) ∧
    (0x8000000000000000 : Word).toInt = -2 ^ 63 ∧ (0xFFFFFFFFFFFFFFFF : Word).toInt = -1 := by decide

/-- R191, R232: −7 / 2 is −3 with remainder −1; the 32-bit form sign-extends. -/
theorem test_quotients : divOp true 64 (-7) 2 = (-3, -1) ∧ divOp false 64 7 2 = (3, 1) ∧
    mulOp true (-1) (-1) = (1, 0) ∧ mulOp false (-1) (-1) = (1, 0xFFFFFFFFFFFFFFFE) := by decide

theorem test_meets_MultiplyDivideComplete : Issues (one go) 0 p0 4 ∧
    (let s := one (goC fun c => { c with prod := some ⟨7, 9, 4⟩ })
     canIssue (tileOf s.dev 0) = true ∧ (tileOf s.dev 0).core.prod = some ⟨7, 9, 4⟩ ∧ (tileOf s.dev 0).core.slot ≤ 4 ∧
     after (.productLands 0) s (fun u => (tileOf u.dev 0).core.plo == 7 && (tileOf u.dev 0).core.slot == 4) = true) := by
  unfold Issues; decide

theorem test_meets_PredicateInstructionsComplete : Issues (one go) 0 p0 4 := by unfold Issues; decide

/-- R234, R235: −1 < 1 signed and not unsigned; NAND; `mfpr` reads p0 as 1. -/
theorem test_predicates : let s := one (goC fun c => { c with g := [(2, 0xFFFFFFFFFFFFFFFF)], p := 0x0004 })
    after (.cmpi 0 p0 3 2 2 1) s (fun u => getP (tileOf u.dev 0) 3) = true ∧
    after (.cmpi 0 p0 3 2 4 1) s (fun u => !getP (tileOf u.dev 0) 3) = true ∧
    after (.plogic 0 p0 5 2 2 4) s (fun u => !getP (tileOf u.dev 0) 5) = true ∧
    after (.mfpr 0 p0 7) s (fun u => getG (tileOf u.dev 0) 7 == 5) = true := by decide

theorem test_meets_FloatInstructionsComplete : Issues (one go) 0 p0 4 ∧ (3 : Fin 16).val < 4 := by unfold Issues; decide

/-- R242, R243: 1.5 + 2.25 = 3.75 in FP32; 1 / 3 in FP64 rounds to nearest and is inexact. -/
theorem test_float : let s := one (goC fun c => { c with g := [(2, 0x3FC00000), (3, 0x40100000), (4, 0x3FF0000000000000), (5, 0x4008000000000000)] })
    after (.fadd 0 p0 true 1 2 3) s (fun u => getG (tileOf u.dev 0) 1 == 0x40700000 && (tileOf u.dev 0).core.fcsr == 0) = true ∧
    after (.fdiv 0 p0 false 1 4 5) s (fun u => getG (tileOf u.dev 0) 1 == 0x3FD5555555555555 && (tileOf u.dev 0).core.fcsr != 0) = true := by
  decide +kernel

theorem test_meets_ControlFlowCompletes : Issues (one go) 0 p0 4 ∧ Issues (one go) 0 p0 8 ∧
    (let x := tileIn (one go) 0
     (getG x 0).toNat % 4 = 0 ∧ storesDrained x = true ∧ x.lvu.queue = [] ∧ (bit x.core.engErr 0 || bit x.core.engErr 1) = false ∧
     isUser x = false) ∧
    (let s := one (goC fun c => { c with g := [(1, 6)], status := 0, engErr := 1 })
     Issues s 0 p0 4 ∧ (getG (tileIn s 0) 1).toNat % 4 ≠ 0 ∧ isUser (tileIn s 0) = true ∧ storesDrained (tileIn s 0) = true ∧
     (bit (tileIn s 0).core.engErr 0 || bit (tileIn s 0).core.engErr 1) = true) ∧
    (let s := one (goC fun c => { c with status := 3, ien := 4, ipend := 5 })
     (tileOf s.dev 0).core.run = true ∧ (tileOf s.dev 0).core.halted = false ∧ (tileOf s.dev 0).core.wait = .none ∧
     (tileOf s.dev 0).core.stalled = false ∧ bit (tileOf s.dev 0).core.status 1 = true ∧ bit ((tileOf s.dev 0).core.ien &&& (tileOf s.dev 0).core.ipend) 2 = true ∧
     ∀ j : Fin 3, j < 2 → bit ((tileOf s.dev 0).core.ien &&& (tileOf s.dev 0).core.ipend) j = false) ∧
    majorAt 0 ∈ [0x00, 0x17, 0x1F] ∧ (majorAt 0x00E10000 = 7 ∧ fld (0x00E10000 : BitVec 32) 20 16 ≠ 0) := by
  unfold Issues; decide

/-- R225, R240: the worked words of `(!p3) add g4, g5, g6` and `(!p0) nop`; R228: the zero word spells no instruction, nor does
an MD whose RD field is 1. -/
theorem test_words : coreDecode 7 0x98242980 0 = .alu 7 ⟨true, 3⟩ 4 5 6 0 ∧ coreDecode 7 0x81E00000 0 = .nop 7 ⟨true, 0⟩ ∧
    coreDecode 7 0 0 = .illegalInstruction 7 ⟨false, 0⟩ false ∧ coreDecode 7 0x00E10000 0 = .illegalInstruction 7 ⟨false, 0⟩ false := by
  decide

/-- R239: a branch of −1 instruction, `call` links in g31; R205: `sys` saves the pc and takes code 9. -/
theorem test_control_flow : let s := one (goC fun c => { c with pc := 0x100, evec := 0x1000, status := 2 })
    after (.br 0 p0 0x1FFFFF) s (fun u => (tileOf u.dev 0).core.pc == 0xFC) = true ∧
    after (.call 0 p0 2) s (fun u => (tileOf u.dev 0).core.pc == 0x108 && getG (tileOf u.dev 0) 31 == 0x104) = true ∧
    after (.sys 0 p0) s (fun u => (tileOf u.dev 0).core.epc == 0x100 && (tileOf u.dev 0).core.cause == 9 &&
      (tileOf u.dev 0).core.pc == 0x1000 && (tileOf u.dev 0).core.status == 0x9) = true ∧
    after (.eret 0 p0) s (fun u => (tileOf u.dev 0).core.cause == 2) = true := by decide

theorem test_meets_ExceptionEntryAndReturn :
    (255 < 256) ∧ (let x := goC fun c => { c with loads := [⟨31, 5, 2⟩, ⟨1, 6, 0⟩], prod := some ⟨1, 2, 33⟩ }
      x.core.loads.length ≤ 2 ∧ (∀ l ∈ x.core.loads, l.dst < 32 ∧ x.core.slot ≤ l.due ∧ l.due ≤ x.core.slot + 2) ∧
      x.core.slot ≤ 33 ∧ 33 ≤ x.core.slot + 33 ∧
      (returnException (enterException x 5 0 0)).core.loads = x.core.loads ∧
      (returnException (enterException x 5 0 0)).core.prod = x.core.prod) := by decide

theorem test_meets_ControlRegisterAccessCompletes : Issues (one go) 0 p0 4 ∧ cregReserved 24 = false ∧
    isUser (tileIn (one go) 0) = false ∧ (34 : Fin 64) ≠ 15 ∧ (tileIn (one go) 0).lvu.queue = [] ∧ cregReserved 15 = false ∧
    cregRefuses 24 (getG (tileIn (one go) 0) 1) = false ∧
    (let s := one (goC fun c => { c with status := 0 })
     Issues s 0 p0 4 ∧ isUser (tileIn s 0) = true ∧ cregReserved 1 = false ∧ cregUserReads 1 = false ∧ cregUserReads 8 = true ∧
     cregUserWrites 1 = false ∧ cregRefuses 1 (getG (tileIn s 0) 1) = false) ∧
    (let s := one (goC fun c => { c with halted := true, run := false, cregSel := 1 })
     (tileOf s.dev 0).core.halted = true ∧ fld (tileOf s.dev 0).core.cregSel 6 0 = 1 ∧
     after (.cregDataWrite 0 0x40) s (fun u => (tileOf u.dev 0).core.epc == 0x40) = true) := by
  unfold Issues; decide

/-- R203, R209: `mtc` to `evec` clears its low six bits; the read of `mbox` clears its pending bit (R208). -/
theorem test_control_registers : let s := one (goC fun c => { c with g := [(1, 0x1FFF)], mbox := 7, ipend := 2 })
    after (.mtc 0 p0 4 1) s (fun u => (tileOf u.dev 0).core.evec == 0x1FC0) = true ∧
    after (.mfc 0 p0 2 15) s (fun u => getG (tileOf u.dev 0) 2 == 7 && (tileOf u.dev 0).core.ipend == 0) = true := by decide

theorem test_meets_CoreControlCompletes :
    (let s := one (goC fun c => { c with tcmp := 0 })
     let x := tileOf s.dev 0
     x.core.tcmp.toNat ≤ ctimeOf s.dev 0 ∧ x.core.halted = false ∧ x.core.wait = .none ∧ x.core.stalled = false ∧
     ∀ e ∈ x.te, ∀ k ∈ e.2.blks, k.asked = false) ∧
    (let x := tileOf (one (goC fun c => { c with stalled := true })).dev 0
     x.core.halted = false ∧ x.core.stalled = true) ∧
    (let s := one (goC fun c => { c with run := false, stalled := true })
     s.dev.hold = false ∧ canIssue (tileOf s.dev 0) = true ∧ (tileOf s.dev 0).core.run = false ∧
     fetchFault (landDue (tileOf s.dev 0)) 4 false = none ∧
     after (.nop 0 p0) s (fun u => (tileOf u.dev 0).core.halted && (tileOf u.dev 0).core.corePc == 4) = true) ∧
    (tileOf State.reset.dev 0).core.halted = true ∧ ((4 : Fin 9).val = 4 ∧ (4092 : Fin 4096).val % (4 : Fin 9).val = 0) ∧
    ((8 : Fin 9).val = 8 ∧ (4088 : Fin 4096).val % (8 : Fin 9).val = 0) := by decide

/-- R214, R215: a halt keeps the pc in TCB_CORE_PC; a window write reaches the instruction store little-endian. -/
theorem test_core_control : after (.coreHalt 0) (one (goC fun c => { c with pc := 0x40 })) (fun u =>
      (tileOf u.dev 0).core.halted && (tileOf u.dev 0).core.corePc == 0x40) = true ∧
    after (.istoreWinWrite 0 4 4 0x11223344) (one go) (fun u => mbytes 0 (tileOf u.dev 0).istore 4 2 == [0x44, 0x33]) = true ∧
    after (.quiesceInterrupt 0) (one go) (fun u => (tileOf u.dev 0).core.ipend == 4) = true ∧
    after (.coreResume 0) State.reset (fun u => (tileOf u.dev 0).core.run) = true := by decide

/-! ### Loads and stores, short vectors -/

/-- The tile with its own scratchpad address in g1 (tile 0, offset 0x40) and bytes there. -/
def pad : Tile := { goC (fun c => { c with g := [(1, ownAddr 0 0x40), (2, 0x8182838485868788)] }) with
  spad := [(0x40, 0x88), (0x41, 0xFF), (0x47, 0x81)] }

theorem test_meets_OwnScratchpadAccessesComplete :
    (let s := one pad; let x := tileIn s 0
     Issues s 0 p0 4 ∧ Issues s 0 p0 8 ∧ ownBytes x 0x40 64 ∧
     x.core.sb.any (sbOverlaps 0 0x40 (loadSize 6)) = false ∧ x.inject = [] ∧ spadPoisoned x 0x40 (loadSize 6) = false ∧
     getG x 1 + (0 : BitVec 11).signExtend 64 = ownAddr 0 0x40 ∧ getG x 1 + (0 : BitVec 32).signExtend 64 = ownAddr 0 0x40 ∧
     x.core.sb.length + (ownEntries 0 0x40 (storeSize 3) 5).length ≤ 8 ∧ 0x40 % 64 = 0 ∧ x.core.sb.any (sbOverlaps 0 0x40 64) = false ∧ spadPoisoned x 0x40 64 = false ∧
     getG x 1 + (0 : BitVec 10).signExtend 64 * BitVec.ofNat 64 64 = ownAddr 0 0x40 ∧ x.core.sb.length + 64 / 8 ≤ 8) ∧
    (let s := one { go with core := { go.core with g := [(1, ownAddr 0 0x2FFFF8)] } }; let x := tileIn s 0
     Issues s 0 p0 4 ∧ ownBytes x 0x2FFFF8 (storeSize 3) ∧ getG x 1 + (0 : BitVec 11).signExtend 64 = ownAddr 0 0x2FFFF8) := by
  have own (x : Tile) (off n : Nat) (h : isUser x = false ∧ x.member ≠ 0 ∧ off + n ≤ 0x300000)
      (hb : ∀ i, i < n → drawerBusy x (off + i) = false ∧ bit (drawerOwn x (drawerOf (off + i))) 0 = true) : ownBytes x off n :=
    ⟨h.1, h.2.1, h.2.2, fun a ha hn => by have := hb (a - off) (by omega); rwa [Nat.add_sub_cancel' ha] at this⟩
  refine ⟨⟨by unfold Issues; decide, by unfold Issues; decide, own _ _ _ (by decide) (by decide), by decide⟩,
    by unfold Issues; decide, own _ _ _ (by decide) (by decide), by decide⟩

/-- R193, R236: a signed halfword load flies to g3 for the slot three later; a store waits in the buffer, in two entries
where it crosses an 8-byte word (R195). -/
theorem test_load_store : after (.load 0 p0 2 3 1 0) (one pad) (fun u =>
      (tileOf u.dev 0).core.loads == [⟨3, 0xFFFFFFFFFFFFFF88, 3⟩] && getG (tileOf u.dev 0) 3 == 0) = true ∧
    after (.store 0 p0 1 2 1 2) (one pad) (fun u => (tileOf u.dev 0).core.sb == [⟨.scratch 0 0x42, 2, 0x8788⟩]) = true ∧
    after (.store 0 p0 3 2 1 6) (one pad) (fun u => (tileOf u.dev 0).core.sb ==
      [⟨.scratch 0 0x46, 2, 0x8788⟩, ⟨.scratch 0 0x48, 6, 0x818283848586⟩]) = true := by decide

theorem test_meets_CoreBackgroundCompletes :
    (let s := one (goC fun c => { c with sb := [⟨.scratch 0 0x2FFFF8, 8, 0x1122334455667788⟩], loads := [⟨31, 5, 3⟩] })
     let x := tileOf s.dev 0
     x.inject = [] ∧ canIssue x = true ∧ x.core.slot ≤ 3 ∧ (31 : Nat) ≠ 0 ∧
     after (.storeBufferDrain 0) s (fun u => spadGet (tileOf u.dev 0) 0x2FFFF8 2 == [0x88, 0x77] && (tileOf u.dev 0).core.sb == []) = true ∧
     after (.loadLands 0) s (fun u => getG (tileOf u.dev 0) 31 == 5 && (tileOf u.dev 0).core.slot == 3) = true) ∧
    (let s := one (goC fun c => { c with wait := .load ⟨6, 4, [(.host 64, 64, 2)], 8, 0⟩, unacked := [⟨.host 64, 4, 1⟩] })
     (tileOf s.dev 0).core.run = true ∧ ([0x34, 0x12] : List Byte).length = 2 ∧
     (hportOf s.dev (tilePort s.dev 0)).cache = false ∧ hostPending s.dev (.store 0) = false ∧
     after (.loadDataReturn 0 (.data [0x34, 0x12])) s (fun u => (tileOf u.dev 0).core.loads == [⟨4, 0x1234, 3⟩]) = true ∧
     after (.remoteStoreAck 0) s (fun u => (tileOf u.dev 0).core.unacked == []) = true) ∧
    (let x := goC fun c => { c with fetchPc := 0x1FFF8 }
     x.core.run = true ∧ x.core.halted = false ∧ x.core.pq.length < 4 ∧ x.core.fetchPc < 0x20000 ∧ x.inject = [] ∧
     mget false x.istPoison (x.core.fetchPc / 8) = false) := by decide

theorem test_meets_ShortVectorInstructionsComplete : Issues (one go) 0 p0 4 ∧ (8 ∈ [8, 16, 32, 64] ∧ 64 ∈ [8, 16, 32, 64]) ∧
    svIntIllegal 0 3 = false ∧ (0x0A : Fin 32).val < 0x0B ∧ 0x0F < (0x10 : Fin 32).val ∧ svIntIllegal 0x10 0 = false ∧
    (0x0B ≤ (0x0F : Fin 32).val ∧ (0x0F : Fin 32).val ≤ 0x0F) ∧ svFpIllegal 0 4 0 = false ∧ (3 : Fin 8).val < 4 ∧
    (63 : Fin 64).val < svCount true (etWidth 0) ∧ (2 : Fin 4).val < 3 := by unfold Issues; decide

/-- R249, R252: bytes add modulo 256 in each lane, `.h` keeps the upper half; an insert changes one element. -/
theorem test_short_vectors : let s := one (goC fun c => { c with sv := [(1, 0x01FF), (2, 0x0102), (3, 1 <<< 300)], g := [(1, 0xABCD)] })
    after (.svInt 0 p0 false 0 0 3 1 2) s (fun u => getSv (tileOf u.dev 0) 3 == (1 <<< 300) + 0x0201) = true ∧
    after (.vins 0 p0 true 1 1 1 1) s (fun u => getSv (tileOf u.dev 0) 1 == 0xABCD01FF) = true ∧
    after (.vext 0 p0 true 0 5 1 0) s (fun u => getG (tileOf u.dev 0) 5 == 0xFF) = true ∧
    after (.vrsum 0 p0 true 0 5 1 0) s (fun u => getG (tileOf u.dev 0) 5 == 0x100) = true := by decide +kernel

/-- R253: the sum of absolute differences of eight byte pairs; R248: a short store fills four entries. -/
theorem test_short_vectors_sums : let s := one { pad with core := { pad.core with sv := [(1, 0x05), (2, 0x0108)] } }
    after (.vsad 0 p0 true true 0 3 1 2) s (fun u => getSv (tileOf u.dev 0) 3 == 4) = true ∧
    after (.svst 0 p0 false 2 1 0) s (fun u => (tileOf u.dev 0).core.sb.length == 4 &&
      (tileOf u.dev 0).core.sb.head? == some ⟨.scratch 0 0x40, 8, 0x0108⟩) = true ∧
    after (.svld 0 p0 false 4 1 0) s (fun u => elem (getSv (tileOf u.dev 0) 4) 64 0 == 0x810000000000FF88) = true := by decide +kernel

/-! ### The long-vector unit -/

theorem test_meets_LongVectorInstructionsQueue :
    let s := one { go with lvu := { go.lvu with queue := List.replicate 15 (lvCapture go 0x28 0 1 2 3 0 0 0), vl := 2048, vtype := 1 } }
    let x := tileIn s 0
    Issues s 0 p0 4 ∧ x.lvu.spin = false ∧ lvDropping x = false ∧ x.lvu.queue.length < 16 ∧ storesDrained x = true ∧
    x.lvu.vl ≤ 16384 / etWidth 0 ∧ fpAtSew0 x = false ∧ (7 : Nat) < 8 ∧ 4 ≤ (4 : Fin 8).val := by unfold Issues; decide

theorem test_meets_LongVectorScalarFormsComplete :
    let s := one { go with lvu := { go.lvu with vl := 2, vm := [(1, 2)] } }
    let x := tileIn s 0
    let act (va i : Nat) : Bool := decide (i < x.lvu.vl) && ((0 : Fin 8).val == 0 || (getVm x 0).getLsbD i) && (getVm x va).getLsbD i
    Issues s 0 p0 4 ∧ ((true = true → (1 : Fin 4) = 1)) ∧ lvDropping (tileIn (one (goC fun c => { c with engErr := 1 })) 0) = true ∧ x.lvu.spin = false ∧ lvIdle x = true ∧ lvDropping x = false ∧
    (7 : RegNo).val < 8 ∧ (act 1 1 = true ∧ act 1 0 = false) ∧ (act 2 0 = false ∧ act 2 1 = false) := by unfold Issues; decide +kernel

/-- R259, R266: 3,000 asked at SEW 8 gives VLMAX 2,048; the lowest active set bit is 1, and there is one. -/
theorem test_long_vector_scalars : let s := one { go with core := { go.core with g := [(1, 3000)] }, lvu := { go.lvu with vl := 2, vm := [(1, 6)] } }
    after (.setvl 0 p0 2 1 0 false) s (fun u => getG (tileOf u.dev 0) 2 == 2048 && (tileOf u.dev 0).lvu.vl == 2048) = true ∧
    after (.vfirst 0 p0 3 1 0) s (fun u => getG (tileOf u.dev 0) 3 == 1) = true ∧
    after (.vpopc 0 p0 3 1 0) s (fun u => getG (tileOf u.dev 0) 3 == 1) = true ∧
    after (.vfirst 0 p0 3 2 0) s (fun u => getG (tileOf u.dev 0) 3 == 0xFFFFFFFFFFFFFFFF) = true := by decide +kernel

theorem test_meets_LongVectorStartComputes :
    let e : LvEntry := ⟨0x28, 0, 3, 1, 2, 0, 2, 0, 0, 0, 0, false, 0⟩
    let s := one { go with lvu := { go.lvu with queue := [e], v := [(1, 0x01FF), (2, 0x0102)] } }
    (tileOf s.dev 0).lvu.queue = e :: [] ∧ s.dev.hold = false ∧ lvDropping (tileOf s.dev 0) = false ∧ e.vl ≠ 0 ∧ lvMem e = none ∧
    e.major = 0x28 ∧ after (.lvStart 0) s (fun u => elem (getV (tileOf u.dev 0) 3) 16 0 == 0x0201 && (tileOf u.dev 0).lvu.queue == []) = true := by
  decide +kernel

/-! ### Spindles -/

theorem test_meets_SpindleInstructionsComplete :
    (let x := tileIn (one go) 0
     Issues (one go) 0 p0 4 ∧ x.lvu.spin = false ∧ storesDrained x = true ∧ lvIdle x = true ∧ lvDropping x = false) ∧
    (let s := one { go with lvu := { go.lvu with spin := true, lanes := [(31, ⟨0x3FF8, 4, 0⟩)] } }
     let x := tileIn s 0
     Issues s 0 p0 4 ∧ x.lvu.spin = true ∧ lvDropping x = false ∧ (laneOf x 31).st = 4 ∧ (laneOf x 31).pc < 0x4000 ∧
     (laneOf x 31).pc % 4 = 0 ∧ s.dev.hold = false ∧ (7 : Fin 16).val < 8 ∧ getQ x 31 0 ≠ p0.neg ∧
     dowelCount s.dev 0 (fld (getT x 31 0) 8 0) + 1 < 2 ^ 32) ∧
    (let s := one { go with lvu := { go.lvu with spin := true, lanes := [(31, ⟨0x100, 1, 0⟩)] } }
     Issues s 0 p0 4 ∧ ∀ l, l < 32 → (laneOf (tileIn s 0) l).st ≠ 4) ∧
    (let s := one { go with lvu := { go.lvu with spin := true, lanes := [(0, ⟨8, 4, 0⟩)], sbuf := [(11, 0x07), (10, 0xC1)] } }
     let w := sbufWord (tileOf s.dev 0) 8
     fld w 30 27 < 8 ∧ getQ (tileOf s.dev 0) 0 (fld w 30 27) ≠ bit w 31 ∧ fld w 26 21 = 0x3E ∧ fld w 10 5 = 0 ∧ fld w 4 0 = 0 ∧
     fld w 15 11 = 0 ∧ (laneOf (tileOf s.dev 0) 0).pc % 8 = 0) ∧
    (let s := one { go with lvu := { go.lvu with spin := true, lanes := [(0, ⟨8, 4, 0⟩)], sbuf := [(8, 0xFF), (9, 0x07), (10, 0x41)] } }
     let w := sbufWord (tileOf s.dev 0) 8
     fld w 30 27 < 8 ∧ getQ (tileOf s.dev 0) 0 (fld w 30 27) ≠ bit w 31 ∧ fld w 26 21 = 0x02) := by unfold Issues; decide +kernel

/-- R223, R278: the word of `addi t1, t0, −1` gives t1 all ones and the PC advances by 4; `sid` gives the number. -/
theorem test_spindle : let s := one { go with lvu := { go.lvu with spin := true, lanes := [(3, ⟨8, 4, 0⟩)], sbuf := [(8, 0xFF), (9, 0x07), (10, 0x41)] } }
    after (.spindleInstruction 0 3) s (fun u => getT (tileOf u.dev 0) 3 1 == 0xFFFFFFFFFFFFFFFF && (laneOf (tileOf u.dev 0) 3).pc == 12) = true ∧
    after (.sid 0 3 p0 5) s (fun u => getT (tileOf u.dev 0) 3 5 == 3) = true ∧
    after (.sphalt 0 3 p0) s (fun u => laneOf (tileOf u.dev 0) 3 == ⟨12, 1, 0⟩) = true ∧
    after (.tcbSpstop 0) s (fun u => laneOf (tileOf u.dev 0) 3 == ⟨8, 0, 0⟩ && !(tileOf u.dev 0).lvu.spin) = true := by decide +kernel

theorem test_meets_EngineWindowsComplete :
    (let x := tileOf (one { Tile.reset with lvu := { LvuSt.reset with vregSel := 31 } }).dev 0
     x.core.halted = true ∧ lvIdle x = true ∧ x.lvu.spin = false ∧ x.lvu.vregSel < 32) ∧
    (let x := tileOf (one { Tile.reset with me := { MeSt.reset with sel := 3 } }).dev 0
     meIdle x = true ∧ x.me.sel < 4) := by decide

/-- R289: a window write lands at its byte; R318: the window shows accumulator elements. -/
theorem test_windows : after (.vregWinAccess 0 8 2 (some 0xBEEF)) (one Tile.reset) (fun u => getV (tileOf u.dev 0) 0 == 0xBEEF <<< 64) = true ∧
    after (.maccWinAccess 0 4 4 (some 0x3F800000)) (one Tile.reset) (fun u => accGet (tileOf u.dev 0) 0 0 1 == 0x3F800000) = true := by
  decide +kernel

/-! ### The matrix engine -/

/-- An MZERO.P of accumulators 2 and 3. -/
def zeroPair : MeCmd := { meCapture go 4 0 0 0 2 false with num := 1 }

theorem test_meets_MatrixEngineCompletes :
    (let x := tileIn (one { go with me := { go.me with queue := List.replicate 7 zeroPair } }) 0
     storesDrained x = true ∧ lvStoresDone x = true ∧ bit x.core.engErr 1 = false ∧ x.me.queue.length < 8 ∧ (2 : Fin 4).val % 2 = 0) ∧
    (Issues (one go) 0 p0 4 ∧ meIdle (tileIn (one go) 0) = true) ∧
    (let s := one { go with me := { go.me with queue := [zeroPair] } }
     (tileOf s.dev 0).me.run = none ∧ (tileOf s.dev 0).me.queue = zeroPair :: [] ∧ s.dev.hold = false ∧ 3 ≤ zeroPair.kind ∧
     unitWaits s.dev (.me 0) = false) ∧
    (let c := { meCapture go 0 0 0 0xFFFFFFFFFFFFFFFF 0 false with num := 1 }
     let s := one { go with me := { go.me with queue := [c] } }
     meFormatBad c = true ∧ after (.meCommandStart 0) s (fun u => bit (tileOf u.dev 0).core.engErr 1 && (tileOf u.dev 0).me.queue == []) = true) ∧
    (let s := one { go with me := { go.me with run := some (zeroPair, []), acc := [(2 * 1024, 5), (3 * 1024, 6)] } }
     (tileOf s.dev 0).me.run = some (zeroPair, []) ∧ zeroPair.kind ≤ 4 ∧ zeroPair.dw = false ∧ zeroPair.acc < 4 ∧
     s.dev.knots.due.contains (physOf s.dev 0) = false ∧ after (.meCommandComplete 0 0 none) s (fun u => accGet (tileOf u.dev 0) 2 0 0 == 0 && accGet (tileOf u.dev 0) 3 0 0 == 0) = true) := by
  unfold Issues; decide +kernel

theorem test_meets_MatrixMultiplyWrites : (0 : Nat) < mmaM 0 ∧ (31 : Nat) < mmaN 0x3E0 ∧ mmaM 0 ≤ 1 := by decide

/-! ### Drawers -/

theorem test_meets_DrawersComplete :
    (let x := { Tile.reset with dr := { DrawerSt.reset with own := [(5, 0x17)] } }
     bit (drawerOwn x 5) 4 = true ∧ fld (drawerOwn x 5) 13 5 ≠ fld (0x27 : Word) 13 5 ∧ bit (drawerOwn x 4) 4 = false) ∧
    (let x := { Tile.reset with dr := { DrawerSt.reset with zeroing := 0x20 } }
     x.dr.zeroRun = none ∧ x.dr.zeroing.getLsbD (5 : Fin 6) = true ∧ (∀ k : Fin 6, k < 5 → x.dr.zeroing.getLsbD k = false) ∧
     drawerInUse (one x).dev 0 5 = false) ∧
    (let s := one { Tile.reset with dr := { DrawerSt.reset with zeroing := 0x20, zeroRun := some 5 } }
     (tileOf s.dev 0).dr.zeroRun = some (5 : Fin 6).val ∧ s.dev.knots.jobs = [] ∧ s.dev.barq = []) ∧
    (let s := withDev State.reset { (one { Tile.reset with dr := { DrawerSt.reset with own := [(4, 0x0F)] } }).dev with
       mesh := [⟨1, 0, 0x2FFFF8, 8, 0x0807060504030201, 0⟩] }
     s.dev.mesh.find? (fun m => m.src == (1 : TileId).val && m.dst == (0 : TileId).val) = some ⟨1, 0, 0x2FFFF8, 8, 0x0807060504030201, 0⟩ ∧
     zeroRunning (tileOf s.dev 0) 0x2FFFF8 = false ∧ earlierSent s.dev 1 0 0 = false ∧ transferMay (tileOf s.dev 0) 0x2FFFF8 = true ∧
     transferMay (tileOf s.dev 0) 0x200000 = false ∧ (tileOf s.dev 0).inject = [] ∧ (8 : Nat) ≠ 0 ∧
     after (.transferPortRequest 0 1) s (fun u => spadGet (tileOf u.dev 0) 0x2FFFF8 2 == [1, 2]) = true) ∧
    (let x := { Tile.reset with dr := { DrawerSt.reset with scrubDone := 0xFFFFFE, scrubPos := [(0, 2047)] } }
     x.dr.scrubDone.getLsbD (0 : Fin 24) = false ∧ x.inject = [] ∧ Dev.reset.knots.due.contains (physOf Dev.reset 0) = false ∧ 2048 ≤ mget 0 x.dr.scrubPos (0 : Fin 24) + 1 ∧
     (∀ k : Fin 24, k ≠ 0 → x.dr.scrubDone.getLsbD k = true)) ∧
    (Tile.reset.dr.scrubDone.getLsbD (23 : Fin 24) = false ∧ mget 0 Tile.reset.dr.scrubPos (23 : Fin 24) + 1 < 2048) := by decide +kernel

/-- R358, R362: a move of the owner makes the drawer wait; zeroing clears its last byte and not the one before it. -/
theorem test_drawers : after (.drawerOwnWrite 0 1 0x27) (one { Tile.reset with dr := { DrawerSt.reset with clean := 0 } }) (fun u =>
      (tileOf u.dev 0).dr.zeroing == 2 && drawerOwn (tileOf u.dev 0) 1 == 0x27) = true ∧
    after (.drawerZeroingStart 0) (one { Tile.reset with spad := [(0x7FFFF, 1), (0x80000, 2), (0xFFFFF, 3)], dr := { DrawerSt.reset with zeroing := 2 } }) (fun u =>
      (tileOf u.dev 0).spad == [(0x7FFFF, 1)]) = true := by decide +kernel

/-! ### Dowels and clamps -/

/-- Partition 0 of tiles 0 and 1, running with build number 3, tile 0 as given. -/
def two (x : Tile) : Dev := { Dev.reset with
  parts := [(0, ⟨[(0, 0x80000)], 3, 2, true, []⟩)], tiles := [(0, x), (1, go)], clamps := [(15, { ClampSt.reset with valid := true })] }

/-- Does a name lead to that dowel of the partition? -/
def isOwn (r : NameRes) (tile idx : Nat) : Bool := match r with | .own a b => a == tile && b == idx | _ => false

theorem test_meets_DowelOperationEffect : dowelCount { Dev.reset with dowels := [(dowelKey 255 511, 0xFFFFFFFE)] } 255 511 + 1 < 2 ^ 32 ∧
    (0xFFFFFFFF : Nat) < 2 ^ 32 := by decide

theorem test_meets_DowelInstructionsComplete :
    (let s := withDev State.reset { two (goC fun c => { c with g := [(1, 0x1FF), (2, 0x3FF), (3, 4)] }) with dowels := [(511, 4)] }
     let x := tileIn s 0
     Issues s 0 p0 4 ∧ isOwn (dowelName s.dev 0 (getG x 1)) 0 511 = true ∧ isOwn (dowelName s.dev 0 (getG x 2)) 1 511 = true ∧
     storesDrained x = true ∧ lvStoresDone x = true ∧ (0 : Nat) = (0 : TileId).val ∧ (1 : Nat) ≠ (0 : TileId).val ∧ x.core.sb = [] ∧
     bit x.core.engErr 0 = false ∧ bit x.core.engErr 1 = false ∧ x.dig.armed = false ∧ fld (getG x 3) 31 0 ≤ dowelCount s.dev 0 511) ∧
    (fld (0x2FFFFFFFF : Word) 33 32 ≠ 3 ∧ fld (0x2FFFFFFFF : Word) 63 34 = 0) ∧
    (let m : DowelMsg := ⟨.core 1, 0, 511, 0, 1, 7, 3, none, 0⟩
     let s := withDev State.reset { two go with dops := [m] }
     s.dev.dops.find? (fun m => decide (m.src = .core 1) && m.tile == (0 : TileId).val && m.idx == (511 : Fin 512).val) = some m ∧
     m.build = buildOf s.dev 0 ∧ m.block = none ∧ oldestOp s.dev m = true ∧ after (.dowelOpArrival (.core 1) 0 511) s (fun u => dowelCount u.dev 0 511 == 1) = true) ∧
    (let d : DwaitRec := ⟨none, 0, 5, 1, 15, false, false, 9⟩
     let s := withDev State.reset { two (goC fun c => { c with wait := .dwait d }) with wakes := [(0, 9, true)], dowels := [(5, 1)] }
     let x := tileOf s.dev 0
     x.core.wait = .dwait d ∧ d.ckpt = false ∧ x.core.run = true ∧ x.dig.armed = false ∧
     s.dev.wakes.find? (fun w => w.1 == (0 : TileId).val) = some (0, d.id, true) ∧ d.registered = false ∧ d.peer = none ∧
     d.n ≤ dowelCount s.dev d.tile d.idx ∧ d.tile = (0 : TileId).val ∧ meshClear s.dev 0 1 = true ∧ after (.dwaitPoll 0) s (fun u => getP (tileOf u.dev 0) 15) = true) := by
  unfold Issues; decide +kernel

/-- R379, R380: ARRIVE on an own dowel adds at once; on another tile's it leaves with the build number. -/
theorem test_dowels : let s := withDev State.reset (two (goC fun c => { c with g := [(1, 0x005), (2, 0x205), (3, 4)] }))
    after (.darrive 0 p0 1 3) s (fun u => dowelCount u.dev 0 5 == 4 && u.dev.dops == []) = true ∧
    after (.dset 0 p0 2 3) s (fun u => u.dev.dops == [⟨.core 0, 1, 5, 1, 4, 0, 3, none, 0⟩]) = true ∧
    after (.dtest 0 p0 2 1 3) s (fun u => !getP (tileOf u.dev 0) 2) = true := by decide +kernel

theorem test_meets_ClampsComplete :
    (let s := withDev State.reset (two go)
     let x := tileIn s 0
     Issues s 0 p0 4 ∧ clampName s.dev x (getG x 1) = some (15 : Fin 16).val ∧ x.dwl.clampPend.getLsbD (15 : Fin 16) = false ∧
     storesDrained x = true ∧ lvStoresDone x = true ∧ x.dwl.clampOwed.getLsbD (15 : Fin 16) = false ∧ x.dwl.barDone.getLsbD (15 : Fin 16) = false) ∧
    (let x := tileIn (withDev State.reset (two { go with dwl := { go.dwl with barDone := 0x8000 } })) 0
     x.dwl.barDone.getLsbD (15 : Fin 16) = true ∧ x.dwl.clampPend.getLsbD (15 : Fin 16) = false) ∧
    (let s := withDev State.reset { two go with clamps := [(15, { ClampSt.reset with valid := true, arrived := 2, gen := 0xFFFF })] }
     let k := clampOf s.dev 15
     k.valid = true ∧ k.cab = false ∧ k.arrived = pTiles (partSt s.dev k.part) ∧ k.arrived ≠ 0 ∧
     after (.clampRelease 15) s (fun u => (clampOf u.dev 15).gen == 0 && (clampOf u.dev 15).arrived == 0) = true) := by
  unfold Issues; decide +kernel

/-- R390: an arrive counts at the channel and is pending at the tile; CTEST then reads false. -/
theorem test_clamps : after (.carrive 0 p0 1) (withDev State.reset (two go)) (fun u =>
      (clampOf u.dev 15).arrived == 1 && (tileOf u.dev 0).dwl.clampPend == 0x8000) = true ∧
    after (.ctest 0 p0 3 1) (withDev State.reset (two { go with dwl := { go.dwl with clampPend := 0x8000 } })) (fun u =>
      !getP (tileOf u.dev 0) 3) = true := by decide +kernel

/-! ### Transfer engines -/

/-- A descriptor of one row of 16 bytes a block, `n` blocks 0x40 apart, from rank 0 offset 0x100 to rank 1 offset 0x200
(R401). -/
def copyDesc (n : BitVec 64) : TeDesc :=
  ⟨[0x5, 0x100, 0x400200, 0, 0, 0x0000000100000010, 0x0000000100000000 ||| n, 1, 0, 0, 0x40, 0x40, 0, 0, 0, 0], 0, false, 1⟩

theorem test_meets_TransferControlCompletes :
    (let s := withDev State.reset (two { goC (fun c => { c with g := [(1, ownAddr 0 0x2FFD00)] }) with dr := DrawerSt.reset })
     let x := tileIn s 0
     Issues s 0 p0 4 ∧ isUser x = false ∧ x.member ≠ 0 ∧ x.inject = [] ∧ storesDrained x = true ∧ 0x2FFD00 % 64 = 0 ∧
     getG x 1 = ownAddr 0 0x2FFD00 ∧ lvStoresDone x = true ∧ (chanOf x 0).queue.length < 4 ∧ 0x2FFD00 + 768 ≤ 0x300000 ∧
     spadPoisoned x 0x2FFD00 768 = false ∧
     (∀ i, i < 768 → drawerBusy x (0x2FFD00 + i) = false ∧ bit (drawerOwn x (drawerOf (0x2FFD00 + i))) 0 = true) ∧
     (chanOf x 0).st = 0 ∧ (chanOf x 0).stopping = false ∧
     (∀ ch, ch < 4 → bit (getG x 2) ch = true → (chanOf x ch).st ≠ 1 ∧ (chanOf x ch).st ≠ 2 ∧ (chanOf x ch).stopping = false)) ∧
    (let x := setChan go 0 { TeChan.reset with st := 2, run := some (copyDesc 2) }
     (chanOf x 0).st = 2 ∧ (chanOf x 0).blks = []) ∧
    (let c : TeChan := { TeChan.reset with st := 3, run := some (copyDesc 2) }
     c.st = 3 ∧ c.run.isSome = true) ∧
    (let c : TeChan := { TeChan.reset with st := 1, stopping := true, run := some (copyDesc 2) }
     c.stopping = true ∧ c.blks.any (·.sent.isSome) = false ∧ c.st = 1) := by
  unfold Issues; decide +kernel

/-- R400, R422: a submission of a descriptor to an IDLE channel runs it; a stop of that channel holds it. -/
theorem test_transfer_control : let s := one (setChan go 2 { TeChan.reset with st := 1, run := some (copyDesc 2) })
    after (.teCtrlStop 0 2) s (fun u => (chanOf (tileOf u.dev 0) 2).stopping) = true ∧
    after (.teCtrlStop 0 3) s (fun u => (chanOf (tileOf u.dev 0) 3).st == 4) = true ∧
    after (.teCtrlClear 0 2 2) (one (setChan go 2 { TeChan.reset with st := 3, err := 0x42 })) (fun u =>
      chanOf (tileOf u.dev 0) 2 == TeChan.reset) = true := by decide +kernel

/-- Channel 1 of tile 0 with that descriptor and these blocks under way. -/
def copying (checked : Bool) (blks : List TeBlk) : State := withDev State.reset
  (two (setChan { go with spad := [(0x100, 0xAA), (0x10F, 0xBB)] } 1
    { TeChan.reset with st := 1, run := some (copyDesc 2), checked := checked, blks := blks }))

theorem test_meets_TransferBlocksComplete :
    (let s := copying false []
     let c := chanOf (tileOf s.dev 0) 1
     c.run = some (copyDesc 2) ∧ c.st = 1 ∧ c.stopping = false ∧ s.dev.hold = false ∧ c.checked = false ∧
     teFormatBad s.dev 0 (copyDesc 2) = false ∧ c.done < dBlocks (copyDesc 2) ∧ dFw (copyDesc 2) = false) ∧
    (let s := copying true []
     let c := chanOf (tileOf s.dev 0) 1
     partOf (tileOf s.dev 0) = some 0 ∧ c.checked = true ∧ c.done + c.blks.length < dBlocks (copyDesc 2) ∧ c.blks.length < 5 ∧
     c.failAt = none ∧ (∀ k ∈ c.blks.take 2, k.asked = true) ∧
     unitWaits s.dev (.te 0 1) = false ∧ dSkind (copyDesc 2) = 1 ∧ dDkind (copyDesc 2) = 1 ∧
     blockPieces (copyDesc 2) false 0 = [(0x100, 16)] ∧ blockPieces (copyDesc 2) true 0 = [(0x400200, 16)] ∧
     rankAddr 0x100 = some (0, 0x100) ∧ rankAddr 0x400200 = some (1, 0x200) ∧ 1 < pTiles (partSt s.dev 0) ∧
     0x200 + 16 ≤ 0x300000) ∧
    (let b : TeBlk := ⟨0, [(.scratch 0 0x100, 0x100, 16)], [(.scratch 1 0x200, 0x400200, 16)], true, none⟩
     let s := copying true [b]
     (chanOf (tileOf s.dev 0) 1).blks = b :: [] ∧ (∀ i, i < 16 → byteUndefined s.dev 0 (copyDesc 2) 0 i = false) ∧ (tileOf s.dev 0).inject = [] ∧ (tileOf s.dev 1).inject = [] ∧
     drawerBusy (tileOf s.dev 0) 0x100 = false ∧ drawerBusy (tileOf s.dev 1) 0x200 = false ∧ transferMay (tileOf s.dev 0) 0x100 = true ∧
     transferMay (tileOf s.dev 1) 0x200 = true ∧ (∀ i, i < 16 → mget false (tileOf s.dev 0).dr.poison ((0x100 + i) / 64) = false) ∧
     dDw (copyDesc 2) = false ∧ 0 + 1 < dBlocks (copyDesc 2) ∧ unitWaits s.dev (.te 0 1) = false) := by decide +kernel

/-- R403, R408, R410: the block is translated to the two ranges, and its commit copies the 16 bytes. -/
theorem test_transfer_block : after (.blockPretranslate 0 1) (copying true []) (fun u => (chanOf (tileOf u.dev 0) 1).blks ==
      [⟨0, [(.scratch 0 0x100, 0x100, 16)], [(.scratch 1 0x200, 0x400200, 16)], true, none⟩]) = true ∧
    after (.blockCommit 0 1 (.data [])) (copying true [⟨0, [(.scratch 0 0x100, 0x100, 16)], [(.scratch 1 0x200, 0x400200, 16)], true, none⟩])
      (fun u => (tileOf u.dev 1).spad == [(0x200, 0xAA), (0x20F, 0xBB)] && (chanOf (tileOf u.dev 0) 1).done == 1) = true ∧
    after (.blockWriteRefused 0 1 1) (copying true [⟨0, [], [], true, none⟩]) (fun u =>
      (chanOf (tileOf u.dev 0) 1).st == 3 && (chanOf (tileOf u.dev 0) 1).err == 0x43) = true := by decide +kernel

/-! ### Translation -/

/-- The translation unit with format 0 of present bit 0 and writable bit 1 and context 1 of partition 0 at table 0x5000. -/
def xlt0 : XltSt := { XltSt.reset with fmt := [(1, 0x8180)], ctx := [(32, 1), (33, 0x5000)] }

/-- A core's access of address 0x7123 under context 1 that waits for a walk. -/
def want0 : XWant := ⟨.core 0, 1, 0x7123, false, false, 0, 0, 0, .walk⟩

theorem test_meets_PageWalksAndRequestsComplete :
    (let s := withDev State.reset { two go with xlt := { xlt0 with want := [want0] }, hports := [(0, { HPort.reset with dlUp := true })] }
     s.dev.xlt.want = want0 :: [] ∧ want0.stage = .walk ∧ xunitTile want0.unit / 128 = (0 : Fin 2).val ∧ s.dev.xlt.walks = [] ∧
     (∀ q ∈ s.dev.xlt.invQ, q.tag ≠ want0.tag) ∧ xltCheck s.dev (xunitTile want0.unit) want0.tag = true ∧
     fmtBad s.dev (ctxFmt s.dev 1) = false ∧ canonical s.dev (ctxFmt s.dev 1) want0.va = true ∧
     after (.pageWalk 0) s (fun u => u.dev.out == [.hostRead 0 0x5000 8]) = true) ∧
    (let v : Walk := ⟨.core 0, 0, 1, 0x7123, 0, 0x9000, false, false, true, true⟩
     let s := withDev State.reset { two (goC fun c => { c with wait := .xlate 0x7123 0 false }) with
       xlt := { xlt0 with want := [want0], walks := [v] } }
     (leafWalks s.dev (0 : Fin 2))[(0 : Fin 8).val]? = some v ∧ v.unit = .core 0 ∧ v.leaf = (0 : Fin 2).val ∧ (0 : TileId).val / 128 = 0 ∧
     v.level = 0 ∧ v.write = false ∧ v.exec = false ∧ want0 = ⟨.core 0, v.tag, v.va, false, false, want0.cls, want0.succ, want0.entry, .walk⟩ ∧
     (hportOf s.dev (ctxFn s.dev 1).1).cache = false ∧ (tileOf s.dev 0).core.run = true ∧
     fmtAd s.dev (ctxFmt s.dev 1) = 0 ∧ entryFlag s.dev (ctxFmt s.dev 1) 0 0x8003 = some true ∧
     (tileOf s.dev 0).core.wait = .xlate 0x7123 0 false ∧
     after (.pageWalkEntryRead 0 0 (some 0x8003) false) s (fun u => (tileOf u.dev 0).core.wait == .none && u.dev.xlt.want == []) = true) ∧
    (let r : PageReq := ⟨0, 0, 1, 0, 7, false, false, 511, false, 0, 0x9038⟩
     let s := withDev State.reset { two (goC fun c => { c with wait := .xlate 0x7123 0 true }) with
       xlt := { xlt0 with want := [{ want0 with stage := .req 511 }], reqs := [r] } }
     (fnReqs s.dev (0 : Fin 2) (0 : Fin 128)).find? (fun r => r.idx == (511 : Fin 512).val) = some r ∧ r.pasid = (0 : BitVec 20).toNat ∧
     r.timedOut = false ∧ s.dev.xlt.want = [{ want0 with stage := .req 511 }] ∧ reqWants s.dev r = [{ want0 with stage := .req 511 }] ∧
     (fnReqs s.dev (0 : Fin 2) (0 : Fin 128)).find? (fun r => r.idx == (511 : Fin 512).val && !r.timedOut) = some r ∧
     after (.pageGroupResponse 0 0 511 0 0) s (fun u => u.dev.xlt.want == [{ want0 with succ := 1 }] && u.dev.xlt.reqs == []) = true ∧
     after (.priTimeout 0 0 511) s (fun u => fld (tileOf u.dev 0).core.cause 7 0 == 7 && (tileOf u.dev 0).core.badaddr == 0x7123) = true) ∧
    (let r : PageReq := ⟨1, 127, 1, 0, 7, false, false, 0, false, 0, 0⟩
     let s := dev fun d => { d with xlt := { xlt0 with reqs := [r] } }
     (fnReqs s.dev (1 : Fin 2) (127 : Fin 128)).find? (fun r => r.idx == (0 : Fin 512).val && !r.timedOut) = some r ∧
     reqWants s.dev r = [] ∧ (∀ w ∈ s.dev.xlt.want, w.stage = .walk) ∧
     after (.priDisable 1 127) s (fun u => u.dev.xlt.reqs == []) = true) := by decide +kernel

theorem test_meets_TranslationControlCompletes :
    (bit (0x8000000000000001 : Word) 63 = true ∧ Dev.reset.xlt.invQ.length < 16 ∧ Dev.reset.xlt.ats = []) ∧
    16 ≤ (List.replicate 16 (⟨1, false, 0, 0, none⟩ : InvReq)).length ∧
    (let s := dev fun d => { d with xlt := { xlt0 with invQ := [⟨1, true, 0, 5, none⟩] } }
     tagQuiet s.dev 1 = true ∧ s.dev.xlt.ats = [] ∧
     after .invalidationComplete s (fun u => u.dev.xlt.invQ == [] && u.dev.xlt.done == 1 && u.dev.dops.length == 1) = true) ∧
    (∀ n, n < 256 → (ctxFn Dev.reset n == ((1 : Fin 2).val, (127 : Fin 128).val) && ctxValid Dev.reset n) = false) ∧
    (let s := dev fun d => { d with xlt := xlt0 }
     (∀ m, m < 256 → ((ctxFn s.dev m == ((0 : Fin 2).val, (0 : Fin 128).val) && ctxValid s.dev m && ctxPasid s.dev m == (0 : BitVec 20).toNat) = true ↔ m = 1)) ∧
     after (.atsInvalidateRequest 0 0 (some 0)) s (fun u => u.dev.xlt.invQ == [⟨1, false, 0, 0, some 0⟩]) = true) ∧
    (let s := withDev State.reset (two go)
     ctxMayWrite s.dev .mgmt (255 : TileId) (0 : Fin 32) 1 = true ∧ (0 : Fin 32) ≠ 2 ∧ bit (1 : Word) 0 = true ∧
     (partSt s.dev (fld (1 : Word) 7 1)).state = 2) ∧
    (∀ n, n < 256 → ctxValid Dev.reset n = true → ctxFmt Dev.reset n ≠ (3 : Fin 4).val) ∧
    (let s := dev fun d => { d with xlt := { xlt0 with stops := [(255, 0, 0, 9)] } }
     s.dev.xlt.stops.find? (fun e => e.1 == (255 : TileId).val) = some (255, 0, 0, 9) ∧
     (∀ r ∈ s.dev.xlt.reqs, r.tag = (255 : TileId).val → r.timedOut = true) ∧
     after (.stopMarker 255) s (fun u => u.dev.out == [.stopMarker 0 0 9] && u.dev.xlt.stops == []) = true) := by decide +kernel

/-- R448: from the write of XLT_INV on no micro-TLB holds the tag. R433: a write of word 1 keeps its field bits. -/
theorem test_translation_control : after (.xltInvWrite 0x8000000000000001) (one { go with utlb := [⟨1, false, 0, 12, 0, true, true, true, true, true⟩] })
      (fun u => (tileOf u.dev 0).utlb == [] && u.dev.xlt.invQ.length == 1) = true ∧
    after (.xltCtxWrite .mgmt 3 1 0x5FFF) State.reset (fun u => ctxW u.dev 3 1 == 0x5000) = true ∧
    after (.xltFmtWrite .mgmt 2 2 0xFF) State.reset (fun u => xfmtW u.dev 2 2 == 0x3F) = true := by decide +kernel

/-! ### The host -/

/-- The part with port 0 linked and ready, HOSTID open, and CXL.cache. -/
def linked : Dev := { two go with hports := [(0, { HPort.reset with
  dlUp := true, rate := 5, width := 16, ready := true, linkDis := false, cache := true, fns := [(0, { FnSt.reset with memEn := true })] })]
                                  pwr := { PwrSt.reset with funcs := [(0, { FuncSt.reset with st := 3 })] } }

theorem test_meets_HostPortsComplete :
    (let h := { HPort.reset with linkDis := false }
     h.linkDis = false ∧ h.perst = false ∧ h.dlUp = false ∧ 1 ≤ (6 : Fin 7).val ∧ (6 : Fin 7).val ≤ fld h.ctl 3 1 ∧
     (16 : Fin 17).val ∈ [1, 2, 4, 8, 16] ∧ (16 : Fin 17).val ≤ fld h.ctl 8 4) ∧
    (hportOf linked (0 : Fin 2)).dlUp = true ∧ (hportOf linked (0 : Fin 2)).perst = false ∧ fnExists linked (0 : Fin 2) (0 : Fin 128) = true ∧
    ({ HPort.reset with down := some 0 } : HPort).down.isSome = true := by decide +kernel

/-- R466, R491, R490: training, the loss of the link, and the reset of a function. -/
theorem test_host_port : after (.hostLinkTraining 1 5 16 false false 0) (dev fun d => { d with hports := [(1, { HPort.reset with linkDis := false })] })
      (fun u => (hportOf u.dev 1).dlUp && (hportOf u.dev 1).rate == 5 && (hportOf u.dev 1).width == 16) = true ∧
    after (.dataLinkDown 0) (withDev State.reset linked) (fun u => !(hportOf u.dev 0).dlUp && (hportOf u.dev 0).down == some 0 &&
      (hportOf u.dev 0).stats == 1) = true ∧
    after (.functionLevelReset 0 0) (withDev State.reset linked) (fun u => !(fnOf u.dev 0 0).memEn) = true := by decide +kernel

theorem test_meets_HostRequestsComplete :
    (let s := withDev State.reset linked
     (hportOf s.dev (0 : Fin 2)).dlUp = true ∧ (hportOf s.dev (0 : Fin 2)).ready = true ∧ cfgReaches s.dev (0 : Fin 2) (0 : Fin 128) = true ∧
     (2 : Fin 32).val < 3 ∧ hostidOk s.dev 0 (0xFFFF : BitVec 16).toNat = true ∧
     barLive s.dev (0 : Fin 2) (0 : Fin 128) 1 (0x2FFFFC : BitVec 38).toNat 4 = true ∧
     bar2Tile s.dev (0 : Fin 2) (0 : Fin 128) (0x2FFFFC : BitVec 38).toNat = some (0 : TileId).val ∧ 0 < (4 : Fin 4097).val ∧
     0x2FFFFC + 4 ≤ 0x300000 ∧ s.dev.barq = [] ∧ bar2Busy (tileOf s.dev 0) 0x2FFFFC 4 = false ∧
     bar2Busy { go with dr := { DrawerSt.reset with zeroing := 0x20, zeroRun := some 5 } } 0x2FFFFC 4 = true ∧ bar2Private (tileOf s.dev 0) 0x2FFFFC 4 = false ∧
     (tileOf s.dev 0).inject = [] ∧ spadPoisoned (tileOf s.dev 0) 0x2FFFFC 4 = false ∧
     barLive s.dev (0 : Fin 2) 0 0 (BitVec.ofNat 38 (0x100000 + 0x1000 * 255 + 8 * 511)).toNat 8 = true ∧ boundPart s.dev (0 : Fin 2) 0 = some 0 ∧
     ([1, 0, 0, 0, 1, 0, 0, 0] : List Byte).length = 8 ∧ fld (BitVec.ofNat 64 (leNat [1, 0, 0, 0, 1, 0, 0, 0])) 33 32 ≠ 3 ∧
     fld (BitVec.ofNat 64 (leNat [1, 0, 0, 0, 1, 0, 0, 0])) 63 34 = 0) ∧
    (let h := { HPort.reset with dlUp := true }
     h.dlUp = true ∧ h.ready = false ∧ h.cache = false ∧ ({ h with cov := [[.store 1]] } : HPort).cov = [.store 1] :: []) ∧
    (let s := withDev State.reset { linked with
       tiles := [(0, goC fun c => { c with wait := .load ⟨4, 31, [(.host 0x1000, 0x2000, 4)], 4, 0⟩ })]
       hports := [(0, { hportOf linked 0 with cache := false })] }
     4 < 7 ∧ (hportOf s.dev (tilePort s.dev 0)).cache = false ∧ (tileOf s.dev 0).core.run = true ∧ ([1, 2, 3, 0x84] : List Byte).length = 4 ∧ partOf (tileOf s.dev 0) = some 0 ∧
     (fnOf s.dev (pPort (partSt s.dev 0)) (pFunc (partSt s.dev 0))).ctoDis = false ∧
     after (.hostReadCompletion (.core 0) (.data [1, 2, 3, 0x84])) s (fun u =>
       (tileOf u.dev 0).core.loads == [⟨31, 0xFFFFFFFF84030201, 3⟩]) = true ∧
     after (.completionTimeout (.core 0)) s (fun u => (tileOf u.dev 0).core.cause == 7 && (tileOf u.dev 0).core.badaddr == 0x2000) = true) := by
  decide +kernel

/-- R475, R476: a BAR2 write reaches the tile's scratchpad; a BAR0 write of a dowel adds to its COUNT; R470: BAR2 reads with
bits 2 and 3 set and its address bits. -/
theorem test_host_requests : let s := withDev State.reset linked
    after (.hostBarWrite 0 0 0 1 0x400010 [1, 2] false) s (fun u => (tileOf u.dev 1).spad == [(0x10, 1), (0x11, 2)]) = true ∧
    after (.hostBarRead 0 0 0 1 0x400010 2) s (fun u => u.dev.out == [.hostReply [0, 0] false]) = true ∧
    after (.hostBarWrite 0 0 0 0 0x101028 [3, 0, 0, 0, 0, 0, 0, 0] false) s (fun u => dowelCount u.dev 1 5 == 3) = true ∧
    after (.configRequest 0 0 0 (some 0)) s (fun u => !(fnOf u.dev 0 0).memEn && u.dev.out == [.cfgReply 0 0]) = true ∧
    after (.configRequest 0 0 14 (some 0x4000000005)) s (fun u => cfgRead u.dev 0 0 14 == 0x400000000C) = true := by decide +kernel

/-- A line of port 0 with the first byte 7, exclusively held. -/
def line5 : HLine := ⟨0, 5, 2, 7 :: List.replicate 63 0, false, false⟩

/-- A read of line 5 of port 0 by the core of a tile, the `n`-th access issued. -/
def read5 (t n : Nat) : HWait := ⟨0, 5, 0, 0, [], .load t, n, none, false⟩

/-- The part with port 0 linked and a host line cache as given. -/
def cached (f : HlcSt → HlcSt) : State := withDev State.reset { linked with hlc := f HlcSt.reset }

theorem test_meets_HostLineCacheCompletes :
    (isWatch (.load 3) = false ∧ hostRank (.load 0) < hostRank (.load 3)) ∧
    (let s := cached fun h => { h with lines := [line5], inq := [read5 3 0] }
     hlcFind s.dev 0 5 = some line5 ∧ 1 ≤ line5.st ∧ s.dev.hlc.wait = [] ∧ (0, 5) ∉ s.dev.hlc.reqs ∧
     after (.hlcRequest 0 5 [0] [] [] 0) s (fun u => u.dev.hlc.got == [⟨.load 3, 0, 5, line5.data, false⟩]) = true) ∧
    (let s := cached fun h => { h with inq := [read5 3 0, read5 0 1] }
     hlcFind s.dev 0 5 = none ∧ hlcEvict s.dev 0 5 = none ∧ s.dev.hlc.wait = [] ∧ (0, 5) ∉ s.dev.hlc.reqs ∧
     s.dev.hlc.reqs.countP (fun r => hlcSlice r.2 == hlcSlice 5) < 64 ∧
     after (.hlcRequest 0 5 [0, 1] [] [] 0) s (fun u => u.dev.hlc.wait == [read5 0 1, read5 3 0] && u.dev.hlc.reqs == [(0, 5)]) = true) ∧
    (let w : HWait := ⟨0, 5, 3, 60, [1, 2, 3, 4], .store 0, 0, none, false⟩
     let s := cached fun h => { h with lines := [line5], inq := [w] }
     s.dev.hlc.inq = [w] ∧ 2 ≤ line5.st ∧ s.dev.hlc.inject = false ∧ (60 : Fin 64).val + ([1, 2, 3, 4] : List Byte).length ≤ 64 ∧
     after (.hlcRequest 0 5 [0] [] [] 0) s (fun u => u.dev.hlc.lines.head?.map (fun l => (l.st, l.data.drop 59)) == some (3, [0, 1, 2, 3, 4])) = true) ∧
    (let s := cached fun h => { h with reqs := [(0, 5)], wait := [read5 3 0] }
     (0, 5) ∈ s.dev.hlc.reqs ∧ s.dev.hlc.reqs.Nodup ∧ (3 : Fin 4) ≠ 0 ∧ line5.data.length = 64 ∧ hlcFind s.dev 0 5 = none ∧
     s.dev.hlc.lines.countP (fun l => sameSet l.line 5) < 16 ∧ s.dev.hlc.wait = [read5 3 0] ∧
     after (.hlcFill 0 5 2 line5.data false) s (fun u => u.dev.hlc.lines == [line5] && u.dev.hlc.got.length == 1) = true) := by
  decide +kernel

theorem test_meets_HostLineCacheCompletes_snoops :
    (let s := cached fun h => { h with lines := [line5] }
     hlcFind s.dev 0 5 = some line5 ∧ hlcEvict s.dev 0 5 = none ∧ line5.locked = false ∧ line5.st ≠ 3 ∧
     s.dev.xlt.reqs.find? (fun r => r.port == 0 && r.entry / 64 == 5 && !r.timedOut) = none ∧
     after (.hostSnoop 0 5 1) s (fun u => u.dev.hlc.lines == []) = true) ∧
    (let r : PageReq := ⟨0, 0, 1, 0, 7, false, false, 511, false, 1, 0x147⟩
     let s := withDev State.reset { linked with hlc := { HlcSt.reset with lines := [line5] }, xlt := { xlt0 with reqs := [r] } }
     s.dev.xlt.reqs.find? (fun r => r.port == 0 && r.entry / 64 == 5 && !r.timedOut) = some r ∧ (hportOf s.dev 0).cache = true ∧
     hlcFind (modHlc s.dev (fun h => { h with lines := h.lines.erase line5 })) 0 5 = none ∧
     after (.hostSnoop 0 5 1) s (fun u => u.dev.hlc.wait.map (·.src) == [.watch 1] && u.dev.hlc.reqs == [(0, 5)]) = true) ∧
    (let s := cached fun h => { h with evict := [line5] }
     hlcEvict s.dev 0 5 = some line5 ∧ s.dev.hlc.wait = [] ∧ after (.evictionWritebackDone 0 5) s (fun u => u.dev.hlc.evict == []) = true) ∧
    (let s := withDev State.reset { linked with io := [(hlcReg 1, 0x140)] }
     let v : Word := 0x8000000000000001
     bit v 63 = true ∧ s.dev.hlc.preload = none ∧ fld v 15 0 ≠ 0 ∧ (hportOf s.dev (fld (ioGet s.dev (hlcReg 1)) 0 0)).cache = true ∧
     after (.hlcPreload (some v)) s (fun u => u.dev.hlc.preload == some (0, 5, 1, false)) = true) ∧
    (let s := cached fun h => { h with preload := some (0, 5, 1, false) }
     s.dev.hlc.preload = some (0, 5, 1, false) ∧ hlcFind s.dev 0 5 = none ∧ hlcEvict s.dev 0 5 = none ∧ (0, 5) ∉ s.dev.hlc.reqs ∧
     s.dev.hlc.wait = [] ∧ after (.hlcPreload none) s (fun u => u.dev.hlc.preload == none && u.dev.hlc.reqs == [(0, 5)]) = true) := by
  decide +kernel

/-! ### Queues and rings -/

/-- Submission queue 255 of partition 0 on port 0, enabled, with rings of 16 entries. -/
def queue0 : WqSt := { WqSt.reset with owned := true, en := true, ring := 0x10000, cq := 0x20000 }

/-- The part with that queue and context 1 of partition 0. -/
def queued (k : WqSt) (cache : Bool := false) : State := withDev State.reset { linked with
  wqs := [(255, k)], xlt := xlt0, hports := [(0, { hportOf linked 0 with cache := cache })] }

/-- A descriptor of sequence number 9 for context 1 (R514). -/
def order9 : List Word := [9, 1, 0, 0, 0, 0, 0, 0, 0, 0, 0, 0, 0, 0, 0, 0]

theorem test_meets_WorkQueueFills :
    (let s := queued queue0
     let k := wqOf s.dev 255
     k.en = true ∧ k.owned = true ∧ (partSt s.dev k.part).state ≠ 4 ∧ (partSt s.dev k.part).state ≠ 5 ∧ s.dev.coldRefuse = false ∧
     s.dev.hold = false ∧ ((16 : BitVec 32) - k.head).toNat ≤ ringLen k.ring ∧ ringLen k.ring < ((17 : BitVec 32) - k.head).toNat ∧ k.disp = none) ∧
    (let k := { WqSt.reset with owned := true }
     k.en = false ∧ k.owned = true) ∧
    (let s := queued { queue0 with tail := 1 }
     let k := wqOf s.dev 255
     order9.length = 16 ∧ k.disabling = false ∧ k.head ≠ k.tail ∧ k.fetched.length < 4 ∧ (partSt s.dev k.part).state = 2 ∧
     k.h < (order9.getD 0 0).toNat ∧ fld (order9.getD 1 0) 63 11 = 0 ∧ (bit (order9.getD 1 0) 8 = true ↔ order9.getD 2 0 ≠ 0) ∧
     ctxValid s.dev (fld (order9.getD 1 0) 7 0) = true ∧ ctxPart s.dev (fld (order9.getD 1 0) 7 0) = k.part ∧
     (hportOf s.dev (pPort (partSt s.dev k.part))).cache = false ∧ (hportOf s.dev (pPort (partSt s.dev k.part))).dlUp = true ∧
     after (.descriptorFetch 255 (some order9)) s (fun u => (wqOf u.dev 255).head == 1 && (wqOf u.dev 255).h == 9 &&
       u.dev.out == [.hostRead 0 0x10000 128]) = true) ∧
    (let s0 := queued { queue0 with tail := 1 } true
     let v := order9.flatMap (fun w => leBytes 8 w.toNat)
     let s := withDev s0 { s0.dev with hlc := { HlcSt.reset with
       got := [⟨.fetch 255, 0, 0x400, v.take 64, false⟩, ⟨.fetch 255, 0, 0x401, v.drop 64, false⟩] } }
     (hportOf s.dev 0).cache = true ∧ hostGot s.dev (.fetch 255) 0 0x10000 128 = some (v, false) ∧ wordsOfBytes 16 v = order9 ∧
     after (.descriptorFetch 255 (some [])) s (fun u => (wqOf u.dev 255).h == 9 && u.dev.hlc.got == []) = true) ∧
    (let o := newOrder (order9.set 1 0x101)
     let w : List Word := [1, 0, 0, 0, 0, 0, 0, 0, 0x204, 0x100, 8, 0]
     let s := queued { queue0 with fetched := [o] }
     (wqOf s.dev 255).fetched = o :: [] ∧ bit (o.d.getD 1 0) 8 = true ∧ o.grain.checked = false ∧ listBad s.dev (wqOf s.dev 255).part w = false ∧
     (hashEntries s.dev 0 w (fun e => e.kind != 4) (List.range (declCount w)) [] { GrainSt.reset with entries := w, checked := true }).defect = false ∧
     (hashEntries s.dev 0 w (fun e => e.kind != 4) (List.range (declCount w)) [] { GrainSt.reset with entries := w, checked := true }).poison = false) := by
  decide +kernel

/-- R512, R513, R523: a doorbell within the ring sets TAIL, one beyond only counts; a head that the host writes is taken. -/
theorem test_queue : after (.wqDoorbell 255 16) (queued queue0) (fun u => (wqOf u.dev 255).tail == 16) = true ∧
    after (.wqDoorbell 255 17) (queued queue0) (fun u => (wqOf u.dev 255).tail == 0 && (wqOf u.dev 255).refused == 1) = true ∧
    after (.wqCqheadWrite 255 3) (queued queue0) (fun u => (wqOf u.dev 255).cqHead == 3) = true := by decide +kernel

theorem test_meets_WorkOrderRuns :
    (let o := newOrder order9
     let s := queued { queue0 with fetched := [o] }
     let k := wqOf s.dev 255
     k.fetched = o :: [] ∧ s.dev.hold = false ∧ k.disp = none ∧ k.disabling = false ∧ (partSt s.dev k.part).state = 2 ∧ cqFull k = false ∧
     k.waiting = [] ∧ bit (o.d.getD 1 0) 8 = false ∧ ctxValid s.dev (fld (o.d.getD 1 0) 7 0) = true ∧
     ctxPart s.dev (fld (o.d.getD 1 0) 7 0) = k.part ∧ bit (o.d.getD 1 0) 10 = false ∧
     after (.workOrderDispatch 255) s (fun u => (tileOf u.dev 0).core.mbox == 0x575100FF && (wqOf u.dev 255).disp.isSome) = true) ∧
    (let o := newOrder order9
     let s := queued { queue0 with disp := some o }
     let k := wqOf s.dev 255
     k.disp = some o ∧ mayEnd s.dev (.tile 0) k = true ∧ k.doneSt = none ∧ k.disabling = false ∧
     (∀ t ∈ membersOf (partSt s.dev k.part), engineWork (tileOf s.dev t) (woCtx o) = false) ∧ bit (o.d.getD 1 0) 8 = false ∧
     s.dev.bm.st ≠ 2 ∧ o.charged = none ∧ o.link = false ∧ o.reset = false ∧ (hportOf s.dev (pPort (partSt s.dev k.part))).lost = false ∧
     o.grain.poison = false ∧ after (.wqDoneWrite (.tile 0) 255 0 []) s (fun u => (wqOf u.dev 255).disp == none &&
       (wqOf u.dev 255).waiting.length == 1) = true) ∧
    (let r : CqRec := ⟨false, [9], false⟩
     let r31 : CqRec := ⟨false, List.replicate 31 7, false⟩
     let s := queued { queue0 with waiting := [r], cqTail := 17, cqHead := 2 }
     let k := wqOf s.dev 255
     k.waiting = r :: [] ∧ k.en = true ∧ cqFull k = false ∧ awaitsError s.dev k r = false ∧ r31.proper.length = 31 ∧
     (hportOf s.dev (pPort (partSt s.dev k.part))).dlUp = true ∧ (hportOf s.dev (pPort (partSt s.dev k.part))).cache = false ∧
     after (.completionRecordWrite 255) (queued { queue0 with waiting := [r31] } true) (fun u => u.dev.hlc.inq.map (·.line) == [0x800, 0x801, 0x802, 0x803]) = true ∧
     after (.completionRecordWrite 255) s (fun u => u.dev.out == [.hostWrite 0 0x20100 [0x10000, 9]]) = true) := by decide +kernel

theorem test_meets_ErrorRingsComplete :
    (bit RingSt.reset.w1 0 = false ∧ RingSt.reset.queue = []) ∧
    (let e : ErrRec := ⟨some 0, 3, 0x1002, 1, none, none, false, false, 0, 0, 1, 0, 0, 1⟩
     let s := withDev State.reset { linked with rings := [(0, { RingSt.reset with w1 := 1, w0 := 0x4000, tail := 64, head := 1, queue := [e] })]
                                                hports := [(0, { hportOf linked 0 with cache := false })] }
     let r := ringOf s.dev (0 : Fin 128)
     r.queue = e :: [] ∧ bit r.w1 0 = true ∧ r.held = false ∧ (hportOf s.dev (pPort (partSt s.dev 0))).dlUp = true ∧ (r.tail - r.head).toNat ≠ ringSlots r ∧
     (hportOf s.dev (pPort (partSt s.dev 0))).cache = false ∧ after (.errorRingRecord 0) s (fun u => (ringOf u.dev 0).tail == 65 && u.dev.out == [.hostWrite 0 0x4000 (recordWords s.dev e 0 0)]) = true) ∧
    (let e : ErrRec := ⟨some 0, 3, 0x1002, 1, none, none, false, false, 0, 0, 1, 0, 0, 1⟩
     let s := withDev State.reset { linked with rings := [(0, { RingSt.reset with w1 := 1, queue := [e] })], hports := [] }
     (ringOf s.dev (0 : Fin 128)).held = false ∧ (hportOf s.dev (pPort (partSt s.dev 0))).dlUp = false ∧
     after (.errorRingRecord 0) s (fun u => (ringOf u.dev 0).held && (ringOf u.dev 0).queue == [e] && u.dev.out == s.dev.out) = true) ∧
    (let s := withDev State.reset { linked with
       rings := [(0, { RingSt.reset with msiPend := true, msiAt := some 5 })], time := 10005
       hports := [(0, { HPort.reset with dlUp := true, fns := [(0, { FnSt.reset with msixEn := true, msix := [(1, 0)] })] })] }
     let r := ringOf s.dev (0 : Fin 128)
     r.msiPend = true ∧ hostPending s.dev (.ring 0) = false ∧ (5 + 10000 ≤ s.dev.time) ∧ (fnOf s.dev 0 0).msixEn = true ∧ (fnOf s.dev 0 0).msixMask = false ∧
     bit (mget (msixReset (2 * fld r.w1 13 3 + 1)) (fnOf s.dev 0 0).msix (2 * fld r.w1 13 3 + 1)) 32 = false ∧
     after (.errorRingMsix 0) s (fun u => u.dev.out == [.msix 0 0 0] && (ringOf u.dev 0).msiAt == some 10005) = true) := by decide +kernel

/-- The part in Smoulder with its rails up and leaf 0 powered. -/
def up : Dev := { linked with pwr := { PwrSt.reset with seq := 6, funcs := [(0, { FuncSt.reset with st := 3 }), (1, { FuncSt.reset with st := 3 })] } }

theorem test_meets_RegisterAccessesComplete :
    (let s := withDev State.reset { up with tiles := [(255, Tile.reset)] }
     s.dev.pf.phase ≠ 2 ∧ railsUp s.dev = true ∧ (funcOf s.dev ((255 : TileId).val / 128)).st = 3 ∧ (tileOf s.dev 255).core.halted = true ∧
     after (.registerWrite .mgmt (some 255) 0x1F8 false 9) s (fun u => getG (tileOf u.dev 255) 31 == 9) = true) ∧
    ioInReset Dev.reset ((0x080018 : BitVec 24).toNat / 8 * 8) = true ∧
    after (.registerWrite .mgmt none 0x080018 false 0x123FF5) (withDev State.reset up) (fun u => (wqOf u.dev 0).ring == 0x123005) = true ∧
    after (.rcRead (.host 0 0) (some 0) 0x740 false) (withDev State.reset { up with
      tiles := [(0, { go with dr := { DrawerSt.reset with ecc := 0x0005000000000003 } })] })
      (fun u => (tileOf u.dev 0).dr.ecc == 0x0005000000000000) = true := by decide +kernel

/-! ### Stacked memory -/

/-- The part with set 0 at base 0 over pseudo-channels 0 and 191 (R534, R535). -/
def set0 (d : Dev) : Dev := { d with io := [(0x0A1000, 1), (0x0A1008, 1), (0x0A1018, 0x8000000000000000)] }

theorem test_meets_InterleaveIsOneToOne :
    let s := set0 Dev.reset
    setList s 0 = [0, 191] ∧ setBase s 0 ≤ 0 ∧ 2 * (9 * 2 ^ 27) - 1 < setBase s 0 + setSize s 0 ∧ 9 * 2 ^ 27 - 1 < pcCap s := by
  decide +kernel

/-- R535: granule 1 lies in the second pseudo-channel; in row 1 the rotation by one puts granule 2 there as well. -/
theorem test_interleave : setMap (set0 Dev.reset) 0 0x105 = (191, 5) ∧ setMap (set0 Dev.reset) 0 0x200 = (191, 0x100) ∧
    setMap (set0 Dev.reset) 0 0x300 = (0, 0x100) := by decide +kernel

theorem test_meets_StackedMemoryReadsBack :
    let s := set0 Dev.reset
    ([1, 2] : List Byte) ≠ [] ∧ 0x1FE % 256 + ([1, 2] : List Byte).length ≤ 256 ∧ stackAt s 0x1FE = some (stackKey 191 0xFE) ∧
    pcOut s (stackKey 191 0xFE / 2 ^ 31) = false ∧ mwf 0 s.stack = true ∧ mwf false s.stackPoison = true ∧
    stackGet (stackPut s 0x1FE [1, 2]) 0x1FE 2 = [1, 2] := by decide +kernel

theorem test_meets_StackedMemoryCompletes :
    (let q : HbmReq := ⟨5, 0x1F8, [1, 2, 3, 4, 5, 6, 7, 8]⟩
     let s := dev fun d => { set0 d with hbm := { HbmSt.reset with inq := [q] } }
     nextWrite s.dev (191 : Fin 192) = some q ∧ stackAt s.dev q.addr = some (stackKey 191 0xF8) ∧ q.data ≠ [] ∧
     q.addr % 256 + q.data.length ≤ 256 ∧ s.dev.knots.eff.pcOut = [] ∧
     after (.memoryWriteAccept 191) s (fun u => stackGet u.dev 0x1F8 2 == [1, 2] && mget [] u.dev.hbm.queue 191 == [0xF8]) = true) ∧
    (let s := dev fun d => { d with hbm := { HbmSt.reset with queue := [(191, [0x40])] } }
     hasHbm s.dev = true ∧ pcOut s.dev (191 : Fin 192) = false ∧ mget [] s.dev.hbm.queue (191 : Fin 192).val = 0x40 :: [] ∧
     s.dev.hbm.copying = [] ∧ (0x47FFFFC0 : Fin 0x80000000).val < pcCap s.dev ∧ mget [] s.dev.hbm.queue (0 : Fin 192).val = [] ∧
     scrubTurn s.dev 191 = false ∧ scrubTurn s.dev 0 = false ∧ bankClosed s.dev 191 0x40 = false ∧ bankClosed s.dev 0 0x47FFFFC0 = false ∧
     after (.hbmCommandSlot 0 0x47FFFFC0 2) s (fun u => mget false u.dev.stackPoison (0x47FFFFC0 / 64)) = true) ∧
    (let s := dev fun d => { d with hbm := { HbmSt.reset with wb := [(191, 3)], scrubPos := [(0, 9 * 2 ^ 21 - 1)] } }
     s.dev.hbm.wb.find? (fun w => w.1 == (191 : Fin 192).val) = some (191, 3) ∧ s.dev.hbm.wb.find? (fun w => w.1 == (0 : Fin 192).val) = none ∧
     s.dev.hbm.inject.contains (0 : Fin 192).val = false ∧ pcUnits s.dev ≤ mget 0 s.dev.hbm.scrubPos (0 : Fin 192).val + 1 ∧
     mget 0 s.dev.hbm.scrubPos (1 : Fin 192).val + 1 < pcUnits s.dev ∧ fullLayer s.dev = false ∧ pcFixed s.dev 0 = false ∧
     after (.hbmScrubSlot 0 0) s (fun u => mget 0 u.dev.hbm.scrubPos 0 == 0 && mget 0 u.dev.hbm.scrubPass 0 == 1) = true) ∧
    (let s := dev fun d => { d with hbm := { HbmSt.reset with slots := [(191, 50)], queue := [(191, [0x40])] } }
     hasHbm s.dev = true ∧ pcOut s.dev 191 = false ∧ scrubTurn s.dev 191 = true ∧ s.dev.hbm.inject.contains (191 : Fin 192).val = false ∧
     after (.hbmCommandSlot 191 0 0) s (fun u => mget [] u.dev.hbm.queue 191 == [0x40] && mget 0 u.dev.hbm.slots 191 == 51) = true ∧
     after (.refresh 191) s (fun u => mget 0 u.dev.hbm.slots 191 == 51 && scrubTurn u.dev 191) = true) ∧
    (let s := dev fun d => { d with time := 31502000 - 2001, timeValid := true, hbm := { HbmSt.reset with trained := [(5, true)] } }
     hasHbm s.dev = true ∧ mget false s.dev.hbm.trained (pcStack (191 : Fin 192)) = true ∧ memWindow s.dev 191 = false ∧
     memWindow { s.dev with time := 31500000 } 191 = true ∧ memWindow { s.dev with time := 31502000 } 191 = false) := by decide +kernel

theorem test_meets_StackedMemoryCompletes_rows :
    (let s := dev fun d => { d with hbm := { HbmSt.reset with rowsBad := [(191, 63, 7)] } }
     s.dev.hbm.rowsBad.find? (fun r => !(s.dev.hbm.copying.any (fun c => c.1 == r.1 && c.2.1 == r.2.1))) = some (191, 63, 7) ∧
     sparesUsed s.dev 191 63 < 4 ∧ after (.rowRemap 0) s (fun u => u.dev.hbm.copying == [(191, 63, 7)]) = true) ∧
    (let s := dev fun d => { d with hbm := { HbmSt.reset with copying := [(191, 63, 7)], rowsBad := [(191, 62, 7)] } }
     s.dev.hbm.copying = (191, 63, 7) :: [] ∧ fullLayer s.dev = false ∧
     after .rowRemapDone s (fun u => u.dev.hbm.copying == [] && u.dev.knots.flashPend == [.repair (hbmRepair (191, 63, 7))]) = true) ∧
    (let s := dev fun d => { d with knots := { d.knots with flashPend := List.replicate 4 (.repair (hbmRepair (191, 63, 7))) }
                                    hbm := { HbmSt.reset with rowsBad := [(191, 63, 7)] } }
     4 ≤ sparesUsed s.dev 191 63 ∧ after (.rowRemap 16) s (fun u => pcOut u.dev 191) = true) ∧
    (let s := dev fun d => { d with hbm := { HbmSt.reset with powered := [(5, true)] } }
     mget false s.dev.hbm.powered (5 : Fin 6).val = true ∧ mget false s.dev.hbm.trained (5 : Fin 6).val = false ∧
     after (.stackTraining 5 [191]) s (fun u => mget false u.dev.hbm.init 5 && pcOut u.dev 191) = true) ∧
    (let s := dev fun d => { d with hbm := { HbmSt.reset with trained := [(5, true)], init := [(5, true)] }
                                    stack := [(160 * 2 ^ 31 - 1, 1), (160 * 2 ^ 31, 2), (192 * 2 ^ 31 - 1, 3)] }
     mget false s.dev.hbm.trained (pcStack (191 : Fin 192)) = true ∧ mget false s.dev.hbm.init (5 : Fin 6).val = true ∧
     after (.stackZeroFillDone 5) s (fun u => u.dev.stack == [(160 * 2 ^ 31 - 1, 1)]) = true) := by decide +kernel

/-- The part 10 ms after a stack at the highest rate fell to 92 °C. -/
def cooled : State := dev fun d => { d with time := 10000005, timeValid := true, hbm := { HbmSt.reset with rate := [(0, 2)], cool := [(0, some 5)] } }

/-- R548: 95 °C asks for the highest rate at once; 93 °C keeps it; 92 °C lowers it after 10 ms, and not before. -/
theorem test_refresh_rate : after (.refreshRateChange 0 95) State.reset (fun u => mget 0 u.dev.hbm.rate 0 == 2) = true ∧
    after (.refreshRateChange 0 93) cooled (fun u => mget 0 u.dev.hbm.rate 0 == 2) = true ∧
    after (.refreshRateChange 0 92) cooled (fun u => mget 0 u.dev.hbm.rate 0 == 1) = true ∧
    after (.refreshRateChange 0 92) (withDev cooled { cooled.dev with time := 10000004 }) (fun u => mget 0 u.dev.hbm.rate 0 == 2) = true := by
  decide +kernel

/-! ### Lenys -/

/-- The part in slot 0 of cabinet 7 with a port in a state. -/
def lnk (p st : Nat) (f : LPort → LPort := id) : Dev :=
  { Dev.reset with lny := { LenySt.reset with cabId := 7, inc := 1, ports := [(p, f { LPort.reset with st := st })] } }

/-- A barrier arrive from slot 1 in incarnation 4 for this part. -/
def arrive1 : StreamMsg := ⟨1, 0, 1, 4, 1, .barrier 0 3 0 0 1, false, none⟩

theorem test_meets_LenysLinksComplete :
    (let s := withDev State.reset (lnk 15 1)
     portOut s.dev (15 : Fin 16) = false ∧ (lportOf s.dev (15 : Fin 16)).st = 1 ∧ expectFar s.dev.lny.slot (15 : Fin 16) = ((164 : TileId).val, (15 : Fin 16).val) ∧
     (7 : BitVec 32) = s.dev.lny.cabId ∧ (7 : BitVec 32) ≠ 0 ∧ (ltxOf s.dev (164 : TileId)).inc = 0 ∧
     expectFar s.dev.lny.slot (15 : Fin 16) ≠ ((163 : TileId).val, (15 : Fin 16).val) ∧
     after (.lenysTraining 15 false 164 15 7 0 true) s (fun u => (lportOf u.dev 15).st == 2) = true ∧
     after (.lenysTraining 15 false 163 15 7 0 true) s (fun u => (lportOf u.dev 15).st == 5) = true) ∧
    (let s := withDev State.reset (lnk 0 2 fun q => { q with rxSeq := 1023, replay := [(0, arrive1), (1, arrive1)] })
     (lportOf s.dev (0 : Fin 16)).st = 2 ∧ (1023 : Fin 1024).val = (lportOf s.dev (0 : Fin 16)).rxSeq ∧ (5 : Fin 1024).val ≠ (lportOf s.dev (0 : Fin 16)).rxSeq ∧
     15 < 16 ∧ after (.codewordReceive 0 1023 0 0 false [arrive1]) s (fun u => u.dev.lny.inbox == [arrive1] && (lportOf u.dev 0).rxSeq == 0 &&
       (lportOf u.dev 0).replay == [(1, arrive1)]) = true ∧
     (lportOf s.dev (0 : Fin 16)).outq = [] ∧ (lportOf s.dev (0 : Fin 16)).again < 7 ∧
     after (.linkReplay 0 1) s (fun u => u.dev.out == [.lenys 0 .req0 1 1022 arrive1]) = true) ∧
    (let s := withDev State.reset (lnk 0 2 fun q => { q with again := 7, outq := [arrive1], replay := [(0, arrive1)], txSeq := 1 })
     (lportOf s.dev (0 : Fin 16)).st = 2 ∧ 7 ≤ (lportOf s.dev (0 : Fin 16)).again ∧ portOut s.dev (0 : Fin 16) = false ∧
     (∀ e ∈ (lportOf s.dev (0 : Fin 16)).replay, ((0 : Fin 1024).val + 1024 - e.1) % 1024 < 512) ∧
     after (.linkReplay 0 0) s (fun u => (lportOf u.dev 0).st == 1 && (lportOf u.dev 0).replay == []) = true) ∧
    (let s := withDev State.reset { lnk 12 2 with time := 12 * 62000000 + 300000, timeValid := true }
     (lportOf s.dev (12 : Fin 16)).st = 2 ∧ lenysWindow s.dev 12 = true ∧ lenysWindow { s.dev with time := 12 * 62000000 + 320000 } 12 = false) ∧
    (let s := withDev State.reset { lnk 3 2 with knots := { Dev.reset.knots with flashPend := [.lane 3 0x47] } }
     portOut s.dev (3 : Fin 16) = true ∧ after (.portRetrain 3) s (fun u => (lportOf u.dev 3).st == 4) = true) ∧
    ((lportOf (lnk 3 5) (3 : Fin 16)).st = 5) ∧
    (laneEntry Dev.reset (3 : Fin 16).val / 64 ≠ 1 ∧ laneEntry Dev.reset (3 : Fin 16).val % 8 ≠ 7 ∧ fullLayer Dev.reset = false) ∧
    (let s := withDev State.reset { lnk 3 2 with knots := { Dev.reset.knots with flashPend := [.lane 3 0x0F] } }
     laneEntry s.dev (3 : Fin 16).val / 64 ≠ 1 ∧ laneEntry s.dev (3 : Fin 16).val % 8 = 7 ∧
     after (.laneFail 3 2) s (fun u => (lportOf u.dev 3).st == 4) = true) := by decide +kernel

theorem test_meets_LenysStreamsComplete :
    (let t : LTx := { LTx.reset with kept := [(1, .resetNotice 1)], path := some 9 }
     let s := withDev State.reset { lnk 8 2 with lny := { (lnk 8 2).lny with tx := [(1, t)] } }
     s.dev.lny.tx = [((1 : TileId).val, ltxOf s.dev (1 : TileId))] ∧ s.dev.lny.held = [] ∧ (ltxOf s.dev (1 : TileId)).kept ≠ [] ∧
     hopPorts s.dev s.dev.lny.slot (1 : TileId) = 8 :: [] ∧ (ltxOf s.dev (1 : TileId)).path ≠ some 8 ∧ (1 : TileId).val ≠ s.dev.lny.slot ∧
     (ltxOf s.dev (1 : TileId)).kept.length ≤ 4096 ∧ (ltxOf s.dev (1 : TileId)).retries < 64 ∧ reachable s.dev (1 : TileId) = true ∧
     after (.e2eAck 1 1 [] 0 1 false) s (fun u => (ltxOf u.dev 1).kept == []) = true ∧
     after (.e2eRetransmit 1) s (fun u => (ltxOf u.dev 1).retries == 1 && u.dev.out.length == 1) = true) ∧
    (let m := { arrive1 with dst := 1, src := 2 }
     let s := withDev State.reset { lnk 9 2 with lny := { (lnk 9 2).lny with inbox := [m] } }
     s.dev.lny.inbox.find? (fun m => m.src == (2 : TileId).val) = some m ∧ m.dst ≠ s.dev.lny.slot ∧ hopPorts s.dev m.src m.dst = 9 :: [] ∧
     m.det = none ∧ (lportOf s.dev 9).replay = [] ∧ (lportOf s.dev 9).outq = [] ∧
     after (.e2eReceive 2) s (fun u => u.dev.out.length == 1 && u.dev.lny.inbox == []) = true) ∧
    (let m := { arrive1 with dst := 1, src := 2 }
     let s := withDev State.reset { lnk 9 3 with lny := { (lnk 9 3).lny with inbox := [m] } }
     hopPorts s.dev m.src m.dst = [] ∧ m.src ≠ s.dev.lny.slot ∧
     after (.e2eReceive 2) s (fun u => u.dev.lny.held == [m] && u.dev.lny.inbox == []) = true) ∧
    (let s := withDev State.reset { Dev.reset with lny := { (lnk 0 0).lny with inbox := [arrive1], tx := [(1, { LTx.reset with inc := 4 })] } }
     s.dev.lny.inbox.find? (fun m => m.src == (1 : TileId).val) = some arrive1 ∧ arrive1.dst = s.dev.lny.slot ∧ arrive1.dinc = s.dev.lny.inc ∧
     (ltxOf s.dev (1 : TileId)).inc = arrive1.inc ∧ arrive1.seq = (lrxOf s.dev (1 : TileId)).expect ∧ arrive1.m = .barrier 0 3 0 0 1 ∧
     after (.e2eReceive 1) s (fun u => u.dev.lny.ctl == [(1, arrive1.m)] && (lrxOf u.dev 1).expect == 2) = true) ∧
    (let s := withDev State.reset { Dev.reset with lny := { (lnk 0 0).lny with inc := 2, inbox := [arrive1] } }
     arrive1.dst = s.dev.lny.slot ∧ arrive1.dinc ≠ s.dev.lny.inc) ∧
    (let s := withDev State.reset { Dev.reset with lny := { (lnk 0 0).lny with
       inbox := [arrive1], tx := [(1, { LTx.reset with inc := 4 })], rx := [(1, { LRx.reset with expect := 2 })] } }
     2 ^ 31 ≤ (arrive1.seq - (lrxOf s.dev (1 : TileId)).expect).toNat ∧ arrive1.dinc = s.dev.lny.inc ∧
     after (.e2eReceive 1) s (fun u => u.dev.lny.ctl == [] && u.dev.out == [.lenysAck 1 1 [] 1 false]) = true) ∧
    (let s := withDev State.reset { Dev.reset with lny := { (lnk 0 0).lny with
       ctl := [(1, .resetNotice 8)], tx := [(1, { LTx.reset with inc := 4, retries := 64 })] } }
     s.dev.lny.grps = [] ∧ (ltxOf s.dev (1 : TileId)).kept = [] ∧ (1 : TileId).val ≠ s.dev.lny.slot ∧ isUnreach s.dev (1 : TileId) = false ∧
     64 ≤ (ltxOf s.dev (1 : TileId)).retries ∧
     s.dev.lny.ctl = [((1 : TileId).val, .resetNotice 8)] ∧ (ltxOf s.dev (1 : TileId)).inc ≠ 0 ∧
     (ltxOf s.dev (1 : TileId)).inc ≠ 8 + 1 ∧
     after (.destinationUnreachable 1) s (fun u => isUnreach u.dev 1) = true ∧
     after .resetNotice s (fun u => (ltxOf u.dev 1).inc == 9 && u.dev.lny.ctl == []) = true) ∧
    (let s := withDev State.reset { Dev.reset with
       lny := { (lnk 0 0).lny with ctl := [(1, .buildNotice 3 9)] }, io := [(bindBase, 0x1 + 2 ^ 9 + 3 * 2 ^ 17)] }
     s.dev.lny.ctl = [((1 : TileId).val, .buildNotice 3 9)] ∧ s.dev.tiles = [] ∧ (chanOf Tile.reset 3).run = none ∧
     after .buildNotice s (fun u => bit (bindW u.dev 0 0) 1 && u.dev.lny.ctl == []) = true) := by decide +kernel

theorem test_meets_CabinetBarriersAndTimeComplete :
    (let q : LGrp := { LGrp.reset with valid := true, m0 := 3, gen := 0xFFFF, bits := [0] }
     let s := withDev State.reset { Dev.reset with lny := { (lnk 0 0).lny with grps := [(127, q)], ctl := [(1, .barrier 0 127 0xFFFF 0 1)] } }
     s.dev.lny.ctl = [(1, .barrier 0 127 0xFFFF 0 1)] ∧ (grpOf s.dev 127).valid = true ∧ groupChannel s.dev 127 = none ∧
     grpRoot (grpOf s.dev 127) = s.dev.lny.slot ∧ (grpMembers (grpOf s.dev 127)).contains 1 = true ∧ (grpOf s.dev 127).bits.contains 1 = false ∧
     (∀ m ∈ grpMembers (grpOf s.dev 127), ((grpOf s.dev 127).bits ++ [1]).contains m = true) ∧
     after .barrierArriveAtRoot s (fun u => (grpOf u.dev 127).gen == 0 && (grpOf u.dev 127).bits == []) = true) ∧
    (let q : LGrp := { LGrp.reset with valid := true, m0 := 7 }
     ∃ m ∈ grpMembers q, (q.bits ++ [1]).contains m = false) ∧
    (let q : LGrp := { LGrp.reset with valid := true, m0 := 3, gen := 5, aborts := 2 }
     let s (kind : Nat) := withDev State.reset { Dev.reset with
       lny := { (lnk 0 0).lny with slot := 1, grps := [(127, q)], ctl := [(0, .barrier kind 127 5 2 1)] } }
     (s 1).dev.lny.ctl = [(0, .barrier 1 127 5 2 1)] ∧ grpRoot (grpOf (s 1).dev 127) = 0 ∧ (grpOf (s 1).dev 127).gen = 5 ∧
     (grpOf (s 1).dev 127).aborts = 2 ∧ groupChannel (s 1).dev 127 = none ∧
     after .barrierRelease (s 1) (fun u => (grpOf u.dev 127).gen == 6) = true ∧
     after .barrierRelease (s 2) (fun u => (grpOf u.dev 127).gen == 0 && (grpOf u.dev 127).aborts == 2) = true) ∧
    (let q : LGrp := { LGrp.reset with valid := true, m0 := 3, gen := 5, aborts := 2 }
     let s := withDev State.reset { Dev.reset with lny := { (lnk 0 0).lny with grps := [(127, q)], ctl := [(1, .barrier 3 127 5 2 1)] } }
     grpRoot (grpOf s.dev 127) = s.dev.lny.slot ∧ (grpMembers (grpOf s.dev 127)).contains 1 = true ∧
     after .barrierAbort s (fun u => (grpOf u.dev 127).aborts == 3) = true) ∧
    (let s := withDev State.reset { Dev.reset with lny := { (lnk 8 2).lny with master := 1 } }
     s.dev.lny.master ≠ s.dev.lny.slot ∧ parentPath s.dev = true ∧
     after (.timeExchange 3 1000) s (fun u => u.dev.time == 1000 && u.dev.timeValid && u.dev.lny.depth == 1) = true) ∧
    (let s := withDev State.reset { Dev.reset with lny := { (lnk 8 3).lny with master := 1 } }
     parentPath s.dev = false ∧ after .holdover s (fun u => u.dev.lny.holdover) = true) := by decide +kernel

/-! ### Partitions, repair -/

/-- A built partition request of number 5: tiles 2 and 3, port 0, function 0, weight 1 (R635, R611). -/
def asked (d : Dev) : Dev := { d with io := [(reqReg 0, 0x1000000081005), (reqReg 1, 0x10000)], mgmt := { MgmtSt.reset with tmOk := true } }

theorem test_meets_PartitionsComplete :
    (let s := withDev State.reset (asked Dev.reset)
     s.dev.partCmd.busy = false ∧ bit (0 : Word) 10 = false ∧ cmdHeld s.dev (setBit (setFld (0 : Word) 1 0 1) 63 true) = false ∧
     buildCheck s.dev = (0, 0) ∧ after (.partBuild 0) s (fun u => (partSt u.dev 5).state == 2 && (tileOf u.dev 2).member == 6 &&
       u.dev.partCmd == ⟨false, 5, 0, 0, 0⟩) = true) ∧
    (let s := withDev State.reset { asked Dev.reset with tiles := [(3, go)] }
     cmdHeld s.dev (setBit (setFld (0 : Word) 1 0 1) 63 true) = false ∧ buildCheck s.dev = (5, 3) ∧
     after (.partBuild 0) s (fun u => u.dev.partCmd == ⟨false, 5, 5, 3, 0⟩) = true) ∧
    (let s := withDev State.reset { two go with mgmt := { MgmtSt.reset with tmOk := true } }
     let v : Word := 0x200
     s.dev.mgmt.tmOk = true ∧ catClass (0x1002 : BitVec 16).toNat = some 1 ∧ (0x1002 : BitVec 16) ≠ 0xA002 ∧ s.dev.pf.phase = 0 ∧
     (partSt s.dev (fld v 8 2)).state ≠ 0 ∧ cmdHeld s.dev (setBit (setFld v 1 0 2) 63 true) = false ∧
     cmdHeld s.dev (setBit (setFld v 1 0 3) 63 true) = false ∧ bit v 9 = true ∧
     (∀ t ∈ membersOf (partSt s.dev (fld v 8 2)), physOf s.dev t ≠ 0x1FF) ∧
     (∀ q ∈ queuesOf s.dev 0, (wqOf s.dev q).disp = none) ∧ (partSt s.dev (0 : Fin 128)).valid = true ∧ (partSt s.dev (0 : Fin 128)).state = 2 ∧
     ((partSt s.dev (0 : Fin 128)).fatals.filter (fun t => decide (s.dev.time < t + 1000000000))).length < 7 ∧
     after (.partReset v) s (fun u => (partSt u.dev 0).state == 2 && (partSt u.dev 0).build == 5) = true ∧
     after (.partitionFatal 0 0x1002 none) s (fun u => (partSt u.dev 0).state == 2) = true ∧
     after (.partTeardown v) s (fun u => (partSt u.dev 0).state == 0 && (tileOf u.dev 0).member == 0) = true) ∧
    (let s := withDev State.reset (two go)
     s.dev.mgmt.tmOk = false ∧ fwUp s.dev = false ∧ fwUp { s.dev with mgmt := { MgmtSt.reset with stage := 2 } } = true ∧
     after (.partReset 0) s (fun u => u.dev.partCmd == ⟨false, 0, 7, 0xFF, 0⟩) = true ∧
     after (.partitionFatal 0 0x1002 none) s (fun u => (partSt u.dev 0).state == 3 && u.dev.rebuild == [(0, 0x1002)]) = true) ∧
    (let s := withDev State.reset { two go with knots := { Dev.reset.knots with eff := applyEntry KnotMap.factory (.tileDead 0 0 0 (some 8)) } }
     (membersOf (partSt s.dev 0)).find? (fun t => physOf s.dev t == 0x1FF) = some 0 ∧ cmdHeld s.dev (setBit (setFld (0 : Word) 1 0 2) 63 true) = false ∧
     after (.partReset 0) s (fun u => u.dev.partCmd == ⟨false, 0, 6, 0, 0⟩) = true) ∧
    (let s := withDev State.reset { two go with knots := { Dev.reset.knots with jobs := [⟨0, 0, 8, 0, [], 0⟩] } }
     cmdHeld s.dev (setBit (setFld (0 : Word) 1 0 2) 63 true) = true ∧
     after (.partReset 0) s (fun u => u.dev.partCmd.busy && u.dev.partCmd.held == setBit (setFld (0 : Word) 1 0 2) 63 true) = true) ∧
    (let v : Word := 0
     let s := withDev State.reset { two go with
       partCmd := ⟨true, 0, 0, 0, setBit (setFld v 1 0 2) 63 true⟩, mgmt := { MgmtSt.reset with tmOk := true } }
     s.dev.partCmd.busy = true ∧ s.dev.mgmt.tmOk = true ∧ s.dev.partCmd.held = setBit (setFld v 1 0 2) 63 true ∧ bit v 10 = false ∧
     cmdHeld s.dev (setBit (setFld v 1 0 2) 63 true) = false ∧ (partSt s.dev (fld v 8 2)).state ≠ 0 ∧
     (∀ t ∈ membersOf (partSt s.dev (fld v 8 2)), physOf s.dev t ≠ 0x1FF) ∧
     after .partCmdHoldEnd s (fun u => !u.dev.partCmd.busy && (partSt u.dev 0).state == 2) = true) ∧
    (let s := dev fun d => { set0 d with zeroing := [(0, 0x100, 0x100)], stack := [(stackKey 0 5, 1), (stackKey 191 5, 2)] }
     s.dev.zeroing = (0, 0x100, 0x100) :: [] ∧
     after .grantZeroingDone s (fun u => u.dev.stack == [(stackKey 0 5, 1)] && u.dev.zeroing == []) = true) := by decide +kernel

theorem test_meets_FieldRepairCompletes :
    (let s := State.reset
     fullLayer s.dev = false ∧ colSlot (colOf s.dev.knots.eff (physCol (271 : Fin 288))) (physRow (271 : Fin 288)) < 8 ∧
     spareRow (colOf s.dev.knots.eff (physCol (271 : Fin 288))) = some 8 ∧ colSpare (colOf s.dev.knots.eff (physCol (271 : Fin 288))) = 0 ∧
     s.dev.tiles = [] ∧ s.dev.knots.jobs.any (fun j => j.col == physCol (271 : Fin 288)) = false ∧
     after (.tileFailure 271) s (fun u => u.dev.knots.jobs == [⟨31, 7, 8, 7, [], 0⟩]) = true) ∧
    (let j : RepairJob := ⟨31, 7, 8, 7, [], 0⟩
     let s := dev fun d => { d with knots := { d.knots with jobs := [j] }, mgmt := { d.mgmt with stage := 2 } }
     fullLayer s.dev = false ∧ fwUp s.dev = true ∧ s.dev.knots.jobs.find? (fun j => j.col == (31 : Fin 32).val && j.stage == 0) = some j ∧ j.parts = [] ∧
     (∀ i ∈ s.dev.knots.jobs, i.col = (31 : Fin 32).val → i.stage ≠ 4) ∧
     after (.spareSelfTestDone 31 true) s (fun u => u.dev.knots.flashPend == [.tileMove 31 7 8 7]) = true ∧
     after (.spareSelfTestDone 31 false) s (fun u => u.dev.knots.flashPend == [.tileDead 31 7 7 (some 8)]) = true) ∧
    (let e : KnotEntry := .repair (linkOut 355 false false)
     let s := dev fun d => { d with knots := { d.knots with flashPend := [e] }, mgmt := { d.mgmt with stage := 2 } }
     s.dev.knots.flashPend = e :: [] ∧ fwUp s.dev = true ∧ s.dev.knots.field.length < 1024 ∧ sparesGone s.dev (linkOut 355 false false) = false ∧ s.dev.knots.jobs = [] ∧
     after .fieldEntryCommit s (fun u => u.dev.knots.eff.repairs == [linkOut 355 false false] && u.dev.knots.gen == 1) = true) ∧
    (let e : KnotEntry := .tileDead 15 7 7 (some 8)
     let s := withDev State.reset { two go with
       knots := { Dev.reset.knots with flashPend := [e], jobs := [⟨15, 7, 9, 7, [0], 3⟩] }, mgmt := { MgmtSt.reset with stage := 2 } }
     s.dev.knots.flashPend = e :: [] ∧ s.dev.knots.jobs = [⟨15, 7, 9, 7, [0], 3⟩] ∧ (partSt s.dev 0).valid = true ∧
     after .fieldEntryCommit s (fun u => (partSt u.dev 0).state == 4 && u.dev.knots.jobs == []) = true) ∧
    (linkExists (31 : Fin 356) false true = true ∧ linkExists (355 : Fin 356) false false = true ∧ linkExists (15 : Fin 356) false false = false ∧
     linkExists (0 : Fin 356) true false = true ∧
     Dev.reset.knots.flashPend.any (fun e => decide (e = .repair (linkOut 31 false true))) = false ∧
     Dev.reset.knots.eff.repairs.contains (linkOut 31 false true) = false) ∧
    (tileUnit Dev.reset (some 287) = 0xFFFF ∧ Dev.reset.knots.field.length + Dev.reset.knots.flashPend.length + 8 ≤ 1024) := by decide +kernel

/-- Two rows seen that no local offset names leave every row of a third error distinct. -/
theorem test_meets_RepeatedErrorsAttributed_rows :
    (let s := dev fun d => { set0 d with knots := { d.knots with unc := [(479, 2 ^ 24, 0), (479, 2 ^ 24 + 1, 0)] } }
     hasHbm s.dev = true ∧ pcOut s.dev 191 = false ∧ mget [] s.dev.hbm.queue 191 = [] ∧ 64 < pcCap s.dev ∧
     s.dev.hbm.copying = [] ∧ (479, 2 ^ 24, 0) ∈ s.dev.knots.unc ∧ (479, 2 ^ 24 + 1, 0) ∈ s.dev.knots.unc ∧
     s.dev.time < 0 + 1000000000) ∧
    (let row := Config.hbmBank 64 % 64 * 2 ^ 18 + Config.hbmRow 64 % 2 ^ 18
     2 ^ 24 ≠ row ∧ 2 ^ 24 + 1 ≠ row) := by
  refine ⟨by decide +kernel, ?_⟩
  have h1 := Nat.mod_lt (Config.hbmBank 64) (show 64 > 0 by decide)
  have h2 := Nat.mod_lt (Config.hbmRow 64) (show 2 ^ 18 > 0 by decide)
  constructor <;> (simp only [ne_eq]; omega)

theorem test_meets_RepeatedErrorsAttributed :
    (let s := dev fun d => { d with knots := { d.knots with unc := [(127, 5, 0), (127, 6, 0)] } }
     let x := tileOf s.dev (127 : TileId)
     let phys := physOf s.dev (127 : TileId)
     let col := colOf s.dev.knots.eff (physCol phys)
     phys = 127 ∧ x.dr.scrubDone.getLsbD (23 : Fin 24) = false ∧ x.member = 0 ∧ bankWord (23 : Fin 24) (mget 0 x.dr.scrubPos 23) = 40963 ∧
     colSlot col (physRow phys) = 7 ∧ spareRow col = some 8 ∧ colSpare col = 0 ∧ fullLayer s.dev = false ∧
     s.dev.knots.jobs.any (fun j => j.col == physCol phys) = false ∧
     after (.scrubSlot 127 23 false 2) s (fun u => u.dev.knots.jobs == [⟨15, 7, 8, 7, [], 0⟩] && u.dev.knots.due == []) = true) ∧
    (let s := State.reset
     (tileOf s.dev (255 : TileId)).dr.scrubDone.getLsbD (0 : Fin 24) = false ∧ s.dev.knots.unc = [] ∧ s.dev.knots.due = [] ∧
     after (.scrubSlot 255 0 false 2) s (fun u => u.dev.knots.unc.length == 1 && u.dev.knots.due == []) = true) := by decide +kernel

/-! ### Kiln, clocks -/

/-- The part in Smoulder, 80 µs before an epoch's end: level 180 W, tick 91. -/
def warm (f : KilnSt → KilnSt) : State := dev fun d => { d with
  time := 5910000, timeValid := true, pwr := { PwrSt.reset with seq := 6, inrush := 4, vmgmt := true }, mgmt := { MgmtSt.reset with stage := 6 }
  kiln := f { KilnSt.reset with c := 18000000, f := 18000000, h := 18000000, p := 18000000 } }

theorem test_meets_KilnLevels :
    (let s := warm id
     let q := s.dev.kiln
     s.dev.pwr.seq = 6 ∧ q.due = false ∧ q.missed ≠ 5 ∧ q.recent.length < 9 ∧ lenysUp { s.dev with lny := (lnk 8 2).lny } = true ∧ lenysUp s.dev = false ∧ q.bankGo = none ∧ q.bank = none ∧ q.shed = none ∧ q.cap = none ∧
     mget 0 q.temp 0 < 388 ∧ mget 0 q.temp 1 < 388 ∧ q.capping = false ∧ (s.dev.time / 10000 + 1) % 100 ≠ 0 ∧
     fwUp s.dev = true ∧ q.term ≤ 0 ∧ s.dev.timeValid = true ∧ s.dev.time / 1000000 + 2 ≤ (7 : BitVec 64).toNat ∧ (∀ m ∈ q.msgs, m.epoch ≠ 7) ∧
     q.report = none ∧ 900000 ≤ s.dev.time % 1000000 ∧ s.dev.time % 1000000 < 980000 ∧ q.counted = false ∧ q.silent = false) ∧
    (let r : Ramp := ⟨18000000, 500, false, 30000000⟩
     (warm fun q => { q with shed := some r }).dev.kiln.shed = some r ∧ r.target < r.level - r.slope) ∧
    (let p := ({ PwrSt.reset with seq := 2 } : PwrSt)
     p.seq ≠ 0 ∧ p.seq ≠ 5 ∧ p.seq ≠ 6 ∧ p.seq ≠ 1) ∧
    (Dev.reset.pwr.seq ≠ 6 ∧ ¬ (Dev.reset.pwr.seq = 1 ∧ Dev.reset.pwr.phase = 2)) ∧
    (let s := warm fun q => { q with due := true }
     s.dev.kiln.due = true ∧ stopGranted s.dev.kiln (s.dev.time / 1000000) = false) ∧
    (let s := warm fun q => { q with term := 4 }
     (3 : BitVec 32) < s.dev.kiln.term) ∧
    (let s := dev fun d => { d with pwr := { PwrSt.reset with inrush := 4 }, mgmt := { MgmtSt.reset with stage := 2 } }
     fwUp s.dev = true ∧ s.dev.pwr.seq = 0 ∧ s.dev.pwr.inrush = 4 ∧
     after (.epochMessage 1 0 0 0 true false false false) s (fun u => u.dev.pwr.seq == 1 && (railOf u.dev 1).st == 1 && u.dev.mgmt.stage == 3) = true) ∧
    (let s := withDev State.reset { (warm fun q => { q with report := some (4, 1, 2) }).dev with time := 5000000 }
     s.dev.kiln.report = some (4, 1, 2) ∧ s.dev.time % 1000000 < 900000) ∧
    (let s := warm fun q => { q with missed := 5 }
     s.dev.kiln.missed = 5 ∧ s.dev.kiln.silent = false ∧ (s.dev.kiln.due = true ∨ s.dev.kiln.counted = false) ∧ after .silentEntry s (fun u => u.dev.kiln.silent) = true) := by decide +kernel

/-- R89, R91: with 2 cords and H = 180 W the ceiling in tick 92 of the epoch is 180 W + 2 · 92 · 0.25 W; at 400 W the floor
falls by SLEW 2,500 mW/ms = 0.025 W a tick, not under P. -/
theorem test_kiln_levels : after (.fastLoopTick 18000000 540 3) (warm fun q => { q with cords := 2, f := 40000000 }) (fun u =>
      u.dev.kiln.c == 18000000 + 4600000 && u.dev.kiln.f == 40000000 - 2500 && u.dev.time == 5920000) = true ∧
    after .epochBoundary (warm fun q => { q with due := true, cords := 2, f := 19000000 }) (fun u =>
      u.dev.kiln.h == 19000000 && u.dev.kiln.cords == 0) = true ∧
    after (.epochMessage 0 7 3 100 false false false false) (withDev (warm id) { (warm id).dev with lny := (lnk 8 2).lny }) (fun u => u.dev.kiln.msgs == [⟨7, 3, 100, 0, false⟩]) = true ∧
    after .slowLoop (warm fun q => { q with msgs := [⟨6, 1, 9, 0, false⟩] }) (fun u =>
      u.dev.kiln.shadow == some ⟨6, 1, 9, 0, false⟩ && u.dev.kiln.missed == 1) = true := by decide +kernel

theorem test_meets_KilnOrdersComplete :
    (let s := warm fun q => { q with c := 50000000, h := 50000000, shedId := some 7 }
     fwUp s.dev = true ∧ s.dev.kiln.term ≤ 0 ∧ (500 : BitVec 16) ≠ 0 ∧ 180 ≤ (180 : BitVec 16).toNat ∧ (1180 : BitVec 16).toNat ≤ 1180 ∧ s.dev.pwr.seq = 6 ∧
     s.dev.kiln.shedId ≠ some (8 : BitVec 32).toNat ∧ (180 : BitVec 16).toNat * 100000 < s.dev.kiln.c ∧ s.dev.kiln.shedId = some (7 : BitVec 32).toNat ∧
     after (.shedOrder 0 8 180 500) s (fun u => u.dev.kiln.shed == some ⟨18000000, 500, false, 50000000⟩ && u.dev.kiln.shedId == some 8) = true ∧
     s.dev.kiln.c ≤ (600 : BitVec 16).toNat * 100000 ∧ after (.shedOrder 0 9 600 500) s (fun u => u.dev.kiln.cap == some 60000000) = true) ∧
    (let s := warm fun q => { q with bank := some ⟨18000000, 500, true, 18000000⟩ }
     s.dev.kiln.bank = some ⟨18000000, 500, true, 18000000⟩ ∧ s.dev.kiln.c ≤ 18000000 ∧ running s.dev = false ∧
     after .bankColdDrained s (fun u => u.dev.kiln.drained) = true) ∧
    (let s := withDev State.reset { (warm fun q => { q with kind := 100000000 }).dev with
       tiles := [(255, { Tile.reset with member := 0 })]
       pwr := { PwrSt.reset with seq := 6, funcs := [(1, { FuncSt.reset with st := 3 })] } }
     mayKindle s.dev (255 : TileId) (1 : Fin 2) = true ∧ (kindleBurners s.dev s.dev.kiln.kind).contains 255 = true ∧ s.dev.kiln.quanta.contains ((255 : TileId).val, (1 : Fin 2).val) = false ∧
     after (.kindlingQuantum 255 1) s (fun u => u.dev.kiln.quanta == [(255, 1)]) = true) ∧
    (let s := warm fun q => { q with quanta := [(255, 1)] }
     s.dev.kiln.quanta.contains ((255 : TileId).val, (1 : Fin 2).val) = true ∧ s.dev.tiles = []) ∧
    after (.thermalCap 1 400) (warm id) (fun u => u.dev.kiln.capping && mget 0 u.dev.kiln.temp 1 == 400) = true ∧
    after (.bankCold 300) (warm id) (fun u => u.dev.kiln.bankGo == some (2, 300) && u.dev.coldRefuse) = true := by decide +kernel

/-- A signature that is wrong can be given, whatever the reference is (R108). -/
theorem test_meets_KilnOrdersComplete_signature : Config.kindlingReference 1 + 1 ≠ Config.kindlingReference 1 := by
  simp

theorem test_meets_ClocksComplete :
    (let s := dev fun d => { d with
       clk := { ClkSt.reset with want := [(1, some 72)], step := [(1, true)], lock := 0x7FFFFFFF }
       knots := { d.knots with fmax := 72 }, kiln := { KilnSt.reset with freqReq := 0x4848, freqLoad := 0x4848 } }
     mget none s.dev.clk.want (1 : Fin 2).val = some 72 ∧ mget false s.dev.clk.step (1 : Fin 2).val = true ∧ bit s.dev.clk.lock (30 : Fin 31).val = true ∧
     stepTooHigh s.dev (1 : Fin 2) 72 = false ∧ ((0 : Fin 31).val ≤ 4 ∨ 29 ≤ (0 : Fin 31).val) ∧ 5 ≤ (10 : Fin 31).val ∧
     (10 : Fin 31).val ≤ 10 ∧ 11 ≤ (12 : Fin 31).val ∧ (12 : Fin 31).val ≤ 12 ∧
     after (.dvfsStepDone 1) s (fun u => mget 32 u.dev.clk.freq 1 == 72) = true ∧
     after (.pllLockLost 30) s (fun u => u.dev.clk.lock == 0x3FFFFFFF && u.dev.fatal == [(0x7001, 0xFFFF)]) = true) ∧
    mget false ({ ClkSt.reset with want := [(0, some 40)] } : ClkSt).step (0 : Fin 2).val = false ∧
    (let s (b0 : Bool) := dev fun d => { d with
       clk := { ClkSt.reset with want := [(1, some 72)], step := [(1, b0)] }, kiln := { KilnSt.reset with freqReq := 0x2848 } }
     mget none (s true).dev.clk.want (1 : Fin 2).val = some 72 ∧ stepTooHigh (s true).dev (1 : Fin 2) 72 = true) ∧
    (let s := withDev State.reset { lnk 15 2 with clk := { ClkSt.reset with lock := 0x7FFFFFFF } }
     13 ≤ (28 : Fin 31).val ∧ (28 : Fin 31).val ≤ 28 ∧ (lportOf s.dev ((28 : Fin 31).val - 13)).st = 2 ∧
     after (.portPllLockLost 28) s (fun u => (lportOf u.dev 15).st == 3) = true) := by decide +kernel

/-! ### Power -/

/-- The part with its power state changed. -/
def pow (f : PwrSt → PwrSt) : State := dev fun d => { d with pwr := f PwrSt.reset }

theorem test_meets_PowerInputCompletes :
    (let p := { PwrSt.reset with inRange := true, pwrEn := true }
     p.inRange = true ∧ p.input = 0 ∧ p.input ≠ 2 ∧ p.seq = 0 ∧ p.pwrEn = true ∧ p.inrush = 0 ∧ p.inrushLatch = false ∧ p.seq ≠ 3) ∧
    ({ PwrSt.reset with input := 1 } : PwrSt).input = 1 ∧ PwrSt.reset.inRange = false ∧
    (∀ k : Fin 4, k ≠ 0 → 1 ≤ ({ PwrSt.reset with inrush := k.val } : PwrSt).inrush ∧ ({ PwrSt.reset with inrush := k.val } : PwrSt).inrush ≤ 3) ∧
    ({ PwrSt.reset with inrush := 2, vmgmt := true } : PwrSt).vmgmt = true ∧ PwrSt.reset.vmgmt = false ∧
    ({ PwrSt.reset with staged := [[1]] } : PwrSt).staged = [1] :: [] ∧
    (let s := dev fun d => { d with pwr := { PwrSt.reset with inrush := 2, vmgmt := true, startPend := true }, mgmt := { MgmtSt.reset with stage := 2 } }
     s.dev.pwr.inrush = 2 ∧ s.dev.pwr.seq = 0 ∧ s.dev.pwr.startPend = true ∧ fwUp s.dev = true ∧
     after .ibGood s (fun u => u.dev.pwr.seq == 1 && (railOf u.dev 10).st == 2) = true) ∧
    after (.inputExcursionEnd 500) (pow fun p => { p with input := 1, vmgmt := true }) (fun u => u.dev.pwr.exc == 1 && u.dev.pwr.input == 0) = true ∧
    after .inrushWindowFault (pow fun p => { p with inrush := 1, tries := 3 }) (fun u => u.dev.pwr.inrushLatch) = true ∧
    after .inrushWindowFault (pow fun p => { p with inrush := 1, tries := 2 }) (fun u => !u.dev.pwr.inrushLatch && u.dev.pwr.tries == 3) = true := by decide +kernel

/-- R153, R139, R156: the input in range debounces into the inrush; the management supply's loss keeps the rollback counters. -/
theorem test_power_input : after .inputDebounceDone (pow fun p => { p with inRange := true, pwrEn := true }) (fun u => u.dev.pwr.inrush == 1) = true ∧
    after .vmgmtGood (pow fun p => { p with inrush := 3 }) (fun u => u.dev.pwr.vmgmt && u.dev.pwr.inrush == 4) = true ∧
    after .mgmtSupplyLost (dev fun d => { d with pwr := { PwrSt.reset with vmgmt := true }, mgmt := { MgmtSt.reset with roll1 := 3, stage := 6 } })
      (fun u => !u.dev.pwr.vmgmt && u.dev.mgmt.roll1 == 3 && u.dev.mgmt.stage == 0) = true := by decide +kernel

/-- Rails in a state. -/
def rails (l : List Nat) (st : Nat) : SMap RailSt := l.map (fun r => (r, ⟨st, 0, 0⟩))

theorem test_meets_PowerSequenceCompletes :
    (let s := pow fun p => { p with seq := 1, rails := rails [1, 2, 3, 4, 5, 6, 7, 8] 2 ++ [(9, ⟨1, 0, 0⟩)] }
     s.dev.pwr.seq = 1 ∧ (railOf s.dev (9 : Fin 11)).st = 1 ∧ (railGroups s.dev).find? (fun g => g.contains (9 : Fin 11).val) = some [9] ∧
     [9] = (railGroups s.dev).getLast?.getD [] ∧ (∃ r, 1 ≤ r ∧ r ≤ 7 ∧ r ≠ (9 : Fin 11).val ∧ (railOf s.dev r).st = 2) ∧
     after (.railGood 9 (250, 0)) s (fun u => u.dev.pwr.phase == 1) = true ∧
     after (.softStartFault 9 2 0 0) s (fun u => u.dev.pwr.seq == 4 && u.dev.pwr.downing) = true) ∧
    (let s := pow fun p => { p with seq := 1, nextDue := true, rails := rails [1, 2, 3] 2 }
     s.dev.pwr.nextDue = true ∧ (railGroups s.dev).find? (fun g => g.any (fun r => (railOf s.dev r).st == 0)) = some [4, 5] ∧
     after .nextRailEnable s (fun u => (railOf u.dev 4).st == 1 && (railOf u.dev 5).st == 1 && (railOf u.dev 6).st == 0) = true) ∧
    (let s := pow fun p => { p with seq := 1, phase := 1 }
     s.dev.pwr.phase = 1 ∧ bridgeOut s.dev ≤ 8 ∧ s.dev.knots.unrecorded = false ∧ (funcOf s.dev (0 : Fin 24)).latch = false ∧
     after .pllLockDone s (fun u => u.dev.pwr.phase == 2 && u.dev.lny.inc == 1 && u.dev.mgmt.stage == 5) = true) ∧
    (let s := pow fun p => { p with downing := true, rails := rails [8, 9] 3 }
     s.dev.pwr.downing = true ∧ (railOf s.dev (9 : Fin 11)).st = 3 ∧ (∃ r, 1 ≤ r ∧ r ≤ 9 ∧ r ≠ (9 : Fin 11).val ∧ (railOf s.dev r).st = 3) ∧
     after (.railDown 9) s (fun u => (railOf u.dev 9).st == 0) = true) ∧
    (let s := pow fun p => { p with rails := rails [9] 2 }
     (railOf s.dev 9).st = 2 ∧ s.dev.pwr.downing = false ∧ (railOf (pow fun p => { p with rails := rails [9] 4 }).dev 9).st = 4) ∧
    (let s := pow fun p => { p with seq := 6, funcs := [(0, { FuncSt.reset with st := 2 })], rails := rails [4] 1 }
     4 ≤ (4 : Fin 11).val ∧ (4 : Fin 11).val ≤ 7 ∧ (funcOf s.dev ((4 : Fin 11).val % 2)).st = 2 ∧ (funcOf s.dev ((4 : Fin 11).val % 2)).wait = false ∧
     (railOf s.dev (4 : Fin 11)).st = 1 ∧ after (.railGood 4 (720, 90)) s (fun u => railOf u.dev 4 == ⟨2, 720, 90⟩) = true) ∧
    (let s := pow fun p => { p with seq := 4 }
     s.dev.pwr.seq = 4 ∧ s.dev.pwr.downing = false ∧ after .retryBackoffEnd s (fun u => u.dev.pwr.seq == 1 && u.dev.pwr.attempt == 1) = true) ∧
    ({ PwrSt.reset with latched := true } : PwrSt).latched = true ∧
    (let s := dev fun d => { d with pwr := { PwrSt.reset with seq := 5, startPend := true, inrush := 4 }, mgmt := { MgmtSt.reset with stage := 2 } }
     s.dev.pwr.seq = 5 ∧ s.dev.pwr.startPend = true ∧ startable s.dev = true ∧ after .offTimeEnd s (fun u => u.dev.pwr.seq == 1) = true ∧ PwrSt.reset.startPend = false) ∧
    (let s := dev fun d => { d with pwr := { PwrSt.reset with seq := 6, rails := rails [1, 2, 3, 4, 5, 6, 7, 8, 9] 2 }, hbm := { HbmSt.reset with powered := [(5, true)] } }
     s.dev.pwr.seq = 6 ∧ (railOf s.dev 2).st = 2 ∧ s.dev.rings = [] ∧ s.dev.wqs = [] ∧ (∀ n : Fin 2, (hportOf s.dev n).dlUp = false) ∧
     (9 : Fin 11).val ≠ 0 ∧ (9 : Fin 11).val ≠ 10 ∧ (9 : Fin 11).val ≠ 2 ∧ (railOf s.dev (9 : Fin 11)).st = 2 ∧ mget false s.dev.hbm.powered (5 : Fin 6).val = true ∧
     after .thermalTrip s (fun u => u.dev.pwr.thermtrip && u.dev.hold && u.dev.pwr.seq == 2) = true) ∧
    (let s := pow fun p => { p with seq := 6, funcs := [(0, { FuncSt.reset with st := 3 }), (1, { FuncSt.reset with st := 2, tries := 3 }), (8, { FuncSt.reset with st := 1 })] }
     (funcOf s.dev (23 : Fin 24)).st = 0 ∧ (funcOf s.dev (23 : Fin 24)).latch = false ∧ (funcOf s.dev (0 : Fin 24)).st = 3 ∧ funcBusy s.dev (0 : Fin 24) = false ∧
     (funcOf s.dev (1 : Fin 24)).pend = none ∧ (funcOf s.dev (1 : Fin 24)).st = 2 ∧ 3 ≤ (funcOf s.dev (1 : Fin 24)).tries ∧ (funcOf s.dev (8 : Fin 24)).pend = none ∧ (funcOf s.dev (8 : Fin 24)).st = 1 ∧
     after (.funcTransitionDone 1 (some (0, 0))) s (fun u => (funcOf u.dev 1).latch) = true) := by
  refine ⟨⟨by decide +kernel, by decide +kernel, by decide +kernel, by decide +kernel, ⟨1, by decide +kernel⟩, by decide +kernel, by decide +kernel⟩,
    by decide +kernel, by decide +kernel, ⟨by decide +kernel, by decide +kernel, ⟨8, by decide +kernel⟩, by decide +kernel⟩, by decide +kernel, by decide +kernel, by decide +kernel,
    by decide +kernel, by decide +kernel, by decide +kernel, by decide +kernel⟩

/-! ### Boot, management -/

/-- FIPS 180-4: the first constants of the SHA-384 rounds, and the digest of "abc" (the named source of R627's hash). -/
theorem test_sha384 :
    rootFraction 3 2 = 0x428A2F98D728AE22 ∧ rootFraction 2 23 = 0xCBBB9D5DC1059ED8 ∧
    sha384 [0x61, 0x62, 0x63] =
      beBytes 48 0xCB00753F45A35E8BB5A03D699AC65007272C32AB0EDED1631A8B605A43FF5BED8086072BA1E7CC2358BAECA134C825A7 := by decide +kernel

/-- An image of type `ty` and of no body, with the digest of no bytes (R627, FIPS 180-4), from a flash address on. -/
def image0 (ty base : Nat) : SMap Byte :=
  let digest := beBytes 48 0x38B060A751AC96384CD9327EB1B1E36A21FDB71114BE07434C0CC7BF63F6E1DA274EDEBFE76F65FBD51AD2F14898B95B
  let hdr := leBytes 4 0x3157464B ++ leBytes 2 ty ++ leBytes 2 5 ++ leBytes 4 9 ++ leBytes 4 0 ++ leBytes 16 2 ++ digest
  (hdr ++ List.replicate 432 0).zipIdx.map (fun (e : Byte × Nat) => (base + e.2, e.1))

/-- The first slot's image runs where it passes and slot 1 is not selected. -/
theorem goodSlot_first (g : MgmtSt) (ty : Nat) (hs : slotOrder g ty = [0, 1]) (key : Nat) (hk : hdrNum g.flash (slotBase ty 0) 0x010 1 = key)
    (hp : (hdrOk g.flash (slotBase ty 0) ty && !(g.revoked.getLsbD key) && decide (rollback g ty ≤ imgSvn g.flash (slotBase ty 0)) &&
      sha384 (imgBody g.flash (slotBase ty 0)) == mbytes 0xFF g.flash (slotBase ty 0 + 0x020) 48) = true)
    (h : Config.signatureVerifies (hdrNum g.flash (slotBase ty 0) 0 0x50) (hdrNum g.flash (slotBase ty 0) 0x050 96) key = true) :
    goodSlot g ty = some 0 := by
  subst hk
  have e : imageOk g g.flash (slotBase ty 0) ty = true := by rw [imageOk, h, Bool.and_true, hp]
  rw [goodSlot, hs, List.find?_cons_of_pos (by exact e)]

/-- A firmware image and a tile monitor image in flash. -/
def flashed : MgmtSt := { MgmtSt.reset with flash := image0 1 0 ++ image0 2 0xC80000 }

/-- Where the signatures of those headers verify under key 2, the two images run. -/
theorem test_meets_BootCompletes_image
    (h : ∀ ty : Nat, Config.signatureVerifies (hdrNum flashed.flash (slotBase ty 0) 0 0x50) (hdrNum flashed.flash (slotBase ty 0) 0x050 96) 2 = true) :
    goodSlot flashed 1 = some 0 ∧ (goodSlot flashed 2).isSome = true :=
  ⟨goodSlot_first flashed 1 (by decide +kernel) 2 (by decide +kernel) (by decide +kernel) (h 1),
    Option.isSome_iff_exists.2 ⟨0, goodSlot_first flashed 2 (by decide +kernel) 2 (by decide +kernel) (by decide +kernel) (h 2)⟩⟩

/-- A partition whose rebuild waits for that firmware (R738, R755). -/
theorem test_meets_BootCompletes_rebuild :
    let s := dev fun d => { d with
      pwr := { PwrSt.reset with vmgmt := true }, mgmt := flashed, rebuild := [(7, 1)]
      parts := [(7, { PartSt.reset with valid := true, state := 3 })] }
    s.dev.pwr.vmgmt = true ∧ s.dev.mgmt.stage < 2 ∧ s.dev.rebuild = [(7, 1)] ∧ (partSt s.dev 7).valid = true ∧ (partSt s.dev 7).state = 3 := by
  decide +kernel

theorem test_meets_BootCompletes :
    (let s := dev fun d => { d with pwr := { PwrSt.reset with vmgmt := true } }
     s.dev.pwr.vmgmt = true ∧ s.dev.knots.flashPend = [] ∧ s.dev.mgmt.stage < 2 ∧ goodSlot s.dev.mgmt 1 = none ∧
     after .firmwareStart s (fun u => u.dev.mgmt.stage == 14) = true ∧ after .watchdogExpiry s (fun u => u.dev.mgmt.cause == 1 && u.dev.mgmt.resets == 1) = true) ∧
    (let s := warm id
     s.dev.pwr.seq = 6 ∧ s.dev.pf.phase = 0 ∧ fwUp s.dev = true ∧ s.dev.mgmt.bist = 0 ∧ s.dev.mgmt.bootStop = false ∧
     after .selfTest s (fun u => u.dev.mgmt.bist == 1 && u.dev.mgmt.stage == 4) = true) ∧
    (({ MgmtSt.reset with bist := 1 } : MgmtSt).bist = 1 ∧ bridgeOutAll Dev.reset ≤ 8) ∧
    (let s := dev fun d => { d with mgmt := { MgmtSt.reset with bist := 2, stage := 5 } }
     s.dev.mgmt.bist = 2 ∧ fwUp s.dev = true ∧ bootDone s.dev = true ∧
     after .bootReady s (fun u => u.dev.mgmt.stage == 6 && (hportOf u.dev 1).ready) = true) ∧
    (let s := dev fun d => { d with fatal := [(0x7001, 0xFFFF)], pwr := { PwrSt.reset with seq := 6 } }
     s.dev.fatal = (0x7001, 0xFFFF) :: [] ∧ s.dev.pf.phase = 0 ∧ railsUp s.dev = true ∧ s.dev.pf.times = [] ∧ s.dev.rings = [] ∧ s.dev.wqs = [] ∧
     (∀ n : Fin 2, (hportOf s.dev n).dlUp = false) ∧ after .partFatalSelfReset s (fun u => u.dev.hold && u.dev.pf.phase == 1) = true) ∧
    (({ FatalSt.reset with phase := 1 } : FatalSt).phase = 1) ∧
    (let s := dev fun d => { d with pf := { FatalSt.reset with phase := 2 }, hold := true }
     s.dev.pf.phase = 2 ∧ bridgeOut s.dev ≤ 8 ∧ s.dev.knots.unrecorded = false ∧
     after .domainResetRelease s (fun u => u.dev.pf.phase == 0 && !u.dev.hold && u.dev.lny.inc == 1) = true) := by decide +kernel

theorem test_meets_ManagementBackgroundCompletes :
    ((tileOf Dev.reset (255 : TileId)).inject = [] ∧ hasHbm Dev.reset = true ∧ (191 : BitVec 8).toNat < 192 ∧ Dev.reset.hbm.inject = []) ∧
    (let s := warm id
     fwUp s.dev = true ∧ tileMetro s.dev (255 : TileId) = false ∧ s.dev.pwr.vmgmt = true ∧ s.dev.mgmt.tlm.length < 2048 ∧ 2 ≤ s.dev.mgmt.stage ∧
     s.dev.mgmt.tlmSlot ≠ some (tlmSlotNow s.dev) ∧ ({ s.dev.mgmt with tlmSlot := some (tlmSlotNow s.dev) } : MgmtSt).tlmSlot = some (tlmSlotNow s.dev) ∧
     mget 0 s.dev.mgmt.i3c (1 : Fin 2).val = 0 ∧ after (.setdasa 1 127) s (fun u => mget 0 u.dev.mgmt.i3c 1 == 127) = true ∧
     after (.telemetrySample 0) s (fun u => u.dev.mgmt.tlmSeq == 1 && u.dev.mgmt.tlm.length == 1) = true) ∧
    (let e : ErrRec := ⟨none, 3, 0x7001, 2, none, none, false, false, 0, 0, 1, 0, 0, 1⟩
     let s := withDev State.reset { (warm id).dev with logPend := [e] }
     s.dev.logPend = e :: [] ∧ after .logRecordWrite s (fun u => u.dev.logPend == [] && mget 0 u.dev.mgmt.seqs 2 == 1) = true) ∧
    (let m := { MgmtSt.reset with sectors := [⟨89999, 1, []⟩, ⟨89999, 2, []⟩, Sector.blank] }
     erasedCount m ≤ 2 ∧ compactIdx m = some 0 ∧ (1 : Nat) ≠ lastSseq m ∧ m.sectors[0]? = some ⟨89999, 1, []⟩ ∧ ([] : List LogRec).filter (isLive m) = [] ∧
     after .logCompaction (dev fun d => { d with mgmt := m }) (fun u => u.dev.mgmt.wearWarn && (u.dev.mgmt.sectors.headD Sector.blank).erases == 90000) = true) ∧
    (let s := withDev State.reset { (warm id).dev with hports := [(1, { HPort.reset with dlUp := true })] }
     fwUp s.dev = true ∧ (hportOf s.dev (1 : Fin 2)).dlUp = true ∧ after (.setEndpointId 1 9) s (fun u => mget 0 u.dev.mgmt.eid 1 == 9) = true) ∧
    (let s := withDev State.reset { (warm id).dev with
       mgmt := { MgmtSt.reset with stage := 6, i3c := [(0, 5)] }, lny := { LenySt.reset with ctl := [(3, .mctp 0x100 2 [7])] } }
     mget 0 s.dev.mgmt.i3c (0 : Fin 2).val ≠ 0 ∧ (255 : BitVec 16).toNat < 256 ∧ (255 : BitVec 16).toNat ≠ s.dev.lny.slot ∧
     s.dev.lny.ctl = [(3, .mctp (0x100 + (0 : Fin 2).val) 2 [7])] ∧
     after (.relay 0 false 0 []) s (fun u => u.dev.out == [.mctp 0x100 3 [3, 7]]) = true) := by decide +kernel

/-- The part READY with its manager interfaces up and the time counter invalid. -/
def heard (f : Dev → Dev) : State := withDev State.reset (f { (warm id).dev with
  timeValid := false, mgmt := { MgmtSt.reset with stage := 6, i3c := [(0, 5), (1, 6)] } })

theorem test_meets_ManagementCommandsComplete :
    (let s := heard id
     s.dev.pwr.vmgmt = true ∧ fwUp s.dev = true ∧ s.dev.mgmt.bootStop = false ∧ i3cUp s.dev true = true ∧ ¬ (0 : BitVec 32) < s.dev.kiln.term ∧
     (0x010000 : BitVec 32).toNat % 8 = 0 ∧ inBlock (0x010000 : BitVec 32).toNat = true ∧ railsUp s.dev = true ∧ (7 : BitVec 32).toNat % 8 ≠ 0 ∧
     (1024 : BitVec 32).toNat ≤ 1024 ∧ (0 : BitVec 32).toNat + (16 : BitVec 32).toNat ≤ (knotImage s.dev).length ∧ (3 : BitVec 8).toNat ≤ 3 ∧
     (2 : BitVec 32).toNat + ([1, 2] : List Byte).length ≤ slotBytes 1 ∧ slotRuns s.dev.mgmt 1 1 = false ∧ slotRuns s.dev.mgmt 1 0 = true ∧
     s.dev.timeValid = false ∧ s.dev.lny.master = s.dev.lny.slot ∧ (127 : BitVec 8).toNat < 128 ∧ hasHbm s.dev = true ∧
     setHolders s.dev 127 = [] ∧ setBad s.dev 127 0 [1, 0, 0x8000000000000000] = false ∧ (15 : BitVec 8).toNat < 16 ∧
     after (.imageWrite (.manager true 0) 1 1 2 [1, 2]) s (fun u => mbytes 0xFF u.dev.mgmt.flash 0x640002 2 == [1, 2]) = true ∧
     after (.setTime (.manager true 0) 77) s (fun u => u.dev.time == 77 && u.dev.timeValid) = true ∧
     after (.setDefine (.manager true 0) 127 true 0 1 0 0x8000000000000000) s (fun u => setList u.dev 127 == [0, 191] && setValid u.dev 127) = true) ∧
    (let s := heard fun d => { d with pwr := { d.pwr with latched := true, seq := 15 } }
     bit (1 : Word) 0 = true ∧ s.dev.pwr.latched = true ∧ after (.regWrite (.manager false 0) 0x030018 1) s (fun u => !u.dev.pwr.latched) = true) ∧
    (let s := heard fun d => { d with timeValid := true, clamps := [(15, { ClampSt.reset with valid := true })] }
     s.dev.timeValid = true ∧ (clampOf s.dev 15).valid = true ∧ (clampOf s.dev 15).arrived = 0 ∧
     after (.clampJoin (.manager false 0) 15 false 127) s (fun u => !(clampOf u.dev 15).cab && (clampOf u.dev 15).group == 127) = true) ∧
    (let s := heard fun d => { d with hports := [(0, { HPort.reset with dlUp := true })], mgmt := { d.mgmt with mbxReq := [(0, 1)] } }
     (hportOf s.dev (0 : Fin 2)).dlUp = true ∧ (0 : Fin 2).val = s.dev.ctrlPort ∧ s.dev.mgmt.mbxBusy = false ∧ leNat (mbytes 0 s.dev.mgmt.mbxReq 0 1) = 1 ∧
     after (.mbxGo 0) s (fun u => u.dev.mgmt.mbxDone && u.dev.mgmt.mbxStatus == 0) = true) ∧
    (let s := heard fun d => { d with hports := [(1, { HPort.reset with dlUp := true })] }
     (hportOf s.dev (1 : Fin 2)).dlUp = true ∧ (1 : Fin 2).val ≠ s.dev.ctrlPort) := by decide +kernel

theorem test_meets_SpdmCompletes :
    (let s := heard fun d => { d with mgmt := { d.mgmt with attest := true, meas := [(1, [], 0)]
                                                            spdm := [(4, ⟨3, [⟨1, true, 0⟩, ⟨2, false, 0⟩, ⟨3, true, 0⟩], 4⟩), (5, ⟨1, [], 1⟩)] } }
     spdmHears s.dev (4 : Fin 7) = true ∧ spdmHears s.dev (5 : Fin 7) = true ∧ (spdmOf s.dev (5 : Fin 7)).stage = 1 ∧ (spdmOf s.dev (4 : Fin 7)).stage = 3 ∧
     s.dev.mgmt.attest = true ∧ (spdmOf s.dev (4 : Fin 7)).sess.length < 4 ∧ s.dev.mgmt.meas ≠ [] ∧ (0 : BitVec 16).toNat ≤ 0 ∧
     (spdmOf s.dev (4 : Fin 7)).sess.any (fun x => x.id == (2 : BitVec 32).toNat && !x.open_) = true ∧
     (spdmOf s.dev (4 : Fin 7)).sess.any (fun x => x.id == (3 : BitVec 32).toNat && x.open_) = true ∧
     after (.endSession 4 3) s (fun u => (spdmOf u.dev 4).sess.length == 2) = true ∧
     after (.getCapabilities 5 0) s (fun u => (spdmOf u.dev 5).stage == 2) = true) ∧
    ((⟨2, [], 1⟩ : SpdmSt).stage = 2) ∧ (∃ mac : BitVec 384, mac = BitVec.ofNat 384 (Config.engineNum 5 (2 : BitVec 32).toNat)) :=
  ⟨by decide +kernel, by decide, _, rfl⟩

/-! ### Bookmatch, the cabinet managers -/

/-- Partition 0 in slot 0, Bookmatch in a state, with messages from the twin in slot 1. -/
def booked (f : BmSt → BmSt) (x : Tile) (ctl : List (Nat × PeerMsg)) : State :=
  withDev State.reset { two x with bm := f BmSt.reset, lny := { LenySt.reset with ctl := ctl } }

theorem test_meets_BookmatchCompletes :
    (let s := booked id go []
     s.dev.bm.st ≠ 1 ∧ s.dev.bm.st ≠ 2 ∧ s.dev.bm.hello = none ∧ bmLocal s.dev (127 : Fin 128) ≠ 0 ∧
     after (.bmStart 127 0) s (fun u => u.dev.bm.st == 5) = true) ∧
    (let s := booked id go [(1, .bookmatch 0 [1, 2])]
     s.dev.lny.ctl = [(s.dev.lny.slot ^^^ 1, .bookmatch 0 [1, 2])] ∧ s.dev.bm.st ≠ 1 ∧
     after .bmHello s (fun u => u.dev.bm.hello == some [1, 2] && u.dev.lny.ctl == []) = true) ∧
    (let s := booked (fun b => { b with st := 1, readySent := true }) go [(1, .bookmatch 1 [0])]
     s.dev.lny.ctl = [(s.dev.lny.slot ^^^ 1, .bookmatch 1 [0])] ∧ s.dev.bm.st = 1 ∧ s.dev.bm.readySent = true ∧ s.dev.bm.woPend = [] ∧
     after .bmReady s (fun u => u.dev.bm.st == 2 && (tileOf u.dev 1).dig.armed) = true ∧ after .bmStop s (fun u => u.dev.bm.st == 0) = true) ∧
    (let s := booked (fun b => { b with st := 1 }) go [(1, .bookmatch 1 [4])]
     (([4] : List Word).getD 0 0).toNat ≠ 0 ∧ s.dev.bm.readySent = false ∧ s.dev.time < s.dev.bm.sentAt + 100000000 ∧
     after .bmHelloTimeout (withDev s { s.dev with time := 100000000 }) (fun u => u.dev.bm.st == 5 && u.dev.bm.reason == 6) = true ∧
     after .bmReady s (fun u => u.dev.bm.st == 5 && u.dev.bm.reason == 4) = true) ∧
    (let s := booked (fun b => { b with st := 2 }) go [(1, .bookmatch 2 [])]
     s.dev.lny.ctl = [(s.dev.lny.slot ^^^ 1, .bookmatch 2 [])] ∧ s.dev.bm.st = 2 ∧ after .bmLost s (fun u => u.dev.bm.st == 4) = true) ∧
    (let s (w : Word) := booked (fun b => { b with st := 2, early := [(3, [0, 5, w])] }) { go with dig := { go.dig with pending := [(5, 77, 0)] } } []
     (s 77).dev.lny.ctl = [] ∧ (s 77).dev.bm.early = [(3, [0, 5, 77])] ∧ tileOfRank (partSt (s 77).dev 0) 0 = 0 ∧
     (tileOf (s 77).dev 0).dig.pending.find? (fun c => c.1 == (5 : Word).toNat) = some (5, 77, 0) ∧ 0 + bmTmo (s 77).dev ≤ 10000000 ∧
     (s 77).dev.time < 0 + bmTmo (s 77).dev ∧ (0 : TileId).val < pTiles (partSt (s 77).dev 0) ∧
     after .checkpointCompare (s 77) (fun u => (tileOf u.dev 0).dig.pending == []) = true ∧
     after .checkpointCompare (s 78) (fun u => u.dev.bm.st == 3) = true ∧
     after (.bmCheckpointTimeout (some 0)) (withDev (s 77) { (s 77).dev with time := 10000000 }) (fun u => u.dev.bm.st == 3) = true) := by decide +kernel

theorem test_meets_BookmatchCompletes_orders :
    (let c : Nat × Nat × Word × List Word × Nat := (2, 255, 9, [1, 2, 3, 4], 0)
     let s (w : Word) := booked (fun b => { b with st := 2, woDone := 0xFFFFFFFF, woPend := [c], early := [(4, [2, 0, w, 1, 2, 3, 4])] }) go []
     c.1 < 2 ^ 64 ∧ (s 9).dev.lny.ctl = [] ∧ (s 9).dev.bm.woPend = [c] ∧ (s 9).dev.bm.early = [(4, BitVec.ofNat 64 c.1 :: 0 :: 9 :: [1, 2, 3, 4])] ∧
     c.2.2.1 = 9 ∧ c.2.2.1 ≠ 8 ∧ after .checkpointCompare (s 9) (fun u => u.dev.bm.woPend == [] && u.dev.bm.woDone == 0xFFFFFFFF) = true ∧
     after .checkpointCompare (s 8) (fun u => u.dev.bm.st == 3) = true) := by decide +kernel

/-- A HELLO that mirrors this part's own, with the twin's links up (R656, R657). -/
theorem test_meets_BookmatchCompletes_hello :
    let d : List Word := [3, 0, 1, 2, 0, 0]
    let s := withDev State.reset { two go with
      bm := { BmSt.reset with st := 1, twinPart := 3 }, lny := { LenySt.reset with ctl := [(1, .bookmatch 0 d)], ports := [(12, { LPort.reset with st := 2 })] } }
    bmLocal s.dev (0 : Fin 128) = 0 ∧ s.dev.lny.ctl = [(s.dev.lny.slot ^^^ 1, .bookmatch 0 d)] ∧ s.dev.bm.st = 1 ∧ s.dev.bm.readySent = false ∧
    d.getD 0 0 = BitVec.ofNat 64 s.dev.bm.twinPart ∧ d.getD 1 0 = BitVec.ofNat 64 s.dev.bm.part ∧ bmCheck (helloOf s.dev) d = 0 ∧
    after .bmHello s (fun u => u.dev.bm.readySent) = true := by decide +kernel

/-- A manager with the part of slot 3 known at 200 W, all its values in range. -/
def mgr (f : FlueMgr → FlueMgr) : State :=
  { State.reset with flue := { State.reset.flue with a := f { State.reset.flue.a with parts := [(3, { FluePart.reset with h := 200, slew := 500, cords := 2 })] } } }

theorem test_meets_FlueCompletes :
    (5 ≤ (5 : BitVec 32).toNat ∧ (200 : BitVec 32).toNat ≤ 200 ∧ 50000 ≤ (50000 : BitVec 32).toNat ∧ (310000 : BitVec 32).toNat ≤ 310000 ∧
     (40000 : BitVec 32).toNat ≤ 40000 ∧ (4 : BitVec 32).toNat < 5 ∧ 200 < (201 : BitVec 32).toNat) ∧
    (let s := mgr id
     let g := mgrOf s (0 : Fin 2)
     nextSlot s.dev g = some 0 ∧ g.active = true ∧ 172000 ≤ g.budget ∧ g.term < 1 ∧ ¬ g.term < (mgrOf s (1 - (0 : Fin 2).val)).term ∧ g.shelves = 0 ∧
     activeMgr s = some (0 : Fin 2).val ∧ (309999 : BitVec 32).toNat < g.envelope ∧ g.envelope ≤ (310000 : BitVec 32).toNat ∧
     g.starting = [] ∧ g.newS = none ∧ g.newEnv = none ∧ g.newFixed = none ∧ (310000 : BitVec 32).toNat ≤ g.envelope ∧
     after (.flueStart 0) s (fun u => (mgrOf u 0).budget == 28000 && (mgrOf u 0).starting == [0]) = true ∧
     after (.envelopeRequest 199000 5) s (fun u => (mgrOf u 0).envelope == 199000) = true ∧
     after .shelfFailure s (fun u => (mgrOf u 0).shelves == 1) = true) ∧
    ((mgrOf (mgr fun g => { g with shelves := 1 }) (0 : Fin 2)).shelves = 1) ∧
    (let g := mgrOf State.reset (1 : Fin 2)
     g.active = false ∧ g.lastHb + 30000000 ≤ (30000000 : BitVec 64).toNat ∧
     after (.managerFailover 1 30000000) State.reset (fun u => (mgrOf u 1).active && (mgrOf u 1).term == 1) = true ∧
     after (.managerFailover 1 29999999) State.reset (fun u => !(mgrOf u 1).active) = true) := by decide +kernel

/-- R692: an epoch adds S = 40 J (1 ms at 40 kW/s) to the balance, no more than 200 J, and takes off what fell short. -/
theorem test_flue_epoch : after (.flueEpoch 0 [] 200000 []) (mgr fun g => { g with budget := 100000 }) (fun u => (mgrOf u 0).budget == 140000) = true ∧
    after (.flueEpoch 0 [] 200000 []) (mgr fun g => { g with budget := 170000 }) (fun u => (mgrOf u 0).budget == 200000) = true := by decide +kernel

theorem test_meets_GrantsAndSharesStayWithinContract :
    let g := mgrOf (mgr id) 0
    g.parts.Pairwise (fun a b => a.1 < b.1) ∧ 0 ≤ g.budget ∧ drawSum g ≤ 1000 * g.envelope ∧ (∀ e ∈ g.parts, e.2.cords ≤ 15) ∧
    g.parts.foldl (fun n e => n + (if e.2.missing = true then e.2.slew else 1)) 0 ≤ 1000 * g.slewS ∧
    (grantCords g 3 1).budget = g.budget - 25000 := by decide +kernel

theorem test_meets_EveryStepKeepsContract :
    (∀ g ∈ [State.reset.flue.a, State.reset.flue.b, (mgr id).flue.a], 5 ≤ g.slewS ∧ g.slewS ≤ 200 ∧ g.envelope ≤ 310000 ∧ g.confEnv ≤ 310000 ∧
      g.fixed ≤ 40000 ∧ g.newS = none ∧ g.newEnv = none ∧ g.newFixed = none ∧ g.budget ≤ 200000 ∧ g.shelves ≤ 4 ∧
      (∀ e ∈ g.parts, e.2.cords ≤ 15 ∧ e.2.prev ≤ 15 ∧ e.2.slew ≤ 2500)) ∧
    step { mgr id with pending := [.shelfFailure] } = exec .shelfFailure (mgr id) := ⟨by decide +kernel, rfl⟩

end Sys2Proof.Tests
end

section
/-! PROOFS. Registers by address (R216, R512, R765, R777): what a permitted access of eight bytes to a TCB_GREG, to a queue's
base and to TCB_DRAWER_ECC does, and that a block in reset takes no write of the management agent. -/

namespace Sys2Proof.Machine
open Sys2Proof

/-- The part is powered and in no part-fatal reset. -/
def Up (s : Dev) : Prop := s.pf.phase ≠ 2 ∧ railsUp s = true

/-! ### The balls -/

/-- A write that leaves power as it is sends no message of a ball (R163). -/
theorem nxp_of_pwr_eq {s u : Dev} (h : u.pwr = s.pwr) : nxp s u = u := by
  have hb : ballsOf u = ballsOf s := by rw [ballsOf, ballsOf, h]
  simp [nxp, hb]

theorem execRegisterWrite_of_pwr_eq {s : State} {agent : RegAgent} {tcb : Option TileId} {off : BitVec 24} {four : Bool}
    {v : Word} {u : Dev} (h : anyWrite s.dev agent tcb off four v = u) (hp : u.pwr = s.dev.pwr) :
    execRegisterWrite agent tcb off four v s = .next (withDev s u) := by
  rw [execRegisterWrite, onDev_eq, h, nxp_of_pwr_eq hp]

/-! ### Whole registers -/

/-- The bits an access of eight bytes carries. -/
def allBits : Word := BitVec.allOnes 64

@[simp] theorem enMask_eight (off : Nat) (cross : Word) : enMask false off cross = allBits := rfl

/-- A write that carries every bit replaces the register. -/
@[simp] theorem mergeW_allBits (cur v : Word) : mergeW cur v allBits = v := by
  simp [mergeW, allBits, -BitVec.reduceAllOnes]

/-- Clearing the low `n` bits of a word leaves the multiple of `2 ^ n` below it. -/
theorem and_not_low (w : Word) (n : Nat) :
    w &&& ~~~(BitVec.ofNat 64 (2 ^ n - 1)) = BitVec.ofNat 64 (w.toNat / 2 ^ n * 2 ^ n) := by
  apply BitVec.eq_of_getLsbD_eq
  intro i hi
  simp only [BitVec.getLsbD_and, BitVec.getLsbD_not, BitVec.getLsbD_ofNat, hi, decide_true, Bool.true_and,
    Nat.testBit_two_pow_sub_one, Nat.testBit_mul_two_pow, Nat.testBit_div_two_pow, BitVec.testBit_toNat]
  by_cases hn : i < n
  · simp [hn]
  · simp [hn, Nat.not_lt.mp hn]

/-! ### Offsets -/

theorem div_mul_eight {o : Nat} (h : o % 8 = 0) : o / 8 * 8 = o := Nat.div_mul_cancel (Nat.dvd_of_mod_eq_zero h)

/-- An offset below a window of a control block is not inside it. -/
theorem not_inWindow {o lo hi m : Nat} (h : o < m) (hm : m ≤ lo) : ¬(lo ≤ o ∧ o < hi) :=
  fun ⟨hlo, _⟩ => absurd (hm.trans hlo) (Nat.not_le.mpr h)

/-- The offset of a TCB_GREG fits the address, is aligned, and lies in the window of the g registers at its place (R216). -/
theorem gregOffset (r : RegNo) :
    let o := 0x100 + 8 * r.val
    (BitVec.ofNat 24 o).toNat = o ∧ o % 8 = 0 ∧ (0x100 ≤ o ∧ o < 0x200) ∧ (o - 0x100) / 8 = r.val := by
  revert r
  decide

/-- The offset of a queue's base fits the address, is aligned, and lies in the queues' block at the queue's place (R525). -/
theorem queueBaseOffset (q : TileId) :
    let o := 0x080018 + 0x100 * q.val
    (BitVec.ofNat 24 o).toNat = o ∧ o % 8 = 0 ∧ o / 0x10000 = 8 ∧ o % 0x10000 / 0x100 = q.val ∧ o % 0x10000 % 0x100 = 0x18 := by
  revert q
  decide +kernel

/-! ### Blocks out of reset -/

theorem ioInReset_of_up {s : Dev} (h : Up s) (o : Nat) : ioInReset s o = false := by simp [ioInReset, h.1, h.2]

theorem tcbInReset_of_up {s : Dev} (h : Up s) {t : Nat} (hf : (funcOf s (t / 128)).st = 3) : tcbInReset s t = false := by
  simp [tcbInReset, h.1, h.2, hf]

/-- A write of the management agent to a register of a control block that holds no WO field is performed (R767). -/
theorem anyWrite_tcb {s : Dev} (hu : Up s) {t : TileId} (hf : (funcOf s (t.val / 128)).st = 3) {off : BitVec 24} (v : Word)
    (ha : off.toNat % 8 = 0) (hr : off.toNat < 0x4000) :
    anyWrite s .mgmt (some t) off false v = tcbWriteReg s t off.toNat v allBits := by
  unfold anyWrite regWriteTcb tcbWrite
  rw [if_neg (by simp [alignedTo, ha])]
  dsimp only
  rw [if_pos (hr.trans (by decide)), if_neg (by simp [mayTcb]), if_neg (by simp [tcbInReset_of_up hu hf]),
    if_neg (not_inWindow hr (by decide)), if_neg (not_inWindow hr (by decide)), if_neg (not_inWindow hr (by decide))]
  simp [div_mul_eight ha]

/-- A write of the management agent to a register of the control space is performed. -/
theorem anyWrite_io {s : Dev} (hu : Up s) {off : BitVec 24} (v : Word) (ha : off.toNat % 8 = 0) :
    anyWrite s .mgmt none off false v = ioWrite s .mgmt off.toNat v allBits := by
  simp [anyWrite, alignedTo, ha, regWriteIo, div_mul_eight ha, ioInReset_of_up hu, atHalf]

/-- A write of the management agent to a block in reset is discarded (R777). -/
theorem anyWrite_io_reset {s : Dev} {off : BitVec 24} (h : ioInReset s (off.toNat / 8 * 8) = true) (four : Bool) (v : Word) :
    anyWrite s .mgmt none off four v = s := by
  simp [anyWrite, regWriteIo, refuseIf, h]

/-! ### The registers -/

/-- The write of a TCB_GREG of a halted core puts the whole register (R216). -/
def putGreg (x : Tile) (r : Nat) (v : Word) : Tile :=
  if r = 0 then x else { x with core := { x.core with g := mset 0 x.core.g r v } }

theorem tcbTileWrite_greg (s : Dev) (t : Nat) {x : Tile} (r : RegNo) (v : Word) (hh : x.core.halted = true) :
    tcbTileWrite s t x (0x100 + 8 * r.val) v allBits = putGreg x r v := by
  obtain ⟨-, -, hwin, hplace⟩ := gregOffset r
  unfold tcbTileWrite
  dsimp only
  rw [if_pos hwin, if_pos hh, hplace, mergeW_allBits, putGreg]

theorem tcbWriteReg_greg (s : Dev) (t : Nat) (r : RegNo) (v : Word) (hh : (tileOf s t).core.halted = true) :
    tcbWriteReg s t (0x100 + 8 * r.val) v allBits = setTile s t (putGreg (tileOf s t) r v) := by
  obtain ⟨-, -, ⟨hlo, hhi⟩, -⟩ := gregOffset r
  unfold tcbWriteReg
  rw [if_neg (not_inWindow hhi (by decide)), if_neg (not_inWindow hhi (by decide)), if_neg (by omega), if_neg (by omega),
    modTile, tcbTileWrite_greg s t r v hh]

theorem getG_putGreg (x : Tile) (r q : Nat) (v : Word) :
    getG (putGreg x r v) q = if q = r ∧ q ≠ 0 then v else getG x q := by
  unfold putGreg getG
  by_cases hq : q = 0
  · simp [hq]
  · by_cases hr : r = 0
    · simp [hr, hq]
    · simp [hr, hq, mget_mset]

@[simp] theorem putGreg_pc (x : Tile) (r : Nat) (v : Word) : (putGreg x r v).core.pc = x.core.pc := by
  unfold putGreg; split <;> rfl

@[simp] theorem putGreg_spad (x : Tile) (r : Nat) (v : Word) : (putGreg x r v).spad = x.spad := by
  unfold putGreg; split <;> rfl

@[simp] theorem wqOf_modWq_same (s : Dev) (q : Nat) (f : WqSt → WqSt) : wqOf (modWq s q f) q = f (wqOf s q) := by
  simp [wqOf, modWq]

theorem wqOf_modWq_other (s : Dev) {q r : Nat} (f : WqSt → WqSt) (h : r ≠ q) : wqOf (modWq s q f) r = wqOf s r := by
  simp [wqOf, modWq, mget_mmod_other _ _ _ h]

/-- Queue registers lie in the ninth block of the control space, 256 bytes to a queue. -/
theorem ioWrite_queue (s : Dev) (agent : RegAgent) {o : Nat} (h : o / 0x10000 = 8) (v en : Word) :
    ioWrite s agent o v en = queueWrite s agent (o % 0x10000 / 0x100) (o % 0x10000 % 0x100) v en := by
  unfold ioWrite
  rw [h]
  rfl

theorem queueWrite_base (s : Dev) (agent : RegAgent) (q : Nat) (v en : Word) : queueWrite s agent q 0x18 v en =
    queueConfig s q (fun k => { k with ring := mergeW k.ring v en &&& 0xFFFFFFFFFFFFF00F }) := rfl

/-- The write of a queue's base puts the base and size fields, and nothing while the queue is enabled (R512). -/
theorem ioWrite_queueBase (s : Dev) (q : TileId) (v : Word) :
    ioWrite s .mgmt (0x080018 + 0x100 * q.val) v allBits =
      queueConfig s q (fun k => { k with ring := v &&& 0xFFFFFFFFFFFFF00F }) := by
  obtain ⟨-, -, hblock, hplace, hreg⟩ := queueBaseOffset q
  rw [ioWrite_queue s .mgmt hblock, hplace, hreg, queueWrite_base]
  simp only [mergeW_allBits]

/-- A PF reads a control block of a powered leaf (R473, R767). -/
theorem execRcRead_tcb {s : State} (hu : Up s.dev) {t : TileId} (hf : (funcOf s.dev (t.val / 128)).st = 3) (port : Fin 2)
    {off : BitVec 24} (ha : off.toNat % 8 = 0) (hr : off.toNat < 0x4000) :
    let r := tcbReadReg s.dev (.host port 0) t off.toNat false
    execRcRead (.host port 0) (some t) off false s = .next (withDev s (send r.1 (.hostReply (leBytes 8 r.2) false))) := by
  unfold execRcRead anyRead regReadTcb tcbRead
  simp only [onDev_eq, Bool.false_eq_true, if_false]
  rw [if_neg (by simp [alignedTo, ha]), if_pos (hr.trans (by decide)), if_neg (by simp [mayTcb]),
    if_neg (by simp [tcbInReset_of_up hu hf]), if_neg (not_inWindow hr (by decide)), if_neg (not_inWindow hr (by decide)),
    if_neg (not_inWindow hr (by decide))]
  rfl

/-- The counters of TCB_DRAWER_ECC, its low 48 bits, are cleared by the read (R372). -/
def clearEcc (x : Tile) : Tile := { x with dr := { x.dr with ecc := BitVec.ofNat 64 (x.dr.ecc.toNat / 2 ^ 48 * 2 ^ 48) } }

theorem tcbVal_drawerEcc (s : Dev) (agent : RegAgent) (t : Nat) : tcbVal s agent t 0x740 = (tileOf s t).dr.ecc := rfl

/-- Clearing the RC fields of TCB_DRAWER_ECC. -/
theorem tcbClear_drawerEcc (x : Tile) : tcbClear x 0x740 (BitVec.ofNat 64 (2 ^ 48 - 1)) = clearEcc x := by
  rw [clearEcc, ← and_not_low]
  rfl

theorem tcbReadReg_drawerEcc (s : Dev) (agent : RegAgent) (t : Nat) :
    tcbReadReg s agent t 0x740 false = (setTile s t (clearEcc (tileOf s t)), (tileOf s t).dr.ecc.toNat) := by
  have hw : windowRefused (tileOf s t) 0x740 = false := by simp [windowRefused]
  have hm : clearMask (tcbRc 0x740) (tcbRcCross 0x740) false 0x740 = BitVec.ofNat 64 (2 ^ 48 - 1) := rfl
  simp [tcbReadReg, modTile, hw, hm, ← tcbClear_drawerEcc, tcbVal_drawerEcc, halfVal]

/-! ### The obligation -/

/-- Settles O38: each access is brought to the one register it names, and that register's own lemma says what it does. -/
theorem registerAccessesComplete : Obligations.RegisterAccessesComplete := by
  unfold Obligations.RegisterAccessesComplete
  intro s up
  refine ⟨fun t r v hu hf hh => ?greg, fun q v hu => ?queue, fun port t hu hf => ?ecc, fun off v h => ?reset⟩
  case greg =>
    obtain ⟨ho, halign, ⟨-, hhi⟩, -⟩ := gregOffset r
    have hw := anyWrite_tcb hu hf v (off := BitVec.ofNat 24 (0x100 + 8 * r.val)) (ho.symm ▸ halign)
      (ho.symm ▸ hhi.trans (by decide))
    rw [ho, tcbWriteReg_greg s.dev t r v hh] at hw
    refine ⟨_, execRegisterWrite_of_pwr_eq hw rfl, ?_, ?_, ?_, ?_⟩
    · intro q
      simp [getG_putGreg]
    · simp
    · simp
    · intro q hq
      exact tileOf_setTile_other _ _ (fun e => hq (Fin.ext e))
  case queue =>
    obtain ⟨ho, halign, -⟩ := queueBaseOffset q
    have hw := anyWrite_io hu v (off := BitVec.ofNat 24 (0x080018 + 0x100 * q.val)) (ho.symm ▸ halign)
    rw [ho, ioWrite_queueBase, queueConfig] at hw
    exact ⟨_, execRegisterWrite_of_pwr_eq hw rfl, wqOf_modWq_same _ _ _, fun r hr => wqOf_modWq_other _ _ hr, rfl⟩
  case ecc =>
    have hx := execRcRead_tcb hu hf port (off := 0x740) (by decide) (by decide)
    rw [show (0x740 : BitVec 24).toNat = 0x740 from rfl, tcbReadReg_drawerEcc] at hx
    refine ⟨_, hx, rfl, ?_, ?_, ?_, ?_⟩
    · simp [clearEcc]
    · simp [clearEcc]
    · simp [clearEcc]
    · intro q hq
      exact tileOf_setTile_other _ _ (fun e => hq (Fin.ext e))
  case reset =>
    have hw := anyWrite_io_reset h false v
    rw [exec_registerAccessInReset, execRegisterAccessInReset, onDev_eq]
    simp [namedInReset, h, hw, withDev]

end Sys2Proof.Machine
end

section
/-! PROOFS. Cabinet barriers and cabinet time (R594 to R600): what sending to another slot leaves alone, what the root and a
member make of a barrier message, what an exchange with the parent sets. -/

namespace Sys2Proof.Machine
open Sys2Proof

/-! ### Sending to another slot -/

/-- A part that differs at most in its Lenys links and streams, its wakes and the messages that left it. -/
def SameButLinks (s u : Dev) : Prop :=
  u = { s with out := u.out, wakes := u.wakes
               lny := { s.lny with ports := u.lny.ports, tx := u.lny.tx, held := u.lny.held, e2e := u.lny.e2e } }

namespace SameButLinks

variable {s u v : Dev}

theorem refl (s : Dev) : SameButLinks s s := rfl

theorem trans (h : SameButLinks s u) (k : SameButLinks u v) : SameButLinks s v := by
  unfold SameButLinks at h k ⊢
  rw [h] at k
  exact k

/-- The shape of the later state, for reading what the earlier one shares with it. -/
theorem eq (h : SameButLinks s u) : u = { s with
    out := u.out, wakes := u.wakes
    lny := { s.lny with ports := u.lny.ports, tx := u.lny.tx, held := u.lny.held, e2e := u.lny.e2e } } := h

theorem grpOf (h : SameButLinks s u) (g : Nat) : grpOf u g = Machine.grpOf s g :=
  (congrArg (Machine.grpOf · g) h.eq).trans rfl

theorem groupChannel (h : SameButLinks s u) (g : Nat) : groupChannel u g = Machine.groupChannel s g :=
  (congrArg (Machine.groupChannel · g) h.eq).trans rfl

theorem ctl (h : SameButLinks s u) : u.lny.ctl = s.lny.ctl := (congrArg (·.lny.ctl) h.eq).trans rfl

theorem tiles (h : SameButLinks s u) : u.tiles = s.tiles := (congrArg (·.tiles) h.eq).trans rfl

end SameButLinks

theorem sameButLinks_setLtx (s : Dev) (d : Nat) (t : LTx) : SameButLinks s (setLtx s d t) := rfl

theorem sameButLinks_linkSend (s : Dev) (p : Nat) (m : StreamMsg) : SameButLinks s (linkSend s p m) := by
  unfold linkSend
  dsimp only
  split
  · rfl
  · rfl

theorem sameButLinks_onLink (s : Dev) (m : StreamMsg) : SameButLinks s (onLink s m) := by
  unfold onLink
  split
  · exact sameButLinks_linkSend s _ _
  · split
    · exact .refl s
    · rfl

/-- A message to another slot is dropped, kept by its stream, or sent on a link: nothing else of the part changes (R584,
R588). -/
theorem sameButLinks_sendPeer (s : Dev) (d : Nat) (m : PeerMsg) : SameButLinks s (sendPeer s d m) := by
  unfold sendPeer
  split
  · split <;> rfl
  · dsimp only
    split
    · rfl
    · exact (sameButLinks_setLtx s _ _).trans (sameButLinks_onLink _ _)

theorem sameButLinks_sendPeers (l : List Nat) (m : Dev → PeerMsg) (s : Dev) :
    SameButLinks s (l.foldl (fun s d => sendPeer s d (m s)) s) := by
  induction l generalizing s with
  | nil => exact .refl s
  | cons d r ih => exact (sameButLinks_sendPeer s d (m s)).trans (ih _)

/-! ### A barrier group -/

@[simp] theorem grpOf_setGrp_same (s : Dev) (g : Nat) (q : LGrp) : grpOf (setGrp s g q) g = q := by simp [grpOf, setGrp]
@[simp] theorem setGrp_ctl (s : Dev) (g : Nat) (q : LGrp) : (setGrp s g q).lny.ctl = s.lny.ctl := rfl
@[simp] theorem setGrp_tiles (s : Dev) (g : Nat) (q : LGrp) : (setGrp s g q).tiles = s.tiles := rfl

/-- The group holds `q` in `u`, and the waiting messages and the tiles are those of `s`. -/
def GroupBecomes (s u : Dev) (g : Nat) (q : LGrp) : Prop := grpOf u g = q ∧ u.lny.ctl = s.lny.ctl ∧ u.tiles = s.tiles

theorem SameButLinks.groupBecomes_setGrp {s u : Dev} (h : SameButLinks s u) (g : Nat) (q : LGrp) :
    GroupBecomes s (setGrp u g q) g q := ⟨by simp, by simp [h.ctl], by simp [h.tiles]⟩

section
variable {s : Dev} {g : Nat} (hc : groupChannel s g = none)
include hc

/-- Without a local channel in the group, a release is the next generation with no arrive recorded (R595). -/
theorem memberRelease_of_no_channel :
    memberRelease s g = setGrp s g { grpOf s g with gen := ((grpOf s g).gen + 1) % 2 ^ 16, bits := [] } := by
  simp [memberRelease, hc]

/-- Without a local channel in the group, a broken release is generation 0 with the count it names (R595, R596). -/
theorem memberBroken_of_no_channel (aborts : Nat) (quiet : Bool) :
    memberBroken s g aborts quiet =
      setGrp s g { grpOf s g with gen := 0, aborts := aborts, bits := [], aborting := false } := by
  simp [memberBroken, hc]

theorem groupBecomes_rootAbort (quiet : Bool) : GroupBecomes s (rootAbort s g quiet) g
    { grpOf s g with gen := 0, aborts := min ((grpOf s g).aborts + 1) (2 ^ 16 - 1), bits := [], aborting := false } := by
  unfold rootAbort
  dsimp only
  have h := sameButLinks_sendPeers (otherMembers s (grpOf s g))
    (fun s' => .barrier 2 g 0 (satAdd 16 (grpOf s g).aborts 1) s'.lny.inc) s
  rw [memberBroken_of_no_channel (by rw [h.groupChannel, hc]), h.grpOf]
  exact h.groupBecomes_setGrp g _

/-- The last arrive: every member's bit is set, so the root releases (R595). -/
theorem groupBecomes_rootArrive_last {src : Nat} (hb : (grpOf s g).bits.contains src = false)
    (hall : ∀ m ∈ grpMembers (grpOf s g), ((grpOf s g).bits ++ [src]).contains m = true) :
    GroupBecomes s (rootArrive s g src) g { grpOf s g with gen := ((grpOf s g).gen + 1) % 2 ^ 16, bits := [] } := by
  unfold rootArrive
  simp only [hb, Bool.false_eq_true, if_false, List.all_eq_true.mpr hall, if_true]
  have h := sameButLinks_sendPeers (otherMembers s (grpOf s g))
    (fun s' => .barrier 1 g (grpOf s g).gen (grpOf s g).aborts s'.lny.inc) s
  rw [memberRelease_of_no_channel (by rw [h.groupChannel, hc]), h.grpOf]
  exact h.groupBecomes_setGrp g _

end

/-- An arrive that leaves a member's bit clear is recorded (R595). -/
theorem groupBecomes_rootArrive_early {s : Dev} {g src : Nat} (hb : (grpOf s g).bits.contains src = false)
    (hsome : ∃ m ∈ grpMembers (grpOf s g), ((grpOf s g).bits ++ [src]).contains m = false) :
    GroupBecomes s (rootArrive s g src) g { grpOf s g with bits := (grpOf s g).bits ++ [src] } := by
  have hall : (grpMembers (grpOf s g)).all (fun m => ((grpOf s g).bits ++ [src]).contains m) = false :=
    List.all_eq_false.mpr (by simpa using hsome)
  unfold rootArrive
  simp only [hb, Bool.false_eq_true, if_false, hall]
  exact (SameButLinks.refl s).groupBecomes_setGrp g _

/-! ### A barrier message -/

/-- The part with no message waiting for its unit. -/
def noCtl (s : Dev) : Dev := { s with lny := { s.lny with ctl := [] } }

@[simp] theorem grpOf_noCtl (s : Dev) (g : Nat) : grpOf (noCtl s) g = grpOf s g := rfl
@[simp] theorem noCtl_slot (s : Dev) : (noCtl s).lny.slot = s.lny.slot := rfl
@[simp] theorem noCtl_inc (s : Dev) : (noCtl s).lny.inc = s.lny.inc := rfl

theorem takeCtl_single {s : Dev} {e : Nat × PeerMsg} {f : Nat × PeerMsg → Bool} (h : s.lny.ctl = [e]) (hf : f e = true) :
    takeCtl s f = some (e, noCtl s) := by
  simp [takeCtl, h, hf, noCtl]

section
variable {s : State} {src g gen aborts : Nat} {inc : BitVec 32}

/-- The root takes an arrive of a member whose generation, abort count and incarnation match (R595). -/
theorem execBarrierArriveAtRoot_matching (h : s.dev.lny.ctl = [(src, .barrier 0 g gen aborts inc)])
    (hv : (grpOf s.dev g).valid = true) (hr : grpRoot (grpOf s.dev g) = s.dev.lny.slot)
    (hm : (grpMembers (grpOf s.dev g)).contains src = true) (hg : gen = (grpOf s.dev g).gen)
    (ha : aborts = (grpOf s.dev g).aborts) (hi : inc = s.dev.lny.inc) :
    execBarrierArriveAtRoot s = .next (withDev s (rootArrive (noCtl s.dev) g src)) := by
  rw [execBarrierArriveAtRoot, onDev_eq, takeCtl_single h rfl]
  simp [hv, hr, hg, ha, hi, List.contains_iff_mem.mp hm]

/-- A member takes its root's release when generation and abort count match (R595). -/
theorem execBarrierRelease_matching (h : s.dev.lny.ctl = [(src, .barrier 1 g gen aborts inc)])
    (hv : (grpOf s.dev g).valid = true) (hr : grpRoot (grpOf s.dev g) = src) (hg : gen = (grpOf s.dev g).gen)
    (ha : aborts = (grpOf s.dev g).aborts) :
    execBarrierRelease s = .next (withDev s (memberRelease (noCtl s.dev) g)) := by
  rw [execBarrierRelease, onDev_eq, takeCtl_single h rfl]
  simp [hv, hr, hg, ha]

/-- A member takes its root's broken release whatever generation it names (R595). -/
theorem execBarrierRelease_broken (h : s.dev.lny.ctl = [(src, .barrier 2 g gen aborts inc)])
    (hv : (grpOf s.dev g).valid = true) (hr : grpRoot (grpOf s.dev g) = src) :
    execBarrierRelease s = .next (withDev s (memberBroken (noCtl s.dev) g aborts (grpOf s.dev g).aborting)) := by
  rw [execBarrierRelease, onDev_eq, takeCtl_single h rfl]
  simp [hv, hr]

/-- The root takes a member's abort (R596). -/
theorem execBarrierAbort_member (h : s.dev.lny.ctl = [(src, .barrier 3 g gen aborts inc)])
    (hv : (grpOf s.dev g).valid = true) (hr : grpRoot (grpOf s.dev g) = s.dev.lny.slot)
    (hm : (grpMembers (grpOf s.dev g)).contains src = true) :
    execBarrierAbort s = .next (withDev s (rootAbort (noCtl s.dev) g false)) := by
  rw [execBarrierAbort, onDev_eq, takeCtl_single h rfl]
  simp [hv, hr, List.contains_iff_mem.mp hm]

end

/-! ### Cabinet time -/

section
variable {s : State} (hslave : s.dev.lny.master ≠ s.dev.lny.slot)
include hslave

/-- An exchange over a path to the parent records what it measures, and loads the counter when it is not valid yet (R599,
R600). -/
theorem execTimeExchange_path (hp : parentPath s.dev = true) (off : BitVec 16) (now : Word) :
    execTimeExchange off now s = .next (withDev s { s.dev with
      time := if s.dev.timeValid = true then s.dev.time else now.toNat
      timeValid := true
      lny := { s.dev.lny with
        offset := off.toNat, depth := hopCount s.dev.lny.slot s.dev.lny.master, holdover := false }
      clk := if s.dev.timeValid = true then s.dev.clk else { s.dev.clk with seen := [] } }) := by
  rw [execTimeExchange, onDev_eq]
  cases s.dev.timeValid with
  | true => simp [hslave, hp]
  | false => simp [hslave, hp, loadTime, modClk]

theorem execHoldover_no_path (hp : parentPath s.dev = false) :
    execHoldover s = .next (withDev s { s.dev with lny := { s.dev.lny with holdover := true } }) := by
  rw [execHoldover, onDev_eq]
  simp [hslave, hp]

end

/-- Settles O44: each message alone in its queue is taken by its unit, and the group follows the rule of its kind; the time
clauses are the two equations of the exchange and of holdover. -/
theorem cabinetBarriersAndTimeComplete : Obligations.CabinetBarriersAndTimeComplete := by
  unfold Obligations.CabinetBarriersAndTimeComplete
  intro s src g gen aborts inc q told root
  refine ⟨?arrive, fun hr => ⟨?release, ?broken⟩, ?abort, fun hslave => ⟨?exchange, ?holdover⟩⟩
  case arrive =>
    rintro ⟨hctl, hv, hc⟩ ⟨hr, hm⟩ hg ha hi hb
    refine ⟨_, execBarrierArriveAtRoot_matching hctl hv hr hm hg ha hi, ?_⟩
    by_cases hall : ∀ m ∈ grpMembers q, (q.bits ++ [src]).contains m = true
    · obtain ⟨hgrp, hctl', htiles⟩ := groupBecomes_rootArrive_last (s := noCtl s.dev) hc hb hall
      refine ⟨hctl', htiles, ?_, fun _ => hgrp⟩
      rintro ⟨m, hm, hn⟩
      exact absurd (hall m hm) (by rw [hn]; exact Bool.false_ne_true)
    · have hsome : ∃ m ∈ grpMembers q, (q.bits ++ [src]).contains m = false := by simpa using hall
      obtain ⟨hgrp, hctl', htiles⟩ := groupBecomes_rootArrive_early (s := noCtl s.dev) hb hsome
      exact ⟨hctl', htiles, fun _ => hgrp, fun h => absurd h hall⟩
  case release =>
    rintro ⟨hctl, hv, hc⟩ hg ha
    refine ⟨_, execBarrierRelease_matching hctl hv hr hg ha, ?_⟩
    rw [memberRelease_of_no_channel (s := noCtl s.dev) hc]
    exact (SameButLinks.refl (noCtl s.dev)).groupBecomes_setGrp g _
  case broken =>
    rintro ⟨hctl, hv, hc⟩
    refine ⟨_, execBarrierRelease_broken hctl hv hr, ?_⟩
    rw [memberBroken_of_no_channel (s := noCtl s.dev) hc]
    exact (SameButLinks.refl (noCtl s.dev)).groupBecomes_setGrp g _
  case abort =>
    rintro ⟨hctl, hv, hc⟩ ⟨hr, hm⟩
    exact ⟨_, execBarrierAbort_member hctl hv hr hm, groupBecomes_rootAbort (s := noCtl s.dev) hc false⟩
  case exchange =>
    intro hp off now
    exact ⟨_, execTimeExchange_path hslave hp off now, rfl, rfl, rfl, rfl⟩
  case holdover => exact execHoldover_no_path hslave

end Sys2Proof.Machine
end

section
/-! PROOFS. Recording an error (R736 to R751): what it leaves alone. -/

namespace Sys2Proof.Machine
open Sys2Proof

/-- A part that differs at most in its error records: the counters, the rings, the log's queue, charged work orders and the
part-fatal errors that wait. -/
def SameButRecords (s u : Dev) : Prop :=
  u = { s with io := u.io, fatal := u.fatal, rings := u.rings, wqs := u.wqs, corrLog := u.corrLog, logPend := u.logPend }

/-- Counting an error changes ERR_COUNT only. -/
theorem countClass_eq (s : Dev) (cls : Nat) : countClass s cls = { s with io := (countClass s cls).io } := by
  unfold countClass
  split <;> rfl

theorem sameButRecords_raiseErr (s : Dev) (part : Option Nat) (id cls unit : Nat) (ctx : Option Nat) (addr detail : Nat) :
    SameButRecords s (raiseErr s part id cls unit ctx addr detail) := by
  unfold SameButRecords raiseErr
  rw [countClass_eq]
  dsimp only
  split <;> split <;> rfl

section
variable (s : Dev) (part : Option Nat) (id cls unit : Nat) (ctx : Option Nat) (addr detail : Nat)

/-- The shape of the part once an error is recorded, for reading what it shares with the part before. -/
theorem raiseErr_eq : let u := raiseErr s part id cls unit ctx addr detail
    u = { s with io := u.io, fatal := u.fatal, rings := u.rings, wqs := u.wqs, corrLog := u.corrLog, logPend := u.logPend } :=
  sameButRecords_raiseErr s part id cls unit ctx addr detail

@[simp] theorem raiseErr_time : (raiseErr s part id cls unit ctx addr detail).time = s.time :=
  congrArg (·.time) (raiseErr_eq s part id cls unit ctx addr detail)
@[simp] theorem raiseErr_tiles : (raiseErr s part id cls unit ctx addr detail).tiles = s.tiles :=
  congrArg (·.tiles) (raiseErr_eq s part id cls unit ctx addr detail)
@[simp] theorem raiseErr_knots : (raiseErr s part id cls unit ctx addr detail).knots = s.knots :=
  congrArg (·.knots) (raiseErr_eq s part id cls unit ctx addr detail)
@[simp] theorem raiseErr_hbm : (raiseErr s part id cls unit ctx addr detail).hbm = s.hbm :=
  congrArg (·.hbm) (raiseErr_eq s part id cls unit ctx addr detail)
@[simp] theorem raiseErr_stack : (raiseErr s part id cls unit ctx addr detail).stack = s.stack :=
  congrArg (·.stack) (raiseErr_eq s part id cls unit ctx addr detail)
@[simp] theorem raiseErr_parts : (raiseErr s part id cls unit ctx addr detail).parts = s.parts :=
  congrArg (·.parts) (raiseErr_eq s part id cls unit ctx addr detail)
@[simp] theorem raiseErr_mgmt : (raiseErr s part id cls unit ctx addr detail).mgmt = s.mgmt :=
  congrArg (·.mgmt) (raiseErr_eq s part id cls unit ctx addr detail)
@[simp] theorem raiseErr_lny : (raiseErr s part id cls unit ctx addr detail).lny = s.lny :=
  congrArg (·.lny) (raiseErr_eq s part id cls unit ctx addr detail)
@[simp] theorem raiseErr_out : (raiseErr s part id cls unit ctx addr detail).out = s.out :=
  congrArg (·.out) (raiseErr_eq s part id cls unit ctx addr detail)

end

end Sys2Proof.Machine
end

section
/-! PROOFS. Attribution of repeated errors (R744): the errors of the last second, what makes a unit due, and how a failed tile
goes under repair (R42). -/

namespace Sys2Proof.Machine
open Sys2Proof

section
variable (s : Dev) (f : KnotSt → KnotSt)
@[simp] theorem modKnots_time : (modKnots s f).time = s.time := rfl
@[simp] theorem modKnots_tiles : (modKnots s f).tiles = s.tiles := rfl
@[simp] theorem modKnots_io : (modKnots s f).io = s.io := rfl
@[simp] theorem modKnots_parts : (modKnots s f).parts = s.parts := rfl
@[simp] theorem modKnots_knots : (modKnots s f).knots = f s.knots := rfl
@[simp] theorem modKnots_lny : (modKnots s f).lny = s.lny := rfl
@[simp] theorem modKnots_mgmt : (modKnots s f).mgmt = s.mgmt := rfl
@[simp] theorem modKnots_hbm : (modKnots s f).hbm = s.hbm := rfl
@[simp] theorem modKnots_stack : (modKnots s f).stack = s.stack := rfl
@[simp] theorem tileOf_modKnots (t : Nat) : tileOf (modKnots s f) t = tileOf s t := rfl
@[simp] theorem modKnots_out : (modKnots s f).out = s.out := rfl
end

/-! ### The errors of the last second -/

/-- An error of a unit in a word or row, found within the last second, is kept. -/
def Seen (s : Dev) (unit w : Nat) : Prop := ∃ t, (unit, w, t) ∈ s.knots.unc ∧ s.time < t + 1000000000

/-- The errors kept once a unit meets one in a word or row. -/
def errsNow (s : Dev) (unit word : Nat) : List (Nat × Nat × Nat) :=
  s.knots.unc.filter (fun e => decide (s.time < e.2.2 + 1000000000) && !(e.1 == unit && e.2.1 == word)) ++ [(unit, word, s.time)]

theorem attribute3_eq (s : Dev) (unit word : Nat) : attribute3 s unit word =
    (modKnots s (fun k => { k with unc := errsNow s unit word }), decide (3 ≤ (errsNow s unit word).countP (fun e => e.1 == unit))) :=
  rfl

theorem Seen.mem_errsNow {s : Dev} {unit w word : Nat} (h : Seen s unit w) (hw : w ≠ word) :
    ∃ t, (unit, w, t) ∈ errsNow s unit word := by
  obtain ⟨t, hmem, htime⟩ := h
  exact ⟨t, by simp [errsNow, hmem, htime, hw]⟩

/-- Errors seen in two further words and the one met now are three in distinct words. -/
theorem three_le_errsNow {s : Dev} {unit a b word : Nat} (ha : Seen s unit a) (hb : Seen s unit b) (hab : a ≠ b)
    (haw : a ≠ word) (hbw : b ≠ word) : 3 ≤ (errsNow s unit word).countP (fun e => e.1 == unit) := by
  obtain ⟨ta, hta⟩ := ha.mem_errsNow haw
  obtain ⟨tb, htb⟩ := hb.mem_errsNow hbw
  have hnow : (unit, word, s.time) ∈ errsNow s unit word := by simp [errsNow]
  have hnodup : [(unit, a, ta), (unit, b, tb), (unit, word, s.time)].Nodup := by simp [hab, haw, hbw]
  have hsub : [(unit, a, ta), (unit, b, tb), (unit, word, s.time)] ⊆ errsNow s unit word := by simp [hta, htb, hnow]
  simpa using (hnodup.subperm hsub).countP_le (fun e => e.1 == unit)

/-- A unit with no error kept has one after it meets one. -/
theorem errsNow_countP_of_none {s : Dev} {unit : Nat} (word : Nat) (h : ∀ e ∈ s.knots.unc, e.1 ≠ unit) :
    (errsNow s unit word).countP (fun e => e.1 == unit) = 1 := by
  have hnone : ∀ p : Nat × Nat × Nat → Bool, (s.knots.unc.filter p).countP (fun e => e.1 == unit) = 0 := by
    intro p
    simp only [List.countP_eq_zero, beq_iff_eq]
    exact fun e he => h e (List.mem_filter.mp he).1
  rw [errsNow, List.countP_append, hnone]
  simp

/-! ### Units due -/

/-- The positions due once one more is. -/
def dueWith (l : List Nat) (phys : Nat) : List Nat := if l.contains phys then l else l ++ [phys]

theorem contains_dueWith (l : List Nat) (phys : Nat) : (dueWith l phys).contains phys = true := by
  unfold dueWith
  split
  next h => exact h
  next => simp

theorem dueTile_eq (s : Dev) (phys : Nat) :
    dueTile s phys = modKnots s (fun k => { k with due := dueWith s.knots.due phys }) := by
  by_cases h : s.knots.due.contains phys = true <;> simp only [dueTile, dueWith, h, modKnots] <;> rfl

/-- The third distinct word makes a tile's position due (R744). -/
theorem tileUncorr_third {s : Dev} {t a b word : Nat} (hp : physOf s t < 288) (ha : Seen s (physOf s t) a)
    (hb : Seen s (physOf s t) b) (hab : a ≠ b) (haw : a ≠ word) (hbw : b ≠ word) :
    tileUncorr s t word = modKnots s (fun k => { k with
      unc := errsNow s (physOf s t) word, due := dueWith s.knots.due (physOf s t) }) := by
  have h3 := three_le_errsNow ha hb hab haw hbw
  simp only [tileUncorr, attribute3_eq, h3, hp, decide_true, Bool.and_self, if_true, dueTile_eq]
  rfl

/-- The first error of a tile's position is kept and makes nothing due. -/
theorem tileUncorr_first {s : Dev} {t : Nat} (word : Nat) (h : ∀ e ∈ s.knots.unc, e.1 ≠ physOf s t) :
    tileUncorr s t word = modKnots s (fun k => { k with unc := errsNow s (physOf s t) word, due := s.knots.due }) := by
  simp only [tileUncorr, attribute3_eq, errsNow_countP_of_none word h]
  rfl

/-! ### Failed tiles -/

theorem colSlot_eq_of_prowOf {w : Word} {r k : Nat} (h : prowOf w r = some k) : colSlot w k = r := by
  simpa [prowOf, colSlot] using List.find?_some h

theorem prowOf_lt {w : Word} {r k : Nat} (h : prowOf w r = some k) : k < 9 := by
  simpa using List.mem_of_find?_eq_some h

/-- The tile of the position that carries a logical tile is that tile (R25, R33). -/
theorem tileUnit_physOf {s : Dev} {t : Nat} (hp : physOf s t < 288) : tileUnit s (some (physOf s t)) = t := by
  unfold physOf at hp ⊢
  split at hp
  case h_1 k hk =>
    have hlt := prowOf_lt hk
    have hcol : physCol (t / 128 * 144 + k * 16 + t % 16) = t / 128 * 16 + t % 16 := by unfold physCol; omega
    have hrow : physRow (t / 128 * 144 + k * 16 + t % 16) = k := by unfold physRow; omega
    have hslot := colSlot_eq_of_prowOf hk
    have hlogical : t / 16 % 8 < 8 := by omega
    simp only [tileUnit, hcol, hrow, hslot, hlogical, if_true, colTile]
    omega
  case h_2 => exact absurd hp (by decide)

/-- A tile of no partition that fails is a notice, and goes to repair with no partition stopped (R42, R108). -/
theorem tileFailure_no_member {s : Dev} {phys : Nat} (id : Nat)
    (h : tileUnit s (some phys) = 0xFFFF ∨ (tileOf s (tileUnit s (some phys))).member = 0) :
    tileFailure s phys id = failTile (raiseErr s none id 4 (tileUnit s (some phys)) none 0 0) phys [] := by
  have hm : (if tileUnit s (some phys) = 0xFFFF then 0 else (tileOf s (tileUnit s (some phys))).member) = 0 := by
    rcases h with h | h <;> simp [h]
  simp [tileFailure, hm]

/-- A failed tile of a column that has its spare and no repair under way puts the spare under self-test (R42). -/
theorem failTile_spare {s : Dev} {phys r : Nat} (parts : List Nat) (hfull : fullLayer s = false)
    (hslot : colSlot (colOf s.knots.eff (physCol phys)) (physRow phys) < 8)
    (hrow : spareRow (colOf s.knots.eff (physCol phys)) = some r) (hunused : colSpare (colOf s.knots.eff (physCol phys)) = 0)
    (hjobs : s.knots.jobs.any (fun j => j.col == physCol phys) = false) :
    failTile s phys parts = modKnots s (fun k => { k with
      due := k.due.filter (fun u => u != phys), unc := k.unc.filter (fun e => e.1 != phys)
      jobs := k.jobs ++ [⟨physCol phys, physRow phys, r, colSlot (colOf s.knots.eff (physCol phys)) (physRow phys), parts, 0⟩] }) := by
  have hnone : ∀ p : RepairJob → Bool, s.knots.jobs.any (fun j => j.col == physCol phys && p j) = false := by
    intro p
    simp only [List.any_eq_false] at hjobs ⊢
    exact fun j hj => by simp [hjobs j hj]
  have h14 : colSlot (colOf s.knots.eff (physCol phys)) (physRow phys) ≠ 14 := by omega
  have h15 : colSlot (colOf s.knots.eff (physCol phys)) (physRow phys) ≠ 15 := by omega
  have hfull' : ∀ f : List Nat, ∀ g : List (Nat × Nat × Nat),
      fullLayer (modKnots s (fun k => { k with due := f, unc := g })) = false := fun _ _ => hfull
  unfold failTile
  simp only [modKnots] at hfull' ⊢
  simp [hnone, h14, h15, hrow, hunused, hjobs, hfull']

end Sys2Proof.Machine
end

section
/-! PROOFS. Repeated errors (R744): the third error of a pseudo-channel maps it out, the third of a tile makes it a failed tile. -/

namespace Sys2Proof.Machine
open Sys2Proof

/-! ### Entries of the map -/

theorem volEntry_eq (s : Dev) (e : KnotEntry) : volEntry s e = { s with knots := (volEntry s e).knots } := by
  unfold volEntry
  split
  · dsimp only
    rw [dueTile_eq]
    split
    · rfl
    · split
      · split <;> rfl
      · split <;> rfl
  · rfl
  · rfl

/-- Adding an entry changes the map only (R44, R48). -/
theorem addEntry_eq (s : Dev) (e : KnotEntry) : addEntry s e = { s with knots := (addEntry s e).knots } := by
  unfold addEntry
  split
  · exact volEntry_eq s e
  · rfl

@[simp] theorem addEntry_tiles (s : Dev) (e : KnotEntry) : (addEntry s e).tiles = s.tiles := congrArg (·.tiles) (addEntry_eq s e)
@[simp] theorem addEntry_hbm (s : Dev) (e : KnotEntry) : (addEntry s e).hbm = s.hbm := congrArg (·.hbm) (addEntry_eq s e)
@[simp] theorem addEntry_stack (s : Dev) (e : KnotEntry) : (addEntry s e).stack = s.stack := congrArg (·.stack) (addEntry_eq s e)

/-! ### A pseudo-channel is mapped out (R545) -/

/-- Adding the entry of a pseudo-channel puts no other one out. -/
theorem pcOut_addEntry_other (s : Dev) {pc q : Nat} (h : q ≠ pc) : pcOut (addEntry s (.pcOut pc)) q = pcOut s q := by
  unfold addEntry volEntry
  split
  · simp [volApply, modKnots, applyEntry, pcOut, mget_mset_other _ _ _ h]
  · rfl

section
variable {s : Dev} {pc : Nat} (hin : pcOut s pc = false)
include hin

/-- A pseudo-channel in service is recorded, put out at once and its entry added; what its controller holds for it goes. -/
theorem mapOut_eq : mapOut s pc = modHbm (modKnots (addEntry (raiseErr s none 0x5005 4 pc none 0 0) (.pcOut pc))
    (fun k => { k with eff := applyEntry k.eff (.pcOut pc) })) (fun h => { h with
      rowsBad := h.rowsBad.filter (fun r => r.1 != pc), queue := mset [] h.queue pc [], wb := h.wb.filter (fun w => w.1 != pc) }) :=
  if_neg (by simp [hin])

theorem pcOut_mapOut_same : pcOut (mapOut s pc) pc = true := by
  rw [mapOut_eq hin]
  simp [pcOut, applyEntry]

theorem pcOut_mapOut_other {q : Nat} (h : q ≠ pc) : pcOut (mapOut s pc) q = pcOut s q := by
  have hadd := pcOut_addEntry_other (raiseErr s none 0x5005 4 pc none 0 0) h
  rw [mapOut_eq hin]
  simpa [pcOut, applyEntry, mget_mset_other _ _ _ h] using hadd

theorem queue_mapOut : mget [] (mapOut s pc).hbm.queue pc = [] := by
  rw [mapOut_eq hin]
  simp

theorem mapOut_stack : (mapOut s pc).stack = s.stack := by
  rw [mapOut_eq hin]
  simp

theorem mapOut_tiles : (mapOut s pc).tiles = s.tiles := by
  rw [mapOut_eq hin]
  simp

end

/-! ### An uncorrectable error of a unit of stacked memory (R532, R551) -/

/-- A row that fails is noted by its controller only. -/
theorem failRow_eq (s : Dev) (pc loc : Nat) : failRow s pc loc = { s with hbm := (failRow s pc loc).hbm } := by
  unfold failRow
  dsimp only
  split <;> rfl

/-- The part once an uncorrectable unit is poisoned, counted and recorded. -/
def ueNoted (s : Dev) (part ctx : Option Nat) (pc loc addr detail : Nat) : Dev :=
  let s1 := { s with stackPoison := mset false s.stackPoison (stackKey pc loc / 64) true }
  let s2 := ioSet s1 regHbmEcc (setFld (incFld (ioGet s1 regHbmEcc) 47 32 1) 55 48 pc)
  raiseErr (failRow s2 pc loc) part 0x5002 1 pc ctx addr detail

section
variable (s : Dev) (part ctx : Option Nat) (pc loc addr detail : Nat)

@[simp] theorem ueNoted_knots : (ueNoted s part ctx pc loc addr detail).knots = s.knots := by
  simp only [ueNoted, raiseErr_knots]; rw [failRow_eq]; rfl
@[simp] theorem ueNoted_time : (ueNoted s part ctx pc loc addr detail).time = s.time := by
  simp only [ueNoted, raiseErr_time]; rw [failRow_eq]; rfl
@[simp] theorem ueNoted_stack : (ueNoted s part ctx pc loc addr detail).stack = s.stack := by
  simp only [ueNoted, raiseErr_stack]; rw [failRow_eq]; rfl
@[simp] theorem ueNoted_tiles : (ueNoted s part ctx pc loc addr detail).tiles = s.tiles := by
  simp only [ueNoted, raiseErr_tiles]; rw [failRow_eq]; rfl

end

/-- The row of a unit's error (log entry 21). -/
def rowWord (loc : Nat) : Nat := Config.hbmBank loc % 64 * 2 ^ 18 + Config.hbmRow loc % 2 ^ 18

/-- The third error of a pseudo-channel in a distinct row maps it out (R744): up to then only the error's own records change. -/
theorem hbmUe_third {s : Dev} (part ctx : Option Nat) {pc loc a b : Nat} (addr detail : Nat) (ha : Seen s (288 + pc) a)
    (hb : Seen s (288 + pc) b) (hab : a ≠ b) (har : a ≠ rowWord loc) (hbr : b ≠ rowWord loc) :
    ∃ v, hbmUe s part ctx pc loc addr detail = mapOut v pc ∧ v.knots.eff = s.knots.eff ∧ v.stack = s.stack ∧
      v.tiles = s.tiles := by
  obtain ⟨v, hv⟩ : ∃ v, v = ueNoted s part ctx pc loc addr detail := ⟨_, rfl⟩
  have hseen : ∀ {w}, Seen s (288 + pc) w → Seen v (288 + pc) w := by
    intro w h
    simpa [Seen, hv] using h
  have h3 := three_le_errsNow (hseen ha) (hseen hb) hab har hbr
  have hue : hbmUe s part ctx pc loc addr detail =
      if (attribute3 v (288 + pc) (rowWord loc)).2 then mapOut (attribute3 v (288 + pc) (rowWord loc)).1 pc
      else (attribute3 v (288 + pc) (rowWord loc)).1 := by rw [hv]; rfl
  rw [hue, attribute3_eq, if_pos (by simpa using h3)]
  exact ⟨_, rfl, by simp [hv], by simp [hv], by simp [hv]⟩

/-- An uncorrectable unit, under whatever partition, context and address its owner gives it. -/
theorem unitEcc_uncorrectable (s : Dev) (pc loc : Nat) :
    ∃ part ctx addr, unitEcc s pc loc 2 = hbmUe s part ctx pc loc addr 0 := ⟨_, _, _, rfl⟩

/-- A command slot with no write accepted reads a present unit of an open bank, and finds it uncorrectable (R532, R540). -/
theorem execHbmCommandSlot_uncorrectable {s : State} {pc : Fin 192} {loc : Fin 0x80000000} (hh : hasHbm s.dev = true)
    (hin : pcOut s.dev pc = false) (hq : mget [] s.dev.hbm.queue pc = []) (hcap : loc.val < pcCap s.dev)
    (hturn : scrubTurn s.dev pc = false) (hopen : bankClosed s.dev pc loc = false) :
    ∃ part ctx addr, execHbmCommandSlot pc loc 2 s =
      .next (withDev s (hbmUe (passSlot s.dev pc false) part ctx pc loc addr 0)) := by
  have hopen' : bankClosed (passSlot s.dev pc false) pc loc = false := hopen
  have hq' : mget [] (passSlot s.dev pc false).hbm.queue pc = [] := hq
  obtain ⟨part, ctx, addr, hue⟩ := unitEcc_uncorrectable (passSlot s.dev pc false) pc loc
  refine ⟨part, ctx, addr, ?_⟩
  rw [execHbmCommandSlot, onDev_eq, ← hue]
  simp [hh, hin, hq', hturn, hopen', Nat.not_le.mpr hcap]

/-! ### An uncorrectable error of a scratchpad word (R367) -/

/-- The tile once one of its words is poisoned and counted. -/
def uePoisoned (x : Tile) (word : Nat) : Tile :=
  spadPoison { x with dr := { x.dr with
    ecc := setFld (setFld (incFld x.dr.ecc 47 32 1) 52 48 (bankOf (64 * word))) 63 53 (wordOf (64 * word)) } } word

/-- The part once the word is poisoned and the error recorded. -/
def spadNoted (s : Dev) (t word inj : Nat) : Dev :=
  let o := drawerOwn (tileOf s t) (drawerOf (64 * word))
  tileErr (setTile s t (uePoisoned (tileOf s t) word)) t 0x1002 1 (if bit o 5 then some (fld o 13 6) else none) (64 * word) inj

theorem spadUe_eq (s : Dev) (t word inj : Nat) : spadUe s t word inj = tileUncorr (spadNoted s t word inj) t word := rfl

section
variable (s : Dev) (t word inj : Nat)

@[simp] theorem spadNoted_knots : (spadNoted s t word inj).knots = s.knots := by simp [spadNoted, tileErr]
@[simp] theorem spadNoted_time : (spadNoted s t word inj).time = s.time := by simp [spadNoted, tileErr]
@[simp] theorem tileOf_spadNoted : tileOf (spadNoted s t word inj) t = uePoisoned (tileOf s t) word := by
  simp [spadNoted, tileErr, tileOf]
@[simp] theorem physOf_spadNoted (u : Nat) : physOf (spadNoted s t word inj) u = physOf s u := by simp [physOf]
@[simp] theorem errsNow_spadNoted (unit w : Nat) : errsNow (spadNoted s t word inj) unit w = errsNow s unit w := by simp [errsNow]

end

/-- The scrubber's advance leaves the poison marks alone. -/
@[simp] theorem scrubStep_poison (r : DrawerSt) (bank : Nat) : (scrubStep r bank).poison = r.poison := by
  unfold scrubStep
  dsimp only
  split
  · rfl
  · split <;> rfl

/-- The part once the scrubber has met an uncorrectable word and gone on, its errors kept and the positions due as given. -/
def scrubbed (s : Dev) (t bank word : Nat) (due : List Nat) : Dev :=
  modTile (modKnots (spadNoted s t word 0) (fun k => { k with unc := errsNow s (physOf s t) word, due := due })) t
    (fun y => modDr y (fun r => scrubStep r bank))

/-- The tile the scrubber leaves. -/
theorem tileOf_scrubbed (s : Dev) (t bank word : Nat) (due : List Nat) :
    tileOf (scrubbed s t bank word due) t = modDr (uePoisoned (tileOf s t) word) (fun r => scrubStep r bank) := by
  simp [scrubbed]

section
variable {s : State} {t : TileId} {bank : Fin 24}

/-- The word a bank's slot reads. -/
def scrubWord (s : Dev) (t bank : Nat) : Nat := bankWord bank (mget 0 (tileOf s t).dr.scrubPos bank)

/-- A scrub slot that meets an uncorrectable word (R369, R744). -/
theorem execScrubSlot_uncorrectable (hdone : (tileOf s.dev t).dr.scrubDone.getLsbD bank = false) :
    execScrubSlot t bank false 2 s = .next (withDev s (attributeTile
      (modTile (tileUncorr (spadNoted s.dev t (scrubWord s.dev t bank) 0) t (scrubWord s.dev t bank)) t
        (fun y => modDr y (fun r => scrubStep r bank))) t)) := by
  rw [execScrubSlot, onDev_eq]
  simp [spadUe_eq, scrubWord, -BitVec.getLsbD_eq_getElem, hdone]

end

section
variable {s : State} {t : TileId} {bank : Fin 24}

/-- The third distinct word of a position makes its tile, of no partition, a failed tile at once (R42, R744). -/
theorem execScrubSlot_third {a b : Nat} (hdone : (tileOf s.dev t).dr.scrubDone.getLsbD bank = false)
    (hmember : (tileOf s.dev t).member = 0) (hp : physOf s.dev t < 288) (ha : Seen s.dev (physOf s.dev t) a)
    (hb : Seen s.dev (physOf s.dev t) b) (hab : a ≠ b) (haw : a ≠ scrubWord s.dev t bank) (hbw : b ≠ scrubWord s.dev t bank) :
    ∃ due, execScrubSlot t bank false 2 s = .next (withDev s (failTile
      (raiseErr (scrubbed s.dev t bank (scrubWord s.dev t bank) due) none 0x100C 4 t none 0 0) (physOf s.dev t) [])) := by
  let w := scrubWord s.dev t bank
  let due := dueWith s.dev.knots.due (physOf s.dev t)
  have hseen : ∀ {v}, Seen s.dev (physOf s.dev t) v →
      Seen (spadNoted s.dev t w 0) (physOf (spadNoted s.dev t w 0) t) v := by
    intro v h
    simpa [Seen] using h
  have hscrub : modTile (tileUncorr (spadNoted s.dev t w 0) t w) t (fun y => modDr y (fun r => scrubStep r bank)) =
      scrubbed s.dev t bank w due := by
    rw [tileUncorr_third (by simpa using hp) (hseen ha) (hseen hb) hab haw hbw, physOf_spadNoted, errsNow_spadNoted,
      spadNoted_knots]
    rfl
  have hdue : (scrubbed s.dev t bank w due).knots.due.contains (physOf s.dev t) = true := contains_dueWith _ _
  have hphys : physOf (scrubbed s.dev t bank w due) t = physOf s.dev t := by simp [physOf, scrubbed]
  have hunit : tileUnit (scrubbed s.dev t bank w due) (some (physOf s.dev t)) = t := by
    have h := tileUnit_physOf (hphys.symm ▸ hp : physOf (scrubbed s.dev t bank w due) t < 288)
    rwa [hphys] at h
  refine ⟨due, ?_⟩
  rw [execScrubSlot_uncorrectable hdone, hscrub, attributeTile, hphys, if_pos hdue,
    tileFailure_no_member 0x100C (.inr (by rw [hunit, tileOf_scrubbed]; exact hmember)), hunit]

/-- A position with no error kept has one after the slot, and its tile is not attributed. -/
theorem execScrubSlot_first (hdone : (tileOf s.dev t).dr.scrubDone.getLsbD bank = false)
    (hnone : ∀ e ∈ s.dev.knots.unc, e.1 ≠ physOf s.dev t) (hdue : s.dev.knots.due.contains (physOf s.dev t) = false) :
    execScrubSlot t bank false 2 s =
      .next (withDev s (scrubbed s.dev t bank (scrubWord s.dev t bank) s.dev.knots.due)) := by
  let w := scrubWord s.dev t bank
  have hscrub : modTile (tileUncorr (spadNoted s.dev t w 0) t w) t (fun y => modDr y (fun r => scrubStep r bank)) =
      scrubbed s.dev t bank w s.dev.knots.due := by
    rw [tileUncorr_first w (by simpa using hnone), physOf_spadNoted, errsNow_spadNoted, spadNoted_knots]
    rfl
  have hphys : physOf (scrubbed s.dev t bank w s.dev.knots.due) t = physOf s.dev t := by simp [physOf, scrubbed]
  rw [execScrubSlot_uncorrectable hdone, hscrub, attributeTile, hphys, if_neg (by simpa [scrubbed] using hdue)]

end

/-- Settles O50: the third distinct row or word is counted among the errors of the last second, and the unit is mapped out or
its position handed to field repair; a first error is only kept. -/
theorem repeatedErrorsAttributed : Obligations.RepeatedErrorsAttributed := by
  unfold Obligations.RepeatedErrorsAttributed
  intro s k seen
  refine ⟨?rows, ?words, ?first⟩
  case rows =>
    intro pc loc a b row hh hin hq hcap hturn hopen ha hb hab har hbr
    obtain ⟨part, ctx, addr, hexec⟩ := execHbmCommandSlot_uncorrectable hh hin hq hcap hturn hopen
    obtain ⟨v, hue, heff, hstack, htiles⟩ := hbmUe_third (s := passSlot s.dev pc false) part ctx addr 0 ha hb hab har hbr
    have hv : ∀ q, pcOut v q = pcOut s.dev q := fun q => by rw [pcOut, heff]; rfl
    rw [hue] at hexec
    exact ⟨_, (exec_hbmCommandSlot ..).trans hexec, pcOut_mapOut_same ((hv pc).trans hin),
      fun q hne => (pcOut_mapOut_other ((hv pc).trans hin) (fun h => hne (Fin.ext h))).trans (hv q),
      queue_mapOut ((hv pc).trans hin), (mapOut_stack ((hv pc).trans hin)).trans hstack,
      (mapOut_tiles ((hv pc).trans hin)).trans htiles⟩
  case words =>
    intro t bank a b r x w phys col hdone hmember ha hb hab haw hbw hp hslot hrow hunused hfull hjobs
    obtain ⟨due, hexec⟩ := execScrubSlot_third hdone hmember hp ha hb hab haw hbw
    obtain ⟨v, hv⟩ : ∃ v, v = raiseErr (scrubbed s.dev t bank w due) none 0x100C 4 t none 0 0 := ⟨_, rfl⟩
    have heff : v.knots.eff = k.eff := by simp [hv, scrubbed, k]
    have hvjobs : v.knots.jobs = k.jobs := by simp [hv, scrubbed, k]
    have htile : tileOf v t = modDr (uePoisoned x w) (fun r => scrubStep r bank) := by
      rw [← tileOf_scrubbed s.dev t bank w due]
      simp [hv, tileOf]
    have hfail := failTile_spare (s := v) (phys := phys) (r := r) [] (by simpa [hv, scrubbed, fullLayer] using hfull)
      (by rwa [heff]) (by rwa [heff]) (by rwa [heff]) (by rwa [hvjobs])
    have hexec' : execScrubSlot t bank false 2 s = .next (withDev s (failTile v phys [])) := by rw [hexec, hv]; rfl
    rw [hfail, heff] at hexec'
    refine ⟨_, (exec_scrubSlot ..).trans hexec', ?_, ?_, ?_, ?_⟩
    · simp [hvjobs, col]
    · simp
    · rw [withDev_dev, tileOf_modKnots, htile]; rfl
    · intro j
      rw [withDev_dev, tileOf_modKnots, htile]
      simp [modDr, uePoisoned, spadPoison, mget_mset]
  case first =>
    intro t bank x hdone hnone hdue
    refine ⟨_, (exec_scrubSlot ..).trans (execScrubSlot_first hdone hnone hdue), ?_, ?_, ?_⟩
    · simp [scrubbed, k]
    · simp [scrubbed, k]
    · simpa [scrubbed] using errsNow_countP_of_none _ hnone

end Sys2Proof.Machine
end

section
/-! PROOFS. The host's mailbox (R728): a request whose LEN is not that of its command's arguments is answered BAD_ARG (log
entry 60), so that its CODE alone does not say how it is answered. -/

namespace Sys2Proof.Machine
open Sys2Proof

/-- A command of fixed arguments whose LEN is not theirs is refused. -/
theorem cmdOf_bad_len {code len : Nat} (h8 : code ≠ 8) (h1 : 1 ≤ code) (h12 : code ≤ 12) (hlen : len ≠ argLen code)
    (arg : Nat → Nat → Nat) (bytes : Nat → Nat → List Byte) : cmdOf code len arg bytes = fun s => refuse s stBadArg :=
  if_pos ⟨h8, h1, h12, hlen⟩

theorem stage_ne_recovery {s : Dev} (h : fwUp s = true) : s.mgmt.stage ≠ 14 := by
  simp only [fwUp, Bool.and_eq_true, bne_iff_ne] at h
  exact h.1

/-- Every command the host may send is judged by its own rule alone at the control port. -/
theorem mgJudge_control_port {s : Dev} {port : Fin 2} {code : Nat} (run : Dev → MgAns) (hfw : fwUp s = true)
    (hport : port.val = s.ctrlPort) (hcode : cmdHost code = true) : mgJudge s (.host port) code run = run s := by
  simp [mgJudge, stage_ne_recovery hfw, hport, hcode]

/-- GET_ID at the control port with a LEN other than 0 is answered BAD_ARG. -/
theorem execMbxGo_getId_bad_len {s : State} {port : Fin 2} (hv : s.dev.pwr.vmgmt = true) (hfw : fwUp s.dev = true)
    (hdl : (hportOf s.dev port).dlUp = true) (hport : port.val = s.dev.ctrlPort) (hbusy : s.dev.mgmt.mbxBusy = false)
    (hcode : leNat (mbytes 0 s.dev.mgmt.mbxReq 0 1) = 1) (hlen : leNat (mbytes 0 s.dev.mgmt.mbxReq 2 2) ≠ 0) :
    execMbxGo port s = .next (withDev s (modMgmt s.dev (fun g => { g with
      mbxRsp := mwrite 0 [] 0 (mgReply 1 stBadArg []), mbxDone := true, mbxStatus := stBadArg }))) := by
  have hgo : mbxGo s.dev port = modMgmt s.dev (fun g => { g with
      mbxRsp := mwrite 0 [] 0 (mgReply 1 stBadArg []), mbxDone := true, mbxStatus := stBadArg }) := by
    unfold mbxGo
    rw [if_neg (not_not.mpr hport), if_neg (by simp [hbusy]), if_neg (by simp [hfw])]
    dsimp only
    rw [hcode, mgJudge_control_port _ hfw hport rfl, cmdOf_bad_len (by decide) (by decide) (by decide) hlen]
    rfl
  rw [execMbxGo, onDev_eq, hgo, if_pos (by simp [hv, hdl])]

/-- A part whose firmware runs and whose host has left GET_ID with a LEN of 4 in the mailbox of the control port. -/
def getIdWithArgs : State := withDev State.reset { Dev.reset with
  pwr := { PwrSt.reset with vmgmt := true }
  mgmt := { MgmtSt.reset with stage := 2, mbxReq := [(0, 1), (2, 4)] }
  hports := [(0, { HPort.reset with dlUp := true })] }

/-- Refutes O55: its clause of the mailbox puts no premise on LEN, and `getIdWithArgs` is answered BAD_ARG, not with the data of
GET_ID. -/
theorem not_managementCommandsComplete : ¬ Obligations.ManagementCommandsComplete := by
  unfold Obligations.ManagementCommandsComplete
  intro h
  obtain ⟨-, hmailbox⟩ := h getIdWithArgs false 0 rfl rfl rfl
  obtain ⟨-, hserved⟩ := hmailbox 0 rfl
  obtain ⟨u, hu, -, -, hstatus, -⟩ := hserved rfl rfl rfl
  have hbad := execMbxGo_getId_bad_len (s := getIdWithArgs) (port := 0) rfl rfl rfl rfl rfl rfl (by decide)
  rw [exec_mbxGo, hbad] at hu
  injection hu with hu
  rw [← hu] at hstatus
  exact absurd hstatus (by decide)

end Sys2Proof.Machine
end

section
/-! PROOFS. Field repair (R42 to R48, R83, R84): entries of the map with room in the field layer, the commit of the oldest entry,
the retirement of a dead tile's partitions, links that leave service. -/

namespace Sys2Proof.Machine
open Sys2Proof

/-- An instruction completes with what holds of the part its effect leaves. -/
theorem completes_onDev {i : Instr} {s : State} {d : Dev} {P : State → Prop} (h : exec i s = .next (withDev s d))
    (hp : P (withDev s d)) : Completes i s P := ⟨_, h, hp⟩

/-! ### Entries while the field layer has room -/

/-- With room in the field layer an entry waits for its flash write (R44). -/
theorem addEntry_room {s : Dev} (e : KnotEntry) (h : fullLayer s = false) :
    addEntry s e = modKnots s (fun k => { k with flashPend := k.flashPend ++ [e] }) := if_neg (by simp [h])

@[simp] theorem fullLayer_raiseErr (s : Dev) (part : Option Nat) (id cls unit : Nat) (ctx : Option Nat) (addr detail : Nat) :
    fullLayer (raiseErr s part id cls unit ctx addr detail) = fullLayer s := by simp [fullLayer]

theorem fullLayer_eq_false {s : Dev} : fullLayer s = false ↔ s.knots.field.length + s.knots.flashPend.length < 1024 := by
  simp [fullLayer]

/-- The part once its oldest waiting entry, before `r`, is committed. -/
def committed (s : Dev) (e : KnotEntry) (r : List KnotEntry) : Dev := commitEntry (modKnots s (fun k => { k with flashPend := r })) e

/-- The map once an entry is committed with room in the field layer (R27, R44). -/
def knotsCommitted (k : KnotSt) (e : KnotEntry) (r : List KnotEntry) : KnotSt :=
  { k with field := k.field ++ [e], eff := applyEntry k.eff e, gen := k.gen + 1, flashPend := r }

section
variable {s : Dev} (e : KnotEntry) (r : List KnotEntry) (h : s.knots.field.length < 1024)
include h

theorem committed_knots : (committed s e r).knots = knotsCommitted s.knots e r := by
  simp [committed, commitEntry, h, logWrite, modMgmt, knotsCommitted]

theorem committed_parts : (committed s e r).parts = s.parts := by
  simp [committed, commitEntry, h, logWrite, modMgmt]

end

/-- A column in which no failure waits is left as it is (R56). -/
theorem wakeColumn_idle {s : Dev} {col : Nat} (h : ∀ j ∈ s.knots.jobs, ¬(j.col = col ∧ j.stage = 4)) : wakeColumn s col = s := by
  have hnone : s.knots.jobs.filter (fun j => j.col == col && j.stage == 4) = [] := by
    simpa [List.filter_eq_nil_iff] using h
  have hall : s.knots.jobs.filter (fun j => !(j.col == col && j.stage == 4)) = s.knots.jobs := by
    rw [List.filter_eq_self]
    intro j hj
    have := h j hj
    simp only [not_and] at this
    by_cases hc : j.col = col <;> simp [hc, this]
  unfold wakeColumn
  rw [hnone, List.foldl_nil]
  simp only [modKnots, hall]

/-! ### Retirement of a dead tile's partitions (R46) -/

theorem aerPart_eq (s : Dev) (p : Nat) : aerPart s p = { s with out := (aerPart s p).out } := by
  unfold aerPart
  split <;> rfl

@[simp] theorem aerPart_knots (s : Dev) (p : Nat) : (aerPart s p).knots = s.knots := congrArg (·.knots) (aerPart_eq s p)
@[simp] theorem aerPart_parts (s : Dev) (p : Nat) : (aerPart s p).parts = s.parts := congrArg (·.parts) (aerPart_eq s p)

theorem partSt_modPart (s : Dev) (p q : Nat) (f : PartSt → PartSt) :
    partSt (modPart s p f) q = if q = p then f (partSt s p) else partSt s q := mget_mset _ _ _ _ _

@[simp] theorem partSt_modPart_same (s : Dev) (p : Nat) (f : PartSt → PartSt) : partSt (modPart s p f) p = f (partSt s p) := by
  simp [partSt_modPart]

/-- A retired partition is struck from the repairs, and nothing else of the map changes. -/
theorem retirePart_knots (s : Dev) (p : Nat) : (retirePart s p).knots = { s.knots with
    jobs := s.knots.jobs.map (fun j => { j with parts := j.parts.filter (fun r => decide (r ≠ p)) }) } := by
  have h : (modPart (raiseErr s (some p) 0xA002 2 0xFFFF none 0 0) p (fun q => { q with state := 4 })).knots = s.knots :=
    raiseErr_knots ..
  simp only [retirePart, modKnots_knots, aerPart_knots, h]

theorem partSt_retirePart (s : Dev) (p q : Nat) :
    partSt (retirePart s p) q = if q = p then { partSt s p with state := 4 } else partSt s q := by
  have h : ∀ q, partSt (retirePart s p) q =
      partSt (modPart (raiseErr s (some p) 0xA002 2 0xFFFF none 0 0) p (fun q => { q with state := 4 })) q := fun q => by
    simp only [partSt, retirePart, modKnots_parts, aerPart_parts]
  rw [h, partSt_modPart]
  simp [partSt]

section
variable (l : List Nat)

theorem foldl_retirePart_knots (s : Dev) :
    (l.foldl retirePart s).knots = { s.knots with jobs := (l.foldl retirePart s).knots.jobs } := by
  induction l generalizing s with
  | nil => rfl
  | cons p r ih => rw [List.foldl_cons, ih, retirePart_knots]

theorem foldl_retirePart_jobs {s : Dev} (h : s.knots.jobs = []) : (l.foldl retirePart s).knots.jobs = [] := by
  induction l generalizing s with
  | nil => exact h
  | cons p r ih => exact ih (by simp [retirePart_knots, h])

/-- A partition retired earlier stays retired, and each of the list is. -/
theorem foldl_retirePart_state {s : Dev} {p : Nat} (h : p ∈ l ∨ (partSt s p).state = 4) :
    (partSt (l.foldl retirePart s) p).state = 4 := by
  induction l generalizing s with
  | nil => simpa using h
  | cons q r ih =>
    refine ih ?_
    rw [partSt_retirePart]
    by_cases hq : p = q
    · simp [hq]
    · simpa [hq] using h

end

theorem retireTile_knots (s : Dev) (t : Nat) (parts : List Nat) :
    (retireTile s t parts).knots = { s.knots with jobs := (retireTile s t parts).knots.jobs } := foldl_retirePart_knots _ s

theorem retireTile_state {s : Dev} {p : Nat} (t : Nat) {parts : List Nat} (hp : p ∈ parts) (hv : (partSt s p).valid = true) :
    (partSt (retireTile s t parts) p).state = 4 :=
  foldl_retirePart_state _ (.inl (by simp [hp, hv]))

/-! ### The commit of the oldest entry (R44) -/

/-- The part once its oldest entry is off the list of those waiting: a moved tile's drawers wait for zeroing, a dead tile's
partitions retire, a repair is recorded or, with no spare left, its tile fails. -/
def afterCommit (s : Dev) (r : List KnotEntry) : KnotEntry → Dev
  | .tileMove col failed spare lrow =>
    wakeColumn (modTile (modKnots (committed s (.tileMove col failed spare lrow) r) (fun k => { k with
      jobs := k.jobs.map (fun j => if j.col = col ∧ j.stage = 1 then { j with stage := 2 } else j) })) (colTile col lrow) dirtyTile) col
  | .tileDead col failed lrow spare =>
    let c := committed s (.tileDead col failed lrow spare) r
    let mine (j : RepairJob) : Bool := j.col == col && j.failed == failed && j.stage == 3
    retireTile (modKnots c (fun k => { k with jobs := k.jobs.filter (fun j => !(mine j)) })) (colTile col lrow)
      ((c.knots.jobs.filter mine).flatMap (·.parts))
  | .repair w =>
    if sparesGone s w then tileFailure (modKnots s (fun k => { k with flashPend := r })) (fld w 13 5) 0x100C
    else repairNotice (committed s (.repair w) r) []
  | e => committed s e r

theorem execFieldEntryCommit_eq {s : State} {e : KnotEntry} {r : List KnotEntry} (hfw : fwUp s.dev = true)
    (hpend : s.dev.knots.flashPend = e :: r) : execFieldEntryCommit s = .next (withDev s (afterCommit s.dev r e)) := by
  rw [execFieldEntryCommit, onDev_eq, if_pos hfw, hpend]
  cases e <;> rfl

/-- With room in the field layer, a spare left for a row or column, and no failure waiting for its column's first, a commit
takes the entry into the field layer and the map (R27, R44). -/
theorem execFieldEntryCommit_takes {s : State} {e : KnotEntry} {r : List KnotEntry} (hfw : fwUp s.dev = true)
    (hpend : s.dev.knots.flashPend = e :: r) (hroom : s.dev.knots.field.length < 1024)
    (hspare : ∀ w, e = .repair w → sparesGone s.dev w = false) (hwait : ∀ j ∈ s.dev.knots.jobs, j.stage ≠ 4) :
    ∃ u, execFieldEntryCommit s = .next (withDev s u) ∧
      u.knots = { knotsCommitted s.dev.knots e r with jobs := u.knots.jobs } := by
  have hk : (committed s.dev e r).knots = knotsCommitted s.dev.knots e r := committed_knots e r hroom
  refine ⟨_, execFieldEntryCommit_eq hfw hpend, ?_⟩
  cases e with
  | tileMove col failed spare lrow =>
    rw [afterCommit, wakeColumn_idle]
    · simp [hk]
    · simp only [modTile_knots, modKnots_knots, hk, knotsCommitted, List.mem_map]
      rintro j ⟨i, hi, rfl⟩ ⟨-, hst⟩
      split at hst
      · simp at hst
      · exact hwait i hi hst
  | tileDead col failed lrow spare =>
    unfold afterCommit
    rw [retireTile_knots, modKnots_knots, hk]
  | repair w => simp [afterCommit, hspare w rfl, repairNotice, hk]
  | spareDead col prow => simp [afterCommit, hk]
  | pcOut pc => simp [afterCommit, hk]
  | lane port v => simp [afterCommit, hk]
  | fold phys ch => simp [afterCommit, hk]

/-! ### Links (R30, R37, R84) -/

/-- A link leaves service once: with room in the field layer its entry waits for flash, or was in the map or on its way
before. -/
theorem takeLink_room {s : Dev} (l : Nat × Bool × Bool) (h : fullLayer s = false) :
    ∃ added, (takeLink s l.1 l.2.1 l.2.2).knots = { s.knots with flashPend := s.knots.flashPend ++ added } ∧ added.length ≤ 1 ∧
      (.repair (linkOut l.1 l.2.1 l.2.2) ∈ s.knots.flashPend ++ added ∨ linkOut l.1 l.2.1 l.2.2 ∈ s.knots.eff.repairs) := by
  unfold takeLink
  dsimp only
  split
  next hin =>
    refine ⟨[], by simp, by simp, ?_⟩
    simpa using hin
  next =>
    refine ⟨[.repair (linkOut l.1 l.2.1 l.2.2)], ?_, by simp, by simp⟩
    rw [addEntry_room _ (by simpa using h)]
    simp

/-- Links leave service together while the field layer has room for each. -/
theorem foldl_takeLink_room (l : List (Nat × Bool × Bool)) {s : Dev}
    (h : s.knots.field.length + s.knots.flashPend.length + l.length ≤ 1024) :
    ∃ added, (l.foldl (fun s l => takeLink s l.1 l.2.1 l.2.2) s).knots = { s.knots with flashPend := s.knots.flashPend ++ added } ∧
      added.length ≤ l.length ∧
      ∀ x ∈ l, .repair (linkOut x.1 x.2.1 x.2.2) ∈ s.knots.flashPend ++ added ∨ linkOut x.1 x.2.1 x.2.2 ∈ s.knots.eff.repairs := by
  induction l generalizing s with
  | nil => exact ⟨[], by simp, by simp, by simp⟩
  | cons x r ih =>
    rw [List.length_cons] at h
    have hfull : fullLayer s = false := fullLayer_eq_false.mpr (by omega)
    obtain ⟨a, hk, hlen, hx⟩ := takeLink_room x hfull
    have hroom : (takeLink s x.1 x.2.1 x.2.2).knots.field.length + (takeLink s x.1 x.2.1 x.2.2).knots.flashPend.length +
        r.length ≤ 1024 := by
      rw [hk]
      simp only [List.length_append]
      omega
    obtain ⟨b, hkr, hlenr, hr⟩ := ih hroom
    rw [hk] at hkr hr
    refine ⟨a ++ b, ?_, ?_, ?_⟩
    · simp [hkr]
    · simp; omega
    · intro y hy
      rcases List.mem_cons.mp hy with rfl | hy
      · rcases hx with hx | hx
        · exact .inl (by rw [← List.append_assoc]; exact List.mem_append_left _ hx)
        · exact .inr hx
      · rw [← List.append_assoc]
        exact hr y hy

/-- A router has at most seven links (R37, R62 to R64). -/
theorem routerLinks_length (phys : Fin 288) : (routerLinks phys).length ≤ 7 := by
  revert phys
  decide +kernel

/-- With room in the field layer, what waits for flash still waits once a tile has failed. -/
theorem failTile_keeps_pending {s : Dev} {phys : Nat} {parts : List Nat} (hfull : fullLayer s = false) {e : KnotEntry}
    (he : e ∈ s.knots.flashPend) : e ∈ (failTile s phys parts).knots.flashPend := by
  have hadd : ∀ (u : Dev) (x : KnotEntry), fullLayer u = false → e ∈ u.knots.flashPend → e ∈ (addEntry u x).knots.flashPend := by
    intro u x hu h
    rw [addEntry_room x hu]
    simp [h]
  have hdies : ∀ (u : Dev) (a b c : Nat) (d : Option Nat), fullLayer u = false → e ∈ u.knots.flashPend →
      e ∈ (tileDies u a b c d parts).knots.flashPend := by
    intro u a b c d hu h
    simpa [tileDies, hu] using hadd u _ hu h
  have hfull' : fullLayer (modKnots s (fun k => { k with
      due := k.due.filter (fun u => u != phys), unc := k.unc.filter (fun e => e.1 != phys) })) = false := hfull
  unfold failTile
  dsimp only
  split
  · exact he
  · split
    · split
      · exact he
      · exact he
    · split
      · exact hadd _ _ hfull' he
      · split
        · split
          · exact he
          · exact hdies _ _ _ _ _ hfull' he
        · exact hdies _ _ _ _ _ hfull' he

/-! ### The obligation -/

section
variable {s : State}

/-- A tile of no partition that fails as R42 expects puts its column's spare under test; a notice is recorded. -/
theorem execTileFailure_spare {phys : Fin 288} {r : Nat} (hfull : fullLayer s.dev = false)
    (hslot : colSlot (colOf s.dev.knots.eff (physCol phys)) (physRow phys) < 8)
    (hrow : spareRow (colOf s.dev.knots.eff (physCol phys)) = some r)
    (hunused : colSpare (colOf s.dev.knots.eff (physCol phys)) = 0) (hmember : ∀ t, (tileOf s.dev t).member = 0)
    (hjobs : s.dev.knots.jobs.any (fun j => j.col == physCol phys) = false) :
    ∃ u, execTileFailure phys s = .next (withDev s u) ∧ u.tiles = s.dev.tiles ∧ u.knots = { s.dev.knots with
      jobs := s.dev.knots.jobs ++
        [⟨physCol phys, physRow phys, r, colSlot (colOf s.dev.knots.eff (physCol phys)) (physRow phys), [], 0⟩]
      due := s.dev.knots.due.filter (fun d => d != phys.val), unc := s.dev.knots.unc.filter (fun e => e.1 != phys.val) } := by
  rw [execTileFailure, onDev_eq, tileFailure_no_member 0x100C (.inr (hmember _)),
    failTile_spare [] (by simpa using hfull) (by simpa using hslot) (by simpa using hrow) (by simpa using hunused)
      (by simpa using hjobs)]
  exact ⟨_, rfl, by simp, by simp⟩

/-- A spare that passes its test is mapped in by an entry on its way to flash (R43). -/
theorem execSpareSelfTestDone_pass {col : Fin 32} {j : RepairJob} (hfull : fullLayer s.dev = false) (hfw : fwUp s.dev = true)
    (hj : s.dev.knots.jobs.find? (fun j => j.col == col.val && j.stage == 0) = some j) :
    execSpareSelfTestDone col true s = .next (withDev s (modKnots s.dev (fun k => { k with
      jobs := k.jobs.map (fun i => if i = j then { i with stage := 1 } else i)
      flashPend := k.flashPend ++ [.tileMove j.col j.failed j.spare j.lrow] }))) := by
  have hfull' : fullLayer (modKnots s.dev (fun k => { k with
      jobs := k.jobs.map (fun i => if i = j then { i with stage := 1 } else i) })) = false := hfull
  rw [execSpareSelfTestDone, onDev_eq, if_pos hfw, hj]
  simp only [hfull, Bool.not_false, Bool.and_self, if_true, addEntry_room _ hfull']
  rfl

/-- A spare that fails leaves the entry of a dead tile on its way to flash (R43). -/
theorem execSpareSelfTestDone_fail {col : Fin 32} {j : RepairJob} (hfull : fullLayer s.dev = false) (hfw : fwUp s.dev = true)
    (hj : s.dev.knots.jobs.find? (fun j => j.col == col.val && j.stage == 0) = some j)
    (hwait : ∀ i ∈ s.dev.knots.jobs, i.col = col.val → i.stage ≠ 4) :
    execSpareSelfTestDone col false s = .next (withDev s (modKnots s.dev (fun k => { k with
      jobs := k.jobs.erase j ++ [⟨j.col, j.failed, 9, j.lrow, j.parts, 3⟩]
      flashPend := k.flashPend ++ [.tileDead j.col j.failed j.lrow (some j.spare)] }))) := by
  have hfull' : fullLayer (modKnots s.dev (fun k => { k with jobs := k.jobs.erase j })) = false := hfull
  have hdies : tileDies (modKnots s.dev (fun k => { k with jobs := k.jobs.erase j })) j.col j.failed j.lrow (some j.spare) j.parts =
      modKnots s.dev (fun k => { k with
        jobs := k.jobs.erase j ++ [⟨j.col, j.failed, 9, j.lrow, j.parts, 3⟩]
        flashPend := k.flashPend ++ [.tileDead j.col j.failed j.lrow (some j.spare)] }) := by
    rw [tileDies, hfull', addEntry_room _ hfull']
    rfl
  rw [execSpareSelfTestDone, onDev_eq, if_pos hfw, hj]
  simp only [Bool.false_and, Bool.false_eq_true, if_false, hdies]
  rw [wakeColumn_idle]
  simp only [modKnots_knots, List.mem_append, List.mem_singleton]
  rintro i (hi | rfl) ⟨hcol, hst⟩
  · exact hwait i (List.mem_of_mem_erase hi) hcol hst
  · simp at hst

/-- Once the entry of a dead tile is committed, the partition its failure stopped is retired, and its repair is over (R46). -/
theorem afterCommit_dead {s : Dev} {col failed lrow p : Nat} {spare : Option Nat} {r : List KnotEntry}
    (hroom : s.knots.field.length < 1024) (hjobs : s.knots.jobs = [⟨col, failed, 9, lrow, [p], 3⟩])
    (hvalid : (partSt s p).valid = true) :
    let e : KnotEntry := .tileDead col failed lrow spare
    let u := afterCommit s r e
    (partSt u p).state = 4 ∧ u.knots.jobs = [] ∧ u.knots.eff = applyEntry s.knots.eff e := by
  intro e u
  have hk : (committed s e r).knots = knotsCommitted s.knots e r := committed_knots e r hroom
  have hp : (committed s e r).parts = s.parts := committed_parts e r hroom
  have hu : u = retireTile (modKnots (committed s e r) (fun k => { k with jobs := [] })) (colTile col lrow) [p] := by
    have hcj : (committed s e r).knots.jobs = [⟨col, failed, 9, lrow, [p], 3⟩] := by rw [hk]; exact hjobs
    have hf : modKnots (committed s e r) (fun k => { k with
        jobs := k.jobs.filter (fun j => !(j.col == col && j.failed == failed && j.stage == 3)) }) =
        modKnots (committed s e r) (fun k => { k with jobs := [] }) := by
      simp [modKnots, hcj]
    simp only [u, e, afterCommit, hcj, hf]
    simp
  rw [hu]
  refine ⟨retireTile_state _ (by simp) ?_, foldl_retirePart_jobs _ rfl, ?_⟩
  · simpa [partSt, hp] using hvalid
  · rw [retireTile_knots, modKnots_knots, hk]
    rfl

/-- A replayed flit is counted under its UNIT, and in ERR_COUNT (R83, R736). -/
theorem raiseErr_corrected (s : Dev) (id unit : Nat) : raiseErr s none id 0 unit none 0 0 =
    { ioInc s regErrCount 15 0 1 with corrLog := mmod 0 s.corrLog (65536 * id + unit) (· + 1) } := rfl

end

/-- Settles O46: each step of a repair by the entries it makes, waits for and commits. -/
theorem fieldRepairCompletes : Obligations.FieldRepairCompletes := by
  unfold Obligations.FieldRepairCompletes
  intro s
  refine ⟨?failure, ?spare, ?commit, ?dead, ?noLink, ?link, ?flit, ?router⟩
  case failure =>
    intro phys r w v hfull hslot hrow hunused hmember hjobs
    obtain ⟨u, hu, htiles, hknots⟩ := execTileFailure_spare hfull hslot hrow hunused hmember hjobs
    exact ⟨_, (exec_tileFailure ..).trans hu, hknots, htiles⟩
  case spare =>
    intro col j hfull hfw hj
    refine ⟨⟨_, (exec_spareSelfTestDone ..).trans (execSpareSelfTestDone_pass hfull hfw hj), rfl, rfl⟩, fun hwait => ?_⟩
    exact ⟨_, (exec_spareSelfTestDone ..).trans (execSpareSelfTestDone_fail hfull hfw hj hwait), rfl, rfl⟩
  case commit =>
    intro e r hpend hroom hfw hspare hwait
    obtain ⟨u, hu, hknots⟩ := execFieldEntryCommit_takes hfw hpend hroom hspare hwait
    refine ⟨_, (exec_fieldEntryCommit ..).trans hu, ?_⟩
    simp only [withDev_dev]
    rw [hknots]
    exact ⟨rfl, rfl, rfl, rfl⟩
  case dead =>
    intro col failed lrow p spare r hpend hroom hfw hjobs hvalid
    exact ⟨_, (exec_fieldEntryCommit ..).trans (execFieldEntryCommit_eq hfw hpend), afterCommit_dead hroom hjobs hvalid⟩
  case noLink =>
    intro unit axis bridge h
    rw [exec_meshLinkOut, execMeshLinkOut, onDev_eq]
    simp [h, withDev]
  case link =>
    intro unit axis bridge hex w hfull hpend hmap
    refine completes_onDev ((exec_meshLinkOut ..).trans (onDev_eq ..)) ?_
    rw [withDev_dev, if_pos hex, takeLink]
    simp only [w] at hpend hmap
    rw [hpend, hmap, Bool.or_false, if_neg Bool.false_ne_true, addEntry_room _ (by simpa using hfull)]
    simp [w]
  case flit =>
    intro phys unit
    refine completes_onDev ((exec_flitReplay ..).trans (onDev_eq ..)) ?_
    rw [withDev_dev, raiseErr_corrected]
    refine ⟨?_, ?_, rfl, rfl⟩
    · simp [unit]
    · simp [ioInc, ioSet, ioGet, fld_incFld]
  case router =>
    intro phys hunit hroom
    refine completes_onDev ((exec_routerFailure ..).trans (onDev_eq ..)) ?_
    have hlen := routerLinks_length phys
    obtain ⟨added, hk, hadded, hin⟩ := foldl_takeLink_room (routerLinks phys) (s := s.dev) (by omega)
    obtain ⟨v, hv⟩ : ∃ v, v = (routerLinks phys).foldl (fun s l => takeLink s l.1 l.2.1 l.2.2) s.dev := ⟨_, rfl⟩
    rw [← hv] at hk
    have hfull : fullLayer v = false := fullLayer_eq_false.mpr (by rw [hk]; simp only [List.length_append]; omega)
    have hnone : tileUnit v (some phys) = 0xFFFF := by simpa only [tileUnit, hk] using hunit
    have hkeep : ∀ e ∈ v.knots.flashPend, e ∈ (tileFailure v phys 0x100E).knots.flashPend := fun e he => by
      rw [tileFailure_no_member _ (.inl hnone)]
      exact failTile_keeps_pending (by simpa using hfull) (by simpa using he)
    rw [withDev_dev, ← hv]
    rw [hk] at hkeep
    exact ⟨fun l hl => (hin l hl).imp_left (hkeep _), fun e he => hkeep e (by simp [he])⟩

end Sys2Proof.Machine
end

section
/-! PROOFS. The Lenys links (R567 to R578, R603): what a step of one port's link leaves in that port, and that it touches no other
port and no tile. -/

namespace Sys2Proof.Machine
open Sys2Proof

/-! ### A port after a change -/

theorem lportOf_modLport (s : Dev) (p q : Nat) (f : LPort → LPort) :
    lportOf (modLport s p f) q = if q = p then f (lportOf s p) else lportOf s q := mget_mset _ _ _ _ _

section
variable (s : Dev) (p : Nat) (f : LPort → LPort)
@[simp] theorem lportOf_modLport_same : lportOf (modLport s p f) p = f (lportOf s p) := by simp [lportOf_modLport]
@[simp] theorem modLport_knots : (modLport s p f).knots = s.knots := rfl
@[simp] theorem modLport_out : (modLport s p f).out = s.out := rfl
@[simp] theorem modLport_clk : (modLport s p f).clk = s.clk := rfl
@[simp] theorem modLport_inbox : (modLport s p f).lny.inbox = s.lny.inbox := rfl
end

theorem foldl_send_eq {α : Type} (f : α → Msg) (l : List α) (s : Dev) :
    l.foldl (fun u e => send u (f e)) s = { s with out := s.out ++ l.map f } := by
  induction l generalizing s with
  | nil => simp
  | cons a r ih =>
    rw [List.foldl_cons, ih]
    simp [send]

/-! ### Steps of one link -/

/-- A part in which one link's port is as given, and every other port and every tile is as before. -/
structure LinkStep (port : Nat) (s u : Dev) (q : LPort) : Prop where
  here : lportOf u port = q
  others : ∀ p, p ≠ port → lportOf u p = lportOf s p
  tiles : u.tiles = s.tiles

namespace LinkStep
variable {port : Nat} {s u v : Dev} {q r : LPort}

theorem refl (port : Nat) (s : Dev) : LinkStep port s s (lportOf s port) := ⟨rfl, fun _ _ => rfl, rfl⟩

theorem trans (h : LinkStep port s u q) (k : LinkStep port u v r) : LinkStep port s v r :=
  ⟨k.here, fun p hp => (k.others p hp).trans (h.others p hp), k.tiles.trans h.tiles⟩

/-- A change of the port is a step of its link. -/
theorem modLport (h : LinkStep port s u q) (f : LPort → LPort) : LinkStep port s (modLport u port f) (f q) :=
  ⟨by simp [h.here], fun p hp => by rw [lportOf_modLport, if_neg hp, h.others p hp], h.tiles⟩

/-- What leaves every port and tile alone may follow. -/
theorem same (h : LinkStep port s u q) (hl : v.lny.ports = u.lny.ports) (ht : v.tiles = u.tiles) : LinkStep port s v q :=
  ⟨by rw [← h.here, lportOf, hl, lportOf], fun p hp => by rw [← h.others p hp, lportOf, hl, lportOf], ht.trans h.tiles⟩

theorem raiseErr (h : LinkStep port s u q) (part : Option Nat) (id cls unit : Nat) (ctx : Option Nat) (addr detail : Nat) :
    LinkStep port s (raiseErr u part id cls unit ctx addr detail) q := h.same (by simp) (by simp)

theorem send (h : LinkStep port s u q) (m : Msg) : LinkStep port s (send u m) q := h.same rfl rfl

theorem sends {α : Type} (h : LinkStep port s u q) (f : α → Msg) (l : List α) :
    LinkStep port s (l.foldl (fun u e => Machine.send u (f e)) u) q := by
  rw [foldl_send_eq]
  exact h.same rfl rfl

theorem transmit (h : LinkStep port s u q) (m : StreamMsg) : LinkStep port s (transmit u port m)
    { q with replay := q.replay ++ [(q.txSeq, m)], txSeq := (q.txSeq + 1) % 1024 } := (h.send _).modLport _

/-- The words of the obligation: the port, and that only it changed. -/
theorem only {port : Fin 16} (h : LinkStep port s u q) :
    lportOf u port = q ∧ (∀ p : Fin 16, p ≠ port → lportOf u p = lportOf s p) ∧ u.tiles = s.tiles :=
  ⟨h.here, fun p hp => h.others p (fun e => hp (Fin.ext e)), h.tiles⟩

end LinkStep

/-! ### Training (R568, R572, R577) -/

/-- A port out of service: nothing is kept for replay and nothing waits (R34, R573). -/
def outOfService (q : LPort) : LPort := { q with st := 4, replay := [], outq := [] }

/-- The link state a port starts with (R572). -/
def freshLink (q : LPort) : LPort := { q with replay := [], outq := [], txSeq := 0, rxSeq := 0, asked := false, again := 0 }

/-- A port that starts to train, counted (R572). -/
def retrained (q : LPort) : LPort := { freshLink q with st := 1, stats := incFld q.stats 63 48 1 }

theorem startTraining_out {s : Dev} {p : Nat} (h : portOut s p = true) (count : Bool) :
    startTraining s p count = modLport s p outOfService := if_pos h

theorem startTraining_counted {s : Dev} {p : Nat} (h : portOut s p = false) :
    startTraining s p true = modLport s p retrained := if_neg (by simp [h])

section
variable {s : State} {port : Fin 16} {gen2 : Bool} {farSlot : TileId} {farPort : Fin 16} {farCab farInc : BitVec 32}

/-- The far end as a port has found it. -/
def withFar (gen2 : Bool) (farSlot : TileId) (farPort : Fin 16) (q : LPort) : LPort :=
  { q with farSlot := farSlot, farPort := farPort, gen2 := gen2 && !q.gen1Only }

theorem learnInc_known {s : Dev} {slot : Nat} {inc : BitVec 32} (h : (ltxOf s slot).inc = inc) : learnInc s slot inc = s :=
  if_pos h

theorem execLenysTraining_out (h : portOut s.dev port = true) (ok : Bool) :
    execLenysTraining port gen2 farSlot farPort farCab farInc ok s = .next (withDev s (modLport s.dev port outOfService)) := by
  rw [execLenysTraining, onDev_eq, if_pos h]
  rfl

theorem execLenysTraining_down (h : portOut s.dev port = false)
    (hst : (lportOf s.dev port).st = 1 ∨ (lportOf s.dev port).st = 3) :
    execLenysTraining port gen2 farSlot farPort farCab farInc false s =
      .next (withDev s (modLport s.dev port (fun q => { q with st := 3 }))) := by
  rw [execLenysTraining, onDev_eq, if_neg (by simp [h]), if_pos hst]
  rfl

theorem execLenysTraining_up (h : portOut s.dev port = false)
    (hst : (lportOf s.dev port).st = 1 ∨ (lportOf s.dev port).st = 3)
    (hfar : expectFar s.dev.lny.slot port = (farSlot.val, farPort.val)) (hcab : farCab = s.dev.lny.cabId) (hne : farCab ≠ 0)
    (hinc : (ltxOf s.dev farSlot).inc = farInc) :
    execLenysTraining port gen2 farSlot farPort farCab farInc true s = .next (withDev s
      (modLport (setLock s.dev (13 + port.val) true) port (fun q => { freshLink (withFar gen2 farSlot farPort q) with st := 2 }))) := by
  rw [execLenysTraining, onDev_eq, if_neg (by simp [h]), if_pos hst]
  simp only [Bool.not_true, Bool.false_eq_true, if_false]
  rw [if_pos ⟨hfar, hcab, hne⟩, learnInc_known]
  · rfl
  · exact hinc

theorem execLenysTraining_miswired (h : portOut s.dev port = false)
    (hst : (lportOf s.dev port).st = 1 ∨ (lportOf s.dev port).st = 3)
    (hfar : expectFar s.dev.lny.slot port ≠ (farSlot.val, farPort.val)) :
    execLenysTraining port gen2 farSlot farPort farCab farInc true s = .next (withDev s
      (raiseErr (modLport s.dev port (fun q => { withFar gen2 farSlot farPort q with st := 5 })) none 0x6004 4 (lnyUnit port 0)
        none 0 farSlot)) := by
  rw [execLenysTraining, onDev_eq, if_neg (by simp [h]), if_pos hst]
  simp only [Bool.not_true, Bool.false_eq_true, if_false]
  rw [if_neg (fun hc => hfar hc.1)]
  rfl

end

/-! ### Codewords (R570, R571, R578) -/

/-- A port with nothing kept for replay has a credit of every channel. -/
theorem hasCredit_nil {q : LPort} (h : q.replay = []) (v : VChan) : hasCredit q v = true := by
  simp [hasCredit, h]

/-- Every channel has its turn. -/
theorem mem_vchanTurn (rr : Nat) (v : VChan) : v ∈ vchanTurn rr := by
  have h5 : rr % 5 < 5 := Nat.mod_lt _ (by decide)
  unfold vchanTurn
  generalize rr % 5 = k at h5
  interval_cases k <;> cases v <;> simp

/-- The one message that waits is the next to leave once a credit is there. -/
theorem nextOut_single {q : LPort} {m : StreamMsg} (hout : q.outq = [m]) (hrep : q.replay = []) : nextOut q = some m := by
  unfold nextOut
  have hv : ∀ v, (if hasCredit q v then q.outq.find? (fun w => vchanOf w == v) else none) =
      if vchanOf m = v then some m else none := by
    intro v
    by_cases h : vchanOf m = v <;> simp [hasCredit_nil hrep, hout, h]
  simp only [hv]
  have hsome : ((vchanTurn q.rr).findSome? (fun v => if vchanOf m = v then some m else none)).isSome := by
    rw [List.findSome?_isSome_iff]
    exact ⟨vchanOf m, mem_vchanTurn .., by simp⟩
  obtain ⟨w, hw⟩ := Option.isSome_iff_exists.mp hsome
  obtain ⟨v, -, hvw⟩ := List.exists_of_findSome?_eq_some hw
  rw [hw]
  split at hvw
  · exact hvw.symm
  · cases hvw

/-- A message that waits alone leaves as the next codeword and is kept for replay. -/
theorem drainLink_single {s : Dev} {p : Nat} {m : StreamMsg} (hout : (lportOf s p).outq = [m]) (hrep : (lportOf s p).replay = []) :
    let q := lportOf s p
    let u := drainLink 1 s p
    (lportOf u p).outq = [] ∧ (lportOf u p).replay = [(q.txSeq, m)] ∧
      u.out = s.out ++ [.lenys p (vchanOf m) q.txSeq (ackNow q) m] ∧ u.lny.inbox = s.lny.inbox ∧ LinkStep p s u (lportOf u p) := by
  intro q u
  have hu : u = transmit (modLport s p (fun q => { q with
      outq := q.outq.erase m, rr := if vchanNum (vchanOf m) = 0 then q.rr else vchanNum (vchanOf m) })) p m := by
    simp only [u, drainLink, nextOut_single hout hrep]
  have hstep := ((LinkStep.refl p s).modLport (fun q => { q with
    outq := q.outq.erase m, rr := if vchanNum (vchanOf m) = 0 then q.rr else vchanNum (vchanOf m) })).transmit m
  rw [hu, hstep.here]
  exact ⟨by simp [hout], by simp [hrep, q], by simp [transmit, q, ackNow], by simp [transmit], hstep⟩

/-- What a port does with a codeword's own messages: those in sequence are delivered, others ask for a replay. -/
def takeMessages (s : Dev) (port seq : Nat) (ms : List StreamMsg) : Dev :=
  if seq = (lportOf s port).rxSeq then
    let u := modLport s port (fun q => { q with rxSeq := (q.rxSeq + 1) % 1024, asked := false })
    { u with lny := { u.lny with inbox := u.lny.inbox ++ ms } }
  else askRetry s port

theorem LinkStep.askRetry {port : Nat} {s u : Dev} {q : LPort} (h : LinkStep port s u q) :
    LinkStep port s (askRetry u port) { q with asked := true } := by
  unfold Machine.askRetry
  rw [h.here]
  split
  next hq =>
    rw [← hq]
    exact h
  next => exact (h.send _).modLport _

@[simp] theorem askRetry_inbox (s : Dev) (p : Nat) : (askRetry s p).lny.inbox = s.lny.inbox := by
  unfold askRetry
  split <;> rfl

section
variable {s : State} {port : Fin 16} {seq ack : Fin 1024} (hst : (lportOf s.dev port).st = 2)
include hst

theorem execCodewordReceive_idle : execCodewordReceive port seq ack 0 true [] s =
    .next (withDev s (drainLink (lportOf s.dev port).outq.length (modLport s.dev port (fun q => linkAck q ack)) port)) := by
  rw [execCodewordReceive, onDev_eq, if_neg (by simp [hst]), if_neg (by decide)]
  simp [linkAck]

theorem execCodewordReceive_data (hout : (lportOf s.dev port).outq = []) (ms : List StreamMsg) :
    execCodewordReceive port seq ack 0 false ms s =
      .next (withDev s (takeMessages (modLport s.dev port (fun q => linkAck q ack)) port seq ms)) := by
  rw [execCodewordReceive, onDev_eq, if_neg (by simp [hst]), if_neg (by decide)]
  simp [linkAck, hout, drainLink, takeMessages]

theorem execCodewordReceive_beyond {errs : Nat} (h : 15 < errs) (idle : Bool) (ms : List StreamMsg) :
    execCodewordReceive port seq ack errs idle ms s =
      .next (withDev s (askRetry (modLport s.dev port (fun q => { q with stats := incFld q.stats 31 16 1 })) port)) := by
  rw [execCodewordReceive, onDev_eq, if_neg (by simp [hst]), if_pos h]

/-! ### Replay (R571, R572) -/

/-- A port's replay from the codeword named, counted. -/
def replayed (s : Dev) (port seq : Nat) : Dev :=
  ((lportOf s port).replay.dropWhile (fun e => decide (e.1 ≠ seq))).foldl
    (fun u e => send u (.lenys port (vchanOf e.2) e.1 (ackNow (lportOf s port)) e.2))
    (raiseErr (modLport s port (fun q => { q with stats := incFld q.stats 47 32 1, again := q.again + 1 })) none 0x6001 0
      (lnyUnit port 0) none 0 1)

theorem execLinkReplay_eq : execLinkReplay port seq s = .next (withDev s
    (if 8 ≤ (lportOf s.dev port).again + 1 then startTraining (replayed s.dev port seq) port true
      else replayed s.dev port seq)) := by
  rw [execLinkReplay, onDev_eq, if_neg (by simp [hst])]
  rfl

end

section
variable (s : Dev) (port seq : Nat)

theorem linkStep_replayed : LinkStep port s (replayed s port seq)
    { lportOf s port with stats := incFld (lportOf s port).stats 47 32 1, again := (lportOf s port).again + 1 } :=
  (((LinkStep.refl port s).modLport _).raiseErr ..).sends ..

theorem replayed_out : (replayed s port seq).out = s.out ++
    ((lportOf s port).replay.dropWhile (fun e => decide (e.1 ≠ seq))).map
      (fun e => .lenys port (vchanOf e.2) e.1 (ackNow (lportOf s port)) e.2) := by
  unfold replayed
  rw [foldl_send_eq]
  simp

@[simp] theorem portOut_replayed (p : Nat) : portOut (replayed s port seq) p = portOut s p := by
  unfold replayed
  rw [foldl_send_eq]
  simp [portOut, laneEntry]

end

/-! ### Lanes (R48, R573) -/

/-- A lane's entry is one of the map: no port and no tile changes. -/
theorem LinkStep.addLane {port : Nat} {s u : Dev} {q : LPort} (h : LinkStep port s u q) (p v : Nat) :
    LinkStep port s (addEntry u (.lane p v)) q := by
  unfold addEntry
  split
  · exact h.same rfl rfl
  · exact h.same rfl rfl

section
variable {s : State} {port : Fin 16} {lane : Fin 5} (hin : laneEntry s.dev port / 64 ≠ 1)
include hin

theorem execLaneFail_spare (hspare : laneEntry s.dev port % 8 ≠ 7) (hfull : fullLayer s.dev = false) :
    execLaneFail port lane s = .next (withDev s
      (raiseErr (addEntry s.dev (.lane port (7 + 8 * lane.val))) none 0x6002 0 (lnyUnit port lane) none 0 0)) := by
  rw [execLaneFail, onDev_eq]
  simp [hin, hspare, hfull]

theorem execLaneFail_out (h : laneEntry s.dev port % 8 = 7 ∨ fullLayer s.dev = true) :
    execLaneFail port lane s = .next (withDev s
      (raiseErr (modLport (addEntry s.dev (.lane port (laneEntry s.dev port % 64 + 64))) port outOfService) none 0x6003 0
        (lnyUnit port lane) none 0 0)) := by
  have hno : ¬(laneEntry s.dev port % 8 ≠ 7 ∧ fullLayer s.dev = false) := by
    rcases h with h | h <;> simp [h]
  rw [execLaneFail, onDev_eq, if_neg hin, if_neg (by simpa using hno)]
  rfl

end

/-! ### The obligation -/

/-- Settles O42: every clause is a step of the port's own link. -/
theorem lenysLinksComplete : Obligations.LenysLinksComplete := by
  unfold Obligations.LenysLinksComplete
  intro s port q fresh out told only
  have hport := LinkStep.refl port.val s.dev
  refine ⟨fun hout => ⟨?outTraining, ?outRetrain, ?outWrite⟩, ?training, ?up, ?retrainWrite, ?down, ?lanes⟩
  case outTraining =>
    intro gen2 farSlot farPort farCab farInc ok
    exact completes_onDev ((exec_lenysTraining ..).trans (execLenysTraining_out hout ok)) (hport.modLport outOfService).only
  case outRetrain =>
    intro hst
    refine completes_onDev ((exec_portRetrain ..).trans (onDev_eq ..)) ?_
    rw [withDev_dev, if_pos hst, startTraining_out hout]
    exact (hport.modLport outOfService).only
  case outWrite =>
    intro hst
    refine completes_onDev ((exec_lenysRetrainWrite ..).trans (onDev_eq ..)) ?_
    rw [withDev_dev, if_pos hst, startTraining_out hout]
    exact (hport.modLport outOfService).only
  case training =>
    intro hin hst gen2 farSlot farPort farCab farInc far
    refine ⟨fun hfar hcab hne hinc => ?_, fun hfar => ?_, ?_⟩
    · refine completes_onDev ((exec_lenysTraining ..).trans (execLenysTraining_up hin hst hfar hcab hne hinc)) ?_
      obtain ⟨hq, hrest⟩ := ((hport.same (v := setLock s.dev (13 + port.val) true) rfl rfl).modLport
        (fun q => { freshLink (withFar gen2 farSlot farPort q) with st := 2 })).only
      have hlt : 13 + port.val < 64 := by omega
      exact ⟨hq, by simp [setLock, modClk, bit_setBit _ _ _ _ hlt], hrest⟩
    · exact completes_onDev ((exec_lenysTraining ..).trans (execLenysTraining_miswired hin hst hfar))
        ((hport.modLport (fun q => { withFar gen2 farSlot farPort q with st := 5 })).raiseErr ..).only
    · exact completes_onDev ((exec_lenysTraining ..).trans (execLenysTraining_down hin hst)) (hport.modLport _).only
  case up =>
    intro hst seq ack ms
    have hack := hport.modLport (fun q => linkAck q ack)
    refine ⟨fun m hm hall => ?waiting, fun hidle hseq => ?inOrder, fun hidle hseq => ?outOfOrder, fun errs idle herrs => ?beyond,
      fun hagain => ?replay, fun hagain hin => ?eighth, fun hin => ?retrain, fun hwin => ?window⟩
    case waiting =>
      have hrep : (linkAck q ack).replay = [] := by
        simpa [linkAck, List.filter_eq_nil_iff] using hall
      obtain ⟨hout, hkept, hsent, hinbox, hstep⟩ := drainLink_single (s := modLport s.dev port (fun q => linkAck q ack)) (p := port)
        (m := m) (by simpa [linkAck] using hm) (by simpa using hrep)
      refine completes_onDev ((exec_codewordReceive ..).trans (execCodewordReceive_idle hst)) ?_
      rw [withDev_dev, hm]
      refine ⟨hout, ?_, ?_, hinbox, (hack.trans hstep).only.2⟩
      · simpa [linkAck] using hkept
      · simpa [linkAck, ackNow] using hsent
    case inOrder =>
      refine completes_onDev ((exec_codewordReceive ..).trans (execCodewordReceive_data hst hidle ms)) ?_
      have heq : seq.val = (lportOf (modLport s.dev port (fun q => linkAck q ack)) port).rxSeq := by simpa [linkAck] using hseq
      rw [withDev_dev, takeMessages, if_pos heq]
      obtain ⟨hq, hrest⟩ := (hack.modLport (fun q => { q with rxSeq := (q.rxSeq + 1) % 1024, asked := false })).only
      exact ⟨by simp, congrArg (·.rxSeq) hq, congrArg (·.replay) hq, (congrArg (·.st) hq).trans hst, hrest⟩
    case outOfOrder =>
      refine completes_onDev ((exec_codewordReceive ..).trans (execCodewordReceive_data hst hidle ms)) ?_
      have hne : seq.val ≠ (lportOf (modLport s.dev port (fun q => linkAck q ack)) port).rxSeq := by simpa [linkAck] using hseq
      rw [withDev_dev, takeMessages, if_neg hne]
      obtain ⟨hq, hrest⟩ := hack.askRetry.only
      exact ⟨by simp, congrArg (·.rxSeq) hq, congrArg (·.asked) hq, hrest⟩
    case beyond =>
      refine completes_onDev ((exec_codewordReceive ..).trans (execCodewordReceive_beyond hst herrs idle ms)) ?_
      obtain ⟨hq, hrest⟩ := (hport.modLport (fun q => { q with stats := incFld q.stats 31 16 1 })).askRetry.only
      exact ⟨by simp, congrArg (·.asked) hq, congrArg (·.stats) hq, hrest⟩
    case replay =>
      refine completes_onDev ((exec_linkReplay ..).trans (execLinkReplay_eq hst)) ?_
      rw [withDev_dev, if_neg (by simp only [q] at hagain; omega)]
      exact ⟨replayed_out .., (linkStep_replayed ..).only⟩
    case eighth =>
      refine completes_onDev ((exec_linkReplay ..).trans (execLinkReplay_eq hst)) ?_
      rw [withDev_dev, if_pos (by simp only [q] at hagain; omega), startTraining_counted (by simpa using hin)]
      exact ((linkStep_replayed ..).modLport retrained).only
    case retrain =>
      refine completes_onDev ((exec_portRetrain ..).trans (onDev_eq ..)) ?_
      rw [withDev_dev, if_pos hst, startTraining_counted hin]
      exact (hport.modLport retrained).only
    case window =>
      refine completes_onDev ((exec_lenysRecalWindow ..).trans (onDev_eq ..)) ?_
      rw [withDev_dev, if_pos ⟨hst, hwin⟩]
      refine ⟨by simp [ioInc, ioSet, ioGet, fld_incFld], fun o ho => mget_mset_other _ _ _ ho, rfl, rfl⟩
  case retrainWrite =>
    intro hin hst
    refine completes_onDev ((exec_lenysRetrainWrite ..).trans (onDev_eq ..)) ?_
    rw [withDev_dev, if_pos hst, startTraining_counted hin]
    exact (hport.modLport retrained).only
  case down =>
    intro hst
    refine completes_onDev ((exec_portDown ..).trans (onDev_eq ..)) ?_
    obtain ⟨hq, hrest⟩ := (hport.modLport (fun q =>
      if q.st = 1 ∨ q.st = 2 ∨ q.st = 5 then { q with st := 3, replay := [], outq := [] } else q)).only
    exact ⟨hq.trans (if_pos hst), hrest⟩
  case lanes =>
    intro lane e hin
    refine ⟨fun hspare hfull => ?_, fun h => ?_⟩
    · refine completes_onDev ((exec_laneFail ..).trans (execLaneFail_spare hin hspare hfull)) ?_
      exact ⟨by simp [addEntry_room _ hfull], ((hport.addLane ..).raiseErr ..).only⟩
    · refine completes_onDev ((exec_laneFail ..).trans (execLaneFail_out hin h)) ?_
      refine ⟨fun hfull => ?_, (((hport.addLane ..).modLport outOfService).raiseErr ..).only⟩
      simp [addEntry_room _ hfull, e]

end Sys2Proof.Machine
end

section
/-! PROOFS. Partitions (R608 to R621, R753): the end of a partition's work leaves the management controller and the partitions'
states alone, a build makes its tiles members, and the commands and errors that lead to them. -/

namespace Sys2Proof.Machine
open Sys2Proof

/-! ### What the end of a partition's work leaves alone -/

/-- What decides whether a partition may be built: the management controller and the partitions' states. -/
def ruling (s : Dev) : MgmtSt × SMap PartSt := (s.mgmt, s.parts)

/-- The partition, plus one, a tile is a member of; 0 for none (R608). -/
def memberAt (t : Nat) (s : Dev) : Nat := (tileOf s t).member

/-- What each step of a fold keeps, the fold keeps. -/
theorem foldl_keeps {σ α β : Type} {f : σ → β} {g : σ → α → σ} (h : ∀ s a, f (g s a) = f s) (l : List α) (s : σ) :
    f (l.foldl g s) = f s := by
  induction l generalizing s with
  | nil => rfl
  | cons a r ih => exact (ih _).trans (h s a)

section
variable (s : Dev)
@[simp] theorem ruling_setTile (t : Nat) (x : Tile) : ruling (setTile s t x) = ruling s := rfl
@[simp] theorem ruling_modTile (t : Nat) (f : Tile → Tile) : ruling (modTile s t f) = ruling s := rfl
@[simp] theorem ruling_ioSet (o : Nat) (v : Word) : ruling (ioSet s o v) = ruling s := rfl
@[simp] theorem ruling_ioInc (o hi lo k : Nat) : ruling (ioInc s o hi lo k) = ruling s := rfl
@[simp] theorem ruling_modKnots (f : KnotSt → KnotSt) : ruling (modKnots s f) = ruling s := rfl
@[simp] theorem ruling_modBm (f : BmSt → BmSt) : ruling (modBm s f) = ruling s := rfl
@[simp] theorem ruling_modWq (q : Nat) (f : WqSt → WqSt) : ruling (modWq s q f) = ruling s := rfl
@[simp] theorem ruling_modClamp (c : Nat) (f : ClampSt → ClampSt) : ruling (modClamp s c f) = ruling s := rfl
@[simp] theorem ruling_setGrp (g : Nat) (q : LGrp) : ruling (setGrp s g q) = ruling s := rfl
@[simp] theorem ruling_raiseErr (part : Option Nat) (id cls unit : Nat) (ctx : Option Nat) (addr detail : Nat) :
    ruling (raiseErr s part id cls unit ctx addr detail) = ruling s := by simp [ruling]
@[simp] theorem ruling_sendPeer (d : Nat) (m : PeerMsg) : ruling (sendPeer s d m) = ruling s :=
  (congrArg ruling (sameButLinks_sendPeer s d m).eq).trans rfl
@[simp] theorem ruling_aerPart (p : Nat) : ruling (aerPart s p) = ruling s := (congrArg ruling (aerPart_eq s p)).trans rfl
end

/-- Changes of tiles, one after the other. -/
@[simp] theorem ruling_foldl_modTile (g : Dev → Nat → Tile → Tile) (l : List Nat) (s : Dev) :
    ruling (l.foldl (fun s t => modTile s t (g s t)) s) = ruling s := foldl_keeps (fun _ _ => ruling_modTile ..) _ _

/-! #### Errors of scratchpad words, and stores (R367, R619 step 5) -/

@[simp] theorem ruling_tileErr (s : Dev) (t id cls : Nat) (ctx : Option Nat) (addr detail : Nat) :
    ruling (tileErr s t id cls ctx addr detail) = ruling s := by simp [tileErr]

@[simp] theorem ruling_dueTile (s : Dev) (phys : Nat) : ruling (dueTile s phys) = ruling s := by simp [dueTile_eq]

@[simp] theorem ruling_volEntry (s : Dev) (e : KnotEntry) : ruling (volEntry s e) = ruling s := by
  unfold volEntry
  split
  · dsimp only
    split
    · simp
    · split
      · split <;> rfl
      · split <;> rfl
  · rfl
  · rfl

@[simp] theorem ruling_addEntry (s : Dev) (e : KnotEntry) : ruling (addEntry s e) = ruling s := by
  unfold addEntry
  split <;> simp

@[simp] theorem ruling_tileUncorr (s : Dev) (t word : Nat) : ruling (tileUncorr s t word) = ruling s := by
  have h1 : ruling (attribute3 s (physOf s t) word).1 = ruling s := rfl
  unfold tileUncorr
  dsimp only
  split
  · rw [ruling_dueTile, h1]
  · exact h1

@[simp] theorem ruling_metroInc (s : Dev) (t hi lo : Nat) : ruling (metroInc s t hi lo) = ruling s := by
  unfold metroInc
  split <;> simp

@[simp] theorem ruling_spadUe (s : Dev) (t word inj : Nat) : ruling (spadUe s t word inj) = ruling s := by simp [spadUe]

@[simp] theorem ruling_spadCorrected (s : Dev) (t word inj : Nat) : ruling (spadCorrected s t word inj) = ruling s := by
  unfold spadCorrected
  dsimp only
  split <;> simp

@[simp] theorem ruling_spadTouch (s : Dev) (t off : Nat) : ruling (spadTouch s t off) = ruling s := by
  unfold spadTouch
  dsimp only
  split
  · simp
  · split <;> simp

@[simp] theorem ruling_storeArrives (s : Dev) (m : PortReq) : ruling (storeArrives s m) = ruling s := by
  unfold storeArrives mergeTouch
  split
  · simp
  · split <;> simp

/-- Bytes stored to stacked memory change that memory only. -/
theorem stackPut_eq (s : Dev) (a : Nat) (bs : List Byte) :
    stackPut s a bs = { s with stack := (stackPut s a bs).stack, stackPoison := (stackPut s a bs).stackPoison } := by
  have hbyte : ∀ (u : Dev) (b : Nat) (v : Byte), stackPutByte u b v = { u with stack := (stackPutByte u b v).stack } := by
    intro u b v
    unfold stackPutByte
    split
    · split <;> rfl
    · rfl
  have hbytes : ∀ (l : List Byte) (p : Dev × Nat),
      (l.foldl (fun (p : Dev × Nat) b => (stackPutByte p.1 p.2 b, p.2 + 1)) p).1 =
        { p.1 with stack := (l.foldl (fun (p : Dev × Nat) b => (stackPutByte p.1 p.2 b, p.2 + 1)) p).1.stack } := by
    intro l
    induction l with
    | nil => intro p; rfl
    | cons b r ih =>
      intro p
      rw [List.foldl_cons, ih]
      simp only
      rw [hbyte p.1]
  unfold stackPut
  simp only [stackMark]
  rw [hbytes]

@[simp] theorem ruling_stackPut (s : Dev) (a : Nat) (bs : List Byte) : ruling (stackPut s a bs) = ruling s :=
  (congrArg ruling (stackPut_eq s a bs)).trans rfl
@[simp] theorem memberAt_stackPut (t : Nat) (s : Dev) (a : Nat) (bs : List Byte) :
    memberAt t (stackPut s a bs) = memberAt t s := (congrArg (memberAt t) (stackPut_eq s a bs)).trans rfl

theorem ruling_finishWrites (s : Dev) (ms : List Nat) : ruling (finishWrites s ms) = ruling s := by
  unfold finishWrites
  exact (foldl_keeps (fun s (q : HbmReq) => ruling_stackPut s q.addr q.data) _ _).trans (foldl_keeps ruling_storeArrives _ _)

/-! #### Halt and reset of a tile (R219, R619 steps 2 and 5) -/

theorem abandonWaits_keeps {β : Type} (f : Dev → β) (hsend : ∀ s d m, f (sendPeer s d m) = f s)
    (hf : ∀ s t, f (dropWaits (abandonWant s (.core t)) t) = f s) (s : Dev) (t : Nat) : f (abandonWaits s t) = f s := by
  unfold abandonWaits
  dsimp only
  split
  · split
    · split
      · rw [hsend, hf]
      · exact hf s t
    · exact hf s t
  · exact hf s t

@[simp] theorem ruling_abandonWaits (s : Dev) (t : Nat) : ruling (abandonWaits s t) = ruling s :=
  abandonWaits_keeps ruling ruling_sendPeer (fun _ _ => rfl) s t

@[simp] theorem ruling_haltTile (s : Dev) (t : Nat) : ruling (haltTile s t) = ruling s := by
  unfold haltTile
  dsimp only
  split
  · rfl
  · split <;> simp

theorem freeBytes_keeps {β : Type} {f : Dev → β} (hf : ∀ s, f (drawFree s) = f s) (s : Dev) (n : Nat) :
    f (freeBytes s n).1 = f s := by
  induction n generalizing s with
  | zero => rfl
  | succ n ih => exact (ih (drawFree s)).trans (hf s)

@[simp] theorem istFill_member (x : Tile) (o : Nat) (bs : List Byte) : (istFill x o bs).member = x.member := by
  unfold istFill
  exact foldl_keeps (f := Tile.member) (g := fun y k => istWrite y (o + 8 * k) 8 (leNat ((bs.drop (8 * k)).take 8)))
    (fun _ _ => rfl) _ _

@[simp] theorem spadPut_member (x : Tile) (o : Nat) (bs : List Byte) : (spadPut x o bs).member = x.member := by
  unfold spadPut
  dsimp only
  split <;> rfl

theorem memberAt_modTile (t : Nat) {s : Dev} {u : Nat} {f : Tile → Tile} (hf : ∀ x, (f x).member = x.member) :
    memberAt t (modTile s u f) = memberAt t s := by
  unfold memberAt
  by_cases h : t = u
  · rw [h, tileOf_modTile_same, hf]
  · rw [tileOf_modTile_other s f h]

/-- What the bytes spoilt by blocks under way leave alone (R411). -/
theorem spoilBlocks_keeps {β : Type} {f : Dev → β} (hfree : ∀ s, f (drawFree s) = f s)
    (hstack : ∀ s a bs, f (stackPut s a bs) = f s)
    (htile : ∀ s t g, (∀ x, (g x).member = x.member) → f (modTile s t g) = f s) (s : Dev) (l : List TeBlk) :
    f (spoilBlocks s l) = f s := by
  refine foldl_keeps (fun s k => foldl_keeps (fun s q => ?_) _ _) _ _
  have hbytes := freeBytes_keeps hfree s q.2.2
  unfold spoilPiece
  dsimp only
  split
  · split
    · exact (htile _ _ _ (fun x => spadPut_member ..)).trans hbytes
    · rfl
  · exact (hstack ..).trans hbytes
  · exact (htile _ _ _ (fun x => istFill_member ..)).trans hbytes
  · rfl

/-- What the reset of a tile leaves alone. -/
theorem resetTile_keeps {β : Type} {f : Dev → β} (hfree : ∀ s, f (drawFree s) = f s)
    (hstack : ∀ s a bs, f (stackPut s a bs) = f s)
    (htile : ∀ s t g, (∀ x, (g x).member = x.member) → f (modTile s t g) = f s)
    (hwait : ∀ s t, f (abandonWaits s t) = f s) (hxlt : ∀ (s : Dev) x, f { s with xlt := x } = f s) (s : Dev) (t : Nat) :
    f (resetTile s t) = f s := by
  unfold resetTile
  dsimp only
  rw [hxlt, htile _ _ coreReset (fun _ => rfl)]
  exact (foldl_keeps (fun s (e : Nat × TeChan) => spoilBlocks_keeps hfree hstack htile s e.2.blks) _ _).trans (hwait s t)

@[simp] theorem ruling_resetTile (s : Dev) (t : Nat) : ruling (resetTile s t) = ruling s :=
  resetTile_keeps (fun _ => rfl) ruling_stackPut (fun _ _ _ _ => rfl) ruling_abandonWaits (fun _ _ => rfl) s t

@[simp] theorem memberAt_resetTile (u : Nat) (s : Dev) (t : Nat) : memberAt u (resetTile s t) = memberAt u s :=
  resetTile_keeps (fun _ => rfl) (memberAt_stackPut u) (fun _ _ _ h => memberAt_modTile u h)
    (abandonWaits_keeps (memberAt u) (fun s d m => (congrArg (memberAt u) (sameButLinks_sendPeer s d m).eq).trans rfl)
      (fun _ _ => rfl)) (fun _ _ => rfl) s t

/-! #### Orders, bookmatch, barriers and waits (R619 steps 1 to 4) -/

theorem ruling_hlcIssue (s : Dev) (port line kind off : Nat) (data : List Byte) (src : HostSrc) (cmp : Option (List Byte))
    (poison : Bool) : ruling (hlcIssue s port line kind off data src cmp poison) = ruling s := rfl

@[simp] theorem ruling_hostPut (s : Dev) (src : HostSrc) (port a : Nat) (bs : List Byte) (poison : Bool) (m : Msg) :
    ruling (hostPut s src port a bs poison m) = ruling s := by
  unfold hostPut
  split
  · exact foldl_keeps (fun s p => ruling_hlcIssue s ..) _ _
  · split <;> rfl

@[simp] theorem ruling_completeOrder (s : Dev) (q : Nat) (o : WorkOrder) (status : Nat) (r0 r1 : Word)
    (dig : Option (List Byte)) (window : Bool) : ruling (completeOrder s q o status r0 r1 dig window) = ruling s := by
  have hs0 : ∀ b c : Bool, ruling (if b then (if c then ioInc s grainStats 31 0 1 else ioInc s grainStats 63 32 1) else s) =
      ruling s := by
    intro b c
    cases b <;> cases c <;> rfl
  unfold completeOrder
  dsimp only
  split
  · rw [ruling_modWq]
    exact hs0 _ _
  · rw [ruling_modWq, windowStore, ruling_hostPut]
    exact hs0 _ _

@[simp] theorem ruling_zeroContext (s : Dev) (p ctx : Nat) : ruling (zeroContext s p ctx) = ruling s :=
  ruling_foldl_modTile ..

@[simp] theorem ruling_finishDone (s : Dev) (q st : Nat) : ruling (finishDone s q st) = ruling s := by
  unfold finishDone
  dsimp only
  split
  · rfl
  · rw [ruling_modWq, ruling_zeroContext, ruling_completeOrder]

theorem ruling_woCheckpoint (s : Dev) (q : Nat) (errored : Bool) : ruling (woCheckpoint s q errored) = ruling s := by
  unfold woCheckpoint
  exact ruling_sendPeer ..

theorem ruling_endOrder (s : Dev) (q : Nat) (f : WorkOrder → WorkOrder) : ruling (endOrder s q f) = ruling s := by
  unfold endOrder
  dsimp only
  refine (ruling_finishDone ..).trans ?_
  show ruling (ite _ _ _) = _
  split
  · rw [ruling_woCheckpoint, ruling_modWq]
  · rfl

theorem ruling_endOrders (s : Dev) (p : Nat) : ruling (endOrders s p) = ruling s :=
  foldl_keeps (fun s q => ruling_endOrder s q _) _ _

theorem ruling_bmQuiet (s : Dev) : ruling (bmQuiet s) = ruling s := by
  unfold bmQuiet modDigs
  exact (foldl_keeps (fun s e => ruling_finishDone ..) _ _).trans (ruling_foldl_modTile ..)

theorem ruling_bmPartEnd (s : Dev) (p : Nat) : ruling (bmPartEnd s p) = ruling s := by
  unfold bmPartEnd bmEnd
  split
  · split
    · simp only [if_true]
      rw [ruling_modBm, ruling_bmQuiet, ruling_raiseErr, ruling_sendPeer]
    · rfl
  · rfl

theorem ruling_breakClamp (s : Dev) (c : Nat) : ruling (breakClamp s c) = ruling s := by
  unfold breakClamp releaseTiles
  rw [ruling_modClamp]
  exact ruling_foldl_modTile ..

theorem ruling_memberBroken (s : Dev) (g aborts : Nat) (quiet : Bool) : ruling (memberBroken s g aborts quiet) = ruling s := by
  unfold memberBroken
  dsimp only
  split
  · split
    · rfl
    · rw [ruling_breakClamp, ruling_setGrp]
  · rfl

theorem ruling_groupAbort (s : Dev) (g : Nat) : ruling (groupAbort s g) = ruling s := by
  unfold groupAbort
  dsimp only
  split
  · rfl
  · split
    · unfold rootAbort
      rw [ruling_memberBroken]
      exact foldl_keeps (fun _ _ => ruling_sendPeer ..) _ _
    · rw [ruling_sendPeer, ruling_setGrp]

theorem ruling_clampAbort (s : Dev) (p : Nat) : ruling (clampAbort s p) = ruling s := by
  refine foldl_keeps (fun s c => ?_) _ _
  dsimp only
  split
  · rw [ruling_groupAbort, ruling_foldl_modTile, ruling_modClamp]
  · rw [ruling_foldl_modTile, ruling_modClamp]

theorem ruling_breakWaits (s : Dev) (p : Nat) : ruling (breakWaits s p) = ruling s := by
  unfold breakWaits
  refine (foldl_keeps (fun s w => ?_) _ _).trans rfl
  unfold wakeOne
  split
  · rfl
  · exact ruling_sendPeer ..

theorem ruling_quiesce (s : Dev) (p : Nat) : ruling (quiesce s p) = ruling s := by
  unfold quiesce buildNotices
  dsimp only
  rw [foldl_keeps (f := ruling) (fun s d => ruling_sendPeer s d _), ruling_breakWaits, ruling_clampAbort]
  exact foldl_keeps ruling_haltTile _ _

/-! ### Stop of a partition (R619, R621) -/

theorem ruling_modPart_congr {s u : Dev} (h : ruling u = ruling s) (p : Nat) (f : PartSt → PartSt) :
    ruling (modPart u p f) = ruling (modPart s p f) := by
  obtain ⟨hm, hp⟩ := Prod.mk.inj h
  simp [ruling, modPart, hm, hp]

theorem partSt_of_ruling {s u : Dev} (h : ruling u = ruling s) (p : Nat) : partSt u p = partSt s p :=
  congrArg (fun m : MgmtSt × SMap PartSt => mget PartSt.reset m.2 p) h

theorem mgmt_of_ruling {s u : Dev} (h : ruling u = ruling s) : u.mgmt = s.mgmt := congrArg Prod.fst h

theorem ruling_resetMembers (s : Dev) (p : Nat) :
    ruling (resetMembers s p) = ruling (modPart s p (fun q => { q with build := q.build + 1 })) := by
  refine ruling_modPart_congr ?_ p _
  rw [foldl_keeps ruling_resetTile, ruling_finishWrites]

/-- A stop by software or by an error changes a partition's state and build number, no other partition's, and nothing of the
management controller. -/
theorem ruling_stopPart (s : Dev) (p : Nat) {kind : StopKind} (h : kind < 2) : ruling (stopPart s p kind) =
    ruling (modPart (modPart s p (fun q => { q with state := if kind = 1 then 3 else 1 })) p
      (fun q => { q with build := q.build + 1 })) := by
  have h3 : kind ≠ 3 := Nat.ne_of_lt (Nat.lt_trans h (by decide))
  simp only [stopPart, h, h3, if_true, if_false]
  unfold releaseDrawers
  rw [ruling_foldl_modTile, ruling_resetMembers]
  refine ruling_modPart_congr ?_ p _
  rw [ruling_quiesce, ruling_bmPartEnd, ruling_endOrders]

theorem stopPart_mgmt (s : Dev) (p : Nat) {kind : StopKind} (h : kind < 2) : (stopPart s p kind).mgmt = s.mgmt :=
  (mgmt_of_ruling (ruling_stopPart s p h)).trans rfl

/-- A partition that an error stops is ERROR until it is rebuilt (R753). -/
theorem stopPart_error_state (s : Dev) (p : Nat) : (partSt (stopPart s p 1) p).state = 3 := by
  rw [partSt_of_ruling (ruling_stopPart s p (by decide))]
  simp

/-! ### Build (R617) -/

section
variable (t : Nat) (s : Dev)
@[simp] theorem memberAt_modPart (p : Nat) (f : PartSt → PartSt) : memberAt t (modPart s p f) = memberAt t s := rfl
@[simp] theorem memberAt_ioSet (o : Nat) (v : Word) : memberAt t (ioSet s o v) = memberAt t s := rfl
@[simp] theorem memberAt_modClamp (c : Nat) (f : ClampSt → ClampSt) : memberAt t (modClamp s c f) = memberAt t s := rfl
@[simp] theorem memberAt_modWq (q : Nat) (f : WqSt → WqSt) : memberAt t (modWq s q f) = memberAt t s := rfl

theorem memberAt_foldl_modTile {α : Type} {u : Dev → α → Nat} {g : Dev → α → Tile → Tile}
    (hg : ∀ s a x, (g s a x).member = x.member) (l : List α) :
    memberAt t (l.foldl (fun s a => modTile s (u s a) (g s a)) s) = memberAt t s :=
  foldl_keeps (f := memberAt t) (fun s a => memberAt_modTile t (hg s a)) l s

/-- A member of a build is the partition's, and a tile that is no member keeps its partition. -/
theorem memberAt_buildTile (p u : Nat) : memberAt t (buildTile s p u) = if t = u then p + 1 else memberAt t s := by
  unfold buildTile
  dsimp only
  split
  next h =>
    rw [h, memberAt, tileOf_modTile_same]
  next h =>
    rw [memberAt, tileOf_modTile_other _ _ h]
    exact memberAt_resetTile t s u

theorem memberAt_foldl_buildTile (p : Nat) (l : List Nat) :
    memberAt t (l.foldl (fun s u => buildTile s p u) s) = if t ∈ l then p + 1 else memberAt t s := by
  induction l generalizing s with
  | nil => simp
  | cons u r ih =>
    rw [List.foldl_cons, ih, memberAt_buildTile]
    by_cases h : t = u <;> simp [h]

theorem wantZero_member (x : Tile) (d : Nat) : (wantZero x d).member = x.member := by
  unfold wantZero
  split <;> rfl

theorem memberAt_buildDrawers (p : Nat) (new : Bool) : memberAt t (buildDrawers s p new) = memberAt t s := by
  refine memberAt_foldl_modTile t s (fun s u x => ?_) _
  refine foldl_keeps (f := Tile.member) (fun x d => ?_) _ _
  split
  · rfl
  · exact wantZero_member ..

theorem memberAt_assignResources (p : Nat) (new : Bool) : memberAt t (assignResources s p new) = memberAt t s := by
  have hclamps : ∀ (l : List Nat) (g : Dev → Nat → ClampSt → ClampSt) (u : Dev),
      memberAt t (l.foldl (fun s c => modClamp s c (g s c)) u) = memberAt t u :=
    fun _ _ _ => foldl_keeps (f := memberAt t) (fun _ _ => memberAt_modClamp ..) _ _
  have hqueues : ∀ (l : List Nat) (g : Dev → Nat → WqSt → WqSt) (u : Dev),
      memberAt t (l.foldl (fun s c => modWq s c (g s c)) u) = memberAt t u :=
    fun _ _ _ => foldl_keeps (f := memberAt t) (fun _ _ => memberAt_modWq ..) _ _
  unfold assignResources
  cases new
  · simp only [Bool.false_eq_true, if_false]
    rw [memberAt_ioSet, hclamps]
  · simp only [if_true]
    rw [memberAt_ioSet, hqueues, hclamps]

theorem memberAt_foldl_ioSet (o : Nat → Nat) (g : Nat → Word) (l : List Nat) :
    memberAt t (l.foldl (fun s i => ioSet s (o i) (g i)) s) = memberAt t s :=
  foldl_keeps (f := memberAt t) (fun _ _ => memberAt_ioSet ..) _ _

theorem memberAt_writeListed (p : Nat) : memberAt t (writeListed s p) = memberAt t s := by
  unfold writeListed
  rw [memberAt_foldl_ioSet, memberAt_ioSet]

theorem memberAt_rehash (k : Nat) : memberAt t (rehash s k) = memberAt t s := by
  unfold rehash
  dsimp only
  split
  · rw [memberAt_ioSet, memberAt_foldl_ioSet]
  · rw [memberAt_foldl_ioSet]

theorem memberAt_rehashCovered (g : List Nat) : memberAt t (rehashCovered s g) = memberAt t s := by
  refine foldl_keeps (f := memberAt t) (fun s k => ?_) _ _
  dsimp only
  split
  · exact memberAt_rehash t s k
  · rfl

theorem memberAt_releaseParts (g : List Nat) : memberAt t (releaseParts s g) = memberAt t s := by
  unfold releaseParts
  refine (foldl_keeps (f := memberAt t) (fun s p => ?_) _ _).trans (memberAt_rehashCovered t s g)
  rw [memberAt_modPart]
  exact memberAt_foldl_modTile t s (g := fun _ _ => resumeCore) (fun _ _ _ => rfl) _

theorem memberAt_buildPart (p : Nat) (new : Bool) : memberAt t (buildPart s p new) =
    if t ∈ membersOf (partSt s p) then p + 1 else memberAt t s := by
  unfold buildPart
  rw [memberAt_writeListed, memberAt_assignResources, memberAt_buildDrawers, memberAt_foldl_buildTile, partSt_modPart_same]
  rfl

end

/-- A partition that is released runs (R617 step 7). -/
theorem releaseParts_state (s : Dev) (p : Nat) : (partSt (releaseParts s [p]) p).state = 2 := by
  simp only [releaseParts, List.foldl_cons, List.foldl_nil, partSt_modPart_same]

theorem rebuildNow_state (s : Dev) (p : Nat) : (partSt (rebuildNow s [p]) p).state = 2 := releaseParts_state _ p

theorem rebuildFor_verified {s : Dev} (h : s.mgmt.tmOk = true) (g : List Nat) (id : Nat) :
    rebuildFor s g id = rebuildNow s g := if_pos h

/-! ### Commands (R613 to R615) -/

/-- A write of PART_CMD with an OP (R613). -/
def cmdWord (v : Word) (op : Nat) : Word := setBit (setFld v 1 0 op) 63 true

section
variable (v : Word) (op : Nat)

theorem cmdWord_op : fld (cmdWord v op) 1 0 = op % 4 := by
  rw [cmdWord, setBit, fld_setFld_other _ _ _ _ _ _ (le_refl 63) (by decide) (.inr (by decide)),
    fld_setFld_same _ _ _ _ (by decide) (by decide)]
  rfl

theorem cmdWord_part : fld (cmdWord v op) 8 2 = fld v 8 2 := by
  rw [cmdWord, setBit, fld_setFld_other _ _ _ _ _ _ (le_refl 63) (by decide) (.inr (by decide)),
    fld_setFld_other _ _ _ _ _ _ (by decide) (by decide) (.inl (by decide))]

theorem cmdWord_start : bit (cmdWord v op) 63 = true := by simp [cmdWord, bit_setBit]

theorem cmdWord_bit {i : Nat} (h : 1 < i) (h63 : i ≠ 63) : bit (cmdWord v op) i = bit v i := by
  rw [cmdWord, bit_setBit _ _ _ _ (by decide), if_neg h63, bit_setFld _ _ _ _ _ (by decide) (by decide), if_neg (by omega)]

end

/-- The part with a command in progress. -/
def cmdBusy (s : Dev) (v : Word) : Dev := { s with partCmd := { s.partCmd with busy := true, part := cmdPart s v, held := v } }

/-- The part once a command has ended with a code and its DETAIL. -/
def cmdEnded (s : Dev) (p code detail : Nat) : Dev := { s with partCmd := ⟨false, p, code, detail % 256, 0⟩ }

section
variable (s : Dev) (p code detail q : Nat)
theorem partSt_cmdEnded : partSt (cmdEnded s p code detail) q = partSt s q := rfl
theorem cmdEnded_partCmd : (cmdEnded s p code detail).partCmd = ⟨false, p, code, detail % 256, 0⟩ := rfl
end

theorem partCommand_eq {s : Dev} {v : Word} (hstart : bit v 63 = true) (hop : fld v 1 0 ≠ 0) (hidle : s.partCmd.busy = false) :
    partCommand s v = if cmdHeld s v then cmdBusy s v else cmdFinish (cmdBusy s v) := by
  simp [partCommand, hstart, hop, hidle, cmdBusy]

/-- A command that asks for no ARRIVE ends with what its run answers. -/
theorem cmdFinish_eq {s : Dev} (h : bit s.partCmd.held 10 = false) : cmdFinish s =
    cmdEnded (cmdRun s s.partCmd.held).1 s.partCmd.part (cmdRun s s.partCmd.held).2.1 (cmdRun s s.partCmd.held).2.2 := by
  simp [cmdFinish, h, cmdEnded]

/-- A command that is held waits with BUSY (R615). -/
theorem partCommand_held {s : Dev} {v : Word} {op : Nat} (hidle : s.partCmd.busy = false) (hop : op % 4 ≠ 0)
    (hheld : cmdHeld s (cmdWord v op) = true) : partCommand s (cmdWord v op) = cmdBusy s (cmdWord v op) := by
  rw [partCommand_eq (cmdWord_start v op) (by rwa [cmdWord_op]) hidle, if_pos hheld]

/-- A command that is not held runs at once. -/
theorem partCommand_runs {s : Dev} {v : Word} {op : Nat} (hidle : s.partCmd.busy = false) (hop : op % 4 ≠ 0)
    (hquiet : bit v 10 = false) (hheld : cmdHeld s (cmdWord v op) = false) {u : Dev} {code detail : Nat}
    (hrun : cmdRun (cmdBusy s (cmdWord v op)) (cmdWord v op) = (u, code, detail)) :
    partCommand s (cmdWord v op) = cmdEnded u (cmdPart s (cmdWord v op)) code detail := by
  have hq : bit (cmdBusy s (cmdWord v op)).partCmd.held 10 = false := (cmdWord_bit v op (by decide) (by decide)).trans hquiet
  have hr : cmdRun (cmdBusy s (cmdWord v op)) (cmdBusy s (cmdWord v op)).partCmd.held = (u, code, detail) := hrun
  rw [partCommand_eq (cmdWord_start v op) (by rwa [cmdWord_op]) hidle, hheld, if_neg Bool.false_ne_true, cmdFinish_eq hq, hr]
  rfl

theorem cmdPart_build (s : Dev) (v : Word) : cmdPart s (cmdWord v 1) = reqNum s := if_pos (cmdWord_op v 1)

theorem cmdPart_reset (s : Dev) (v : Word) : cmdPart s (cmdWord v 2) = fld v 8 2 :=
  (if_neg (by rw [cmdWord_op]; decide)).trans (cmdWord_part v 2)

theorem cmdPart_teardown (s : Dev) (v : Word) : cmdPart s (cmdWord v 3) = fld v 8 2 :=
  (if_neg (by rw [cmdWord_op]; decide)).trans (cmdWord_part v 3)

/-! #### What each command does -/

/-- The part with the partition of the request built and running (R617). -/
def newBuilt (s : Dev) : Dev :=
  releaseParts (buildPart (modPart s (reqNum s) (fun q => { reqPart s with build := q.build })) (reqNum s) true) [reqNum s]

theorem membersOf_withBuild (q : PartSt) (b : BitVec 32) : membersOf { q with build := b } = membersOf q := rfl

theorem newBuilt_member {s : Dev} {t : Nat} (h : t ∈ membersOf (reqPart s)) : memberAt t (newBuilt s) = reqNum s + 1 := by
  have hdef : membersOf (partSt (modPart s (reqNum s) (fun q => { reqPart s with build := q.build })) (reqNum s)) =
      membersOf (reqPart s) := by
    rw [partSt_modPart_same]
    exact membersOf_withBuild (reqPart s) _
  rw [newBuilt, memberAt_releaseParts, memberAt_buildPart, hdef, if_pos h]

theorem newBuilt_state (s : Dev) : (partSt (newBuilt s) (reqNum s)).state = 2 := releaseParts_state _ _

theorem reqNum_cmdBusy (s : Dev) (v : Word) : reqNum (cmdBusy s v) = reqNum s := rfl
theorem reqPart_cmdBusy (s : Dev) (v : Word) : reqPart (cmdBusy s v) = reqPart s := rfl

section
variable {s : Dev} {v : Word}

theorem cmdRun_build (hop : fld v 1 0 = 1) {detail : Nat} (h : buildCheck s = (0, detail)) :
    cmdRun s v = (newBuilt s, 0, 0) := by
  simp only [cmdRun, hop, h, cmdPart, if_true, newBuilt]

theorem cmdRun_build_fails (hop : fld v 1 0 = 1) {code detail : Nat} (h : buildCheck s = (code, detail)) (hcode : code ≠ 0) :
    cmdRun s v = (s, code, detail) := by
  obtain ⟨n, rfl⟩ := Nat.exists_eq_succ_of_ne_zero hcode
  simp only [cmdRun, hop, h]

/-- A BUILD whose checks pass ends with its partition running and its members in it (R617). -/
theorem partCommand_build (hidle : s.partCmd.busy = false) (hquiet : bit v 10 = false)
    (hheld : cmdHeld s (cmdWord v 1) = false) (h : buildCheck s = (0, 0)) :
    ∃ u, partCommand s (cmdWord v 1) = cmdEnded u (reqNum s) 0 0 ∧ (partSt u (reqNum s)).state = 2 ∧
      ∀ t ∈ membersOf (reqPart s), memberAt t u = reqNum s + 1 := by
  have hrun := cmdRun_build (s := cmdBusy s (cmdWord v 1)) (cmdWord_op v 1) (detail := 0) h
  have hstate := newBuilt_state (cmdBusy s (cmdWord v 1))
  have hmember := fun t ht => newBuilt_member (s := cmdBusy s (cmdWord v 1)) (t := t) ht
  rw [reqNum_cmdBusy] at hstate
  simp only [reqNum_cmdBusy, reqPart_cmdBusy] at hmember
  exact ⟨_, by rw [partCommand_runs hidle (by decide) hquiet hheld hrun, cmdPart_build], hstate, hmember⟩

section
variable (hop : fld v 1 0 = 2) (hst : (partSt s (fld v 8 2)).state ≠ 0)
include hop hst

/-- A RESET of live tiles needs a verified tile monitor (R614, R621). -/
theorem cmdRun_reset (hlive : ∀ t ∈ membersOf (partSt s (fld v 8 2)), physOf s t ≠ 0x1FF) : cmdRun s v =
    if s.mgmt.tmOk then (rebuildParts (stopPart s (fld v 8 2) 0) [fld v 8 2], 0, 0) else (s, 7, 0xFF) := by
  have hnone : (membersOf (partSt s (fld v 8 2))).find? (fun t => physOf s t == 0x1FF) = none := by
    simpa [List.find?_eq_none] using hlive
  have hp : cmdPart s v = fld v 8 2 := if_neg (by rw [hop]; decide)
  simp only [cmdRun, hop, hp, if_neg hst, hnone]

/-- A RESET over a dead tile fails (R47). -/
theorem cmdRun_reset_dead {t : Nat} (hdead : (membersOf (partSt s (fld v 8 2))).find? (fun t => physOf s t == 0x1FF) = some t) :
    cmdRun s v = (s, 6, t) := by
  have hp : cmdPart s v = fld v 8 2 := if_neg (by rw [hop]; decide)
  simp only [cmdRun, hop, hp, if_neg hst, hdead]

end

/-- A TEARDOWN goes on with FORCE, or with no work order dispatched (R619). -/
theorem cmdRun_teardown (hop : fld v 1 0 = 3) (hst : (partSt s (fld v 8 2)).state ≠ 0)
    (hidle : bit v 9 = true ∨ ∀ q ∈ queuesOf s (fld v 8 2), (wqOf s q).disp = none) :
    cmdRun s v = (teardown s (fld v 8 2), 0, 0) := by
  have hgo : (!(bit v 9) && (queuesOf s (fld v 8 2)).any (fun q => (wqOf s q).disp.isSome)) = false := by
    rcases hidle with h | h
    · simp [h]
    · simp only [Bool.and_eq_false_iff]
      refine .inr (List.any_eq_false.mpr fun q hq => ?_)
      simp [h q hq]
  have hp : cmdPart s v = fld v 8 2 := if_neg (by rw [hop]; decide)
  simp only [cmdRun, hop, hp, if_neg hst, hgo]
  rfl

end

/-- A torn down partition is undefined (R619). -/
theorem teardown_undefined (s : Dev) (p : Nat) :
    (partSt (teardown s p) p).state = 0 ∧ (partSt (teardown s p) p).valid = false := by
  unfold teardown
  simp only [partSt_modPart_same]
  exact ⟨trivial, trivial⟩

/-- A partition that has been reset runs again (R621). -/
theorem reset_state {s : Dev} (p : Nat) (h : s.mgmt.tmOk = true) :
    (partSt (rebuildParts (stopPart s p 0) [p]) p).state = 2 := by
  rw [rebuildParts, rebuildFor_verified (by rw [stopPart_mgmt s p (by decide), h])]
  exact rebuildNow_state _ p

/-! ### Partition-fatal errors (R738, R753) -/

theorem fatalStop_mgmt {s u : Dev} (h : u.mgmt = s.mgmt) (p : Nat) (f : PartSt → PartSt) :
    (stopPart (aerPart (modPart u p f) p) p 1).mgmt = s.mgmt := by
  rw [stopPart_mgmt _ p (by decide), mgmt_of_ruling (ruling_aerPart ..)]
  exact h

/-- A partition-fatal error of a running partition, not the eighth in a second, stops it and has it rebuilt. -/
theorem partFatal_eq {s : Dev} {p id : Nat} (hpf : s.pf.phase = 0) (hst : (partSt s p).state = 2)
    (hfew : ((partSt s p).fatals.filter (fun t => decide (s.time < t + 1000000000))).length < 7) :
    ∃ u, u.mgmt = s.mgmt ∧ (partSt u p).state = 3 ∧ partFatal s p id none = rebuildFor u [p] id := by
  have hlen : ¬7 ≤ ((partSt s p).fatals.filter (fun t => decide (s.time < t + 1000000000))).length := by omega
  refine ⟨stopPart (aerPart (modPart (raiseErr s (some p) id 2 (tileUnit s none) none 0 0) p (fun q => { q with
    fatals := (partSt s p).fatals.filter (fun t => decide (s.time < t + 1000000000)) ++ [s.time] })) p) p 1,
    fatalStop_mgmt (raiseErr_mgmt ..) .., stopPart_error_state .., ?_⟩
  unfold partFatal
  simp [hpf, hst, hlen]

theorem fwUp_of_mgmt {s u : Dev} (h : u.mgmt = s.mgmt) : fwUp u = fwUp s := by simp [fwUp, h]

/-- Without a verified tile monitor, while the management firmware runs, a partition-fatal error becomes part-fatal (R738). -/
theorem rebuildFor_partFatal {s : Dev} {p id : Nat} (h : s.mgmt.tmOk = false) (hfw : fwUp s = true) (hid : id ≠ 0) :
    rebuildFor s [p] id = raiseErr s none id 3 0xFFFF none 0 0 := by
  simp [rebuildFor, h, hfw, hid]

/-- While the management firmware starts again, a rebuild waits for it (R705). -/
theorem rebuildFor_waits {s : Dev} (p id : Nat) (h : s.mgmt.tmOk = false) (hfw : fwUp s = false) :
    rebuildFor s [p] id = { s with rebuild := s.rebuild ++ [(p, id)] } := by
  simp [rebuildFor, h, hfw]

theorem raiseErr_partFatal (s : Dev) (id unit : Nat) : (id, unit) ∈ (raiseErr s none id 3 unit none 0 0).fatal := by
  simp [raiseErr, countClass]

/-! ### Zeroing of released grants (R535, R619 step 8) -/

theorem length_takeWhile_ne_of_nodup {l : List Nat} (hl : l.Nodup) {j : Nat} (hj : j < l.length) :
    (l.takeWhile (fun x => decide (x ≠ l[j]))).length = j := by
  have hfind : l.findIdx (fun x => !(decide (x ≠ l[j]))) = j := by
    rw [List.findIdx_eq hj]
    refine ⟨by simp, fun i hi => ?_⟩
    have hne : l[i]'(hi.trans hj) ≠ l[j] := fun e => hi.ne (hl.getElem_inj_iff.mp e)
    simp [hne]
  rw [List.takeWhile_eq_take_findIdx_not, hfind, List.length_take]
  omega

/-- The rotation of a row's granules is undone (R535). -/
theorem unrotate {n a f : Nat} (ha : a < n) (hf : f < n) : ((a + f) % n + n - f) % n = a := by
  rcases Nat.lt_or_ge (a + f) n with h | h
  · have hrest : a + f + n - f = a + n := by omega
    rw [Nat.mod_eq_of_lt h, hrest, Nat.add_mod_right, Nat.mod_eq_of_lt ha]
  · have hwrap : (a + f) % n = a + f - n := by
      rw [Nat.mod_eq_sub_mod h, Nat.mod_eq_of_lt (by omega)]
    have hrest : a + f - n + n - f = a := by omega
    rw [hwrap, hrest, Nat.mod_eq_of_lt ha]

/-- What the rotation of a row adds (R535). -/
def rowFold (r : Nat) : Nat := (r % 65536) ^^^ (r / 65536 % 65536)

/-- The address of the byte a key of stacked memory names in a set, as zeroing finds it. -/
def keyAddr (s : Dev) (k key : Nat) : Nat :=
  let l := setList s k
  let r := key % 2 ^ 31 / 256
  let i := (l.takeWhile (fun x => decide (x ≠ key / 2 ^ 31))).length
  setBase s k + (r * l.length + (i + l.length - rowFold r % l.length) % l.length) * 256 + key % 2 ^ 31 % 256

theorem zeroRange_stack (s : Dev) (k a n : Nat) : (zeroRange s k a n).stack = s.stack.filter (fun e =>
    !((setList s k).contains (e.1 / 2 ^ 31) && decide (a ≤ keyAddr s k e.1) && decide (keyAddr s k e.1 < a + n))) := rfl

theorem setMap_add (s : Dev) (k d : Nat) : setMap s k (setBase s k + d) =
    ((setList s k).getD ((d / 256 % (setList s k).length + rowFold (d / 256 / (setList s k).length) % (setList s k).length) %
      (setList s k).length) 0, d / 256 / (setList s k).length * 256 + d % 256) := by
  simp only [setMap, Nat.add_sub_cancel_left, rowFold]

theorem setList_nodup (s : Dev) (k : Nat) : (setList s k).Nodup := List.nodup_range.filter _

theorem pcCap_granules (s : Dev) : ∃ c, pcCap s = 256 * c ∧ c < 2 ^ 23 := by
  unfold pcCap
  split
  · exact ⟨9 * 2 ^ 19, by norm_num⟩
  · exact ⟨4 * 2 ^ 19, by norm_num⟩
  · exact ⟨0, by norm_num⟩

theorem stackKey_pc {pc loc : Nat} (h : loc < 2 ^ 31) : stackKey pc loc / 2 ^ 31 = pc := by unfold stackKey; omega
theorem stackKey_loc {pc loc : Nat} (h : loc < 2 ^ 31) : stackKey pc loc % 2 ^ 31 = loc := by unfold stackKey; omega

/-- A byte of a set lies in a pseudo-channel of its list, and zeroing finds its address again. -/
theorem keyAddr_setMap {s : Dev} {k b : Nat} (hlo : setBase s k ≤ b) (hhi : b < setBase s k + setSize s k) :
    let key := stackKey (setMap s k b).1 (setMap s k b).2
    key / 2 ^ 31 ∈ setList s k ∧ keyAddr s k key = b := by
  obtain ⟨c, hcap, hc⟩ := pcCap_granules s
  obtain ⟨d, rfl⟩ := Nat.exists_eq_add_of_le hlo
  have hnodup := setList_nodup s k
  have hd : d / 256 < (setList s k).length * c := by
    rw [setSize, hcap, Nat.mul_left_comm] at hhi
    omega
  rw [setMap_add]
  unfold keyAddr
  generalize setList s k = l at *
  have hm : 0 < l.length := Nat.pos_of_ne_zero fun h => by simp [h] at hd
  have hr : d / 256 / l.length < c := Nat.div_lt_of_lt_mul hd
  have hrow := Nat.div_add_mod (d / 256) l.length
  generalize d / 256 / l.length = r at *
  have hloc : r * 256 + d % 256 < 2 ^ 31 := by omega
  have hj := Nat.mod_lt (d / 256 % l.length + rowFold r % l.length) hm
  have hback := unrotate (Nat.mod_lt (d / 256) hm) (Nat.mod_lt (rowFold r) hm)
  generalize (d / 256 % l.length + rowFold r % l.length) % l.length = j at *
  have hrowOf : (r * 256 + d % 256) / 256 = r := by omega
  have hbyte : (r * 256 + d % 256) % 256 = d % 256 := by omega
  rw [List.getD_eq_getElem _ _ hj]
  dsimp only
  rw [stackKey_pc hloc, stackKey_loc hloc, hrowOf, hbyte, length_takeWhile_ne_of_nodup hnodup hj, hback]
  refine ⟨List.getElem_mem hj, ?_⟩
  rw [Nat.mul_comm r]
  omega

/-- A released range reads zero where the set lies in it. -/
theorem zeroRange_zeroes {s : Dev} {k a n b : Nat} (ha : a ≤ b) (hn : b < a + n) (hlo : setBase s k ≤ b)
    (hhi : b < setBase s k + setSize s k) :
    mget 0 (zeroRange s k a n).stack (stackKey (setMap s k b).1 (setMap s k b).2) = 0 := by
  obtain ⟨hin, haddr⟩ := keyAddr_setMap hlo hhi
  rw [zeroRange_stack, mget_filter_keys 0 s.stack (fun key =>
    !((setList s k).contains (key / 2 ^ 31) && decide (a ≤ keyAddr s k key) && decide (keyAddr s k key < a + n)))]
  have hc : (setList s k).contains (stackKey (setMap s k b).1 (setMap s k b).2 / 2 ^ 31) = true := by simpa using hin
  rw [hc, haddr]
  simp [ha, hn]

/-- The pseudo-channels of other sets keep their bytes. -/
theorem zeroRange_other {s : Dev} {k key : Nat} (a n : Nat) (h : key / 2 ^ 31 ∉ setList s k) :
    mget 0 (zeroRange s k a n).stack key = mget 0 s.stack key := by
  rw [zeroRange_stack, mget_filter_keys 0 s.stack (fun key =>
    !((setList s k).contains (key / 2 ^ 31) && decide (a ≤ keyAddr s k key) && decide (keyAddr s k key < a + n)))]
  have hc : (setList s k).contains (key / 2 ^ 31) = false := by simpa using h
  rw [hc]
  simp

theorem execGrantZeroingDone_eq {s : State} {k a n : Nat} {r : List (Nat × Nat × Nat)} (h : s.dev.zeroing = (k, a, n) :: r) :
    execGrantZeroingDone s = .next (withDev s (zeroRange { s.dev with zeroing := r } k a n)) := by
  rw [execGrantZeroingDone, onDev_eq, h]

/-! ### The obligation -/

section
variable {s : State} {v : Word}

theorem exec_partBuild_eq : exec (.partBuild v) s = .next (withDev s (partCommand s.dev (cmdWord v 1))) :=
  (exec_partBuild ..).trans (onDev_eq ..)
theorem exec_partReset_eq : exec (.partReset v) s = .next (withDev s (partCommand s.dev (cmdWord v 2))) :=
  (exec_partReset ..).trans (onDev_eq ..)
theorem exec_partTeardown_eq : exec (.partTeardown v) s = .next (withDev s (partCommand s.dev (cmdWord v 3))) :=
  (exec_partTeardown ..).trans (onDev_eq ..)

end

/-- A held RESET once its hold has ended (R615). -/
theorem execPartCmdHoldEnd_reset {s : State} {v : Word} (hbusy : s.dev.partCmd.busy = true) (htm : s.dev.mgmt.tmOk = true)
    (hword : s.dev.partCmd.held = cmdWord v 2) (hquiet : bit v 10 = false) (hheld : cmdHeld s.dev (cmdWord v 2) = false)
    (hst : (partSt s.dev (fld v 8 2)).state ≠ 0) (hlive : ∀ t ∈ membersOf (partSt s.dev (fld v 8 2)), physOf s.dev t ≠ 0x1FF) :
    execPartCmdHoldEnd s = .next (withDev s
      (cmdEnded (rebuildParts (stopPart s.dev (fld v 8 2) 0) [fld v 8 2]) s.dev.partCmd.part 0 0)) := by
  have hgo : (s.dev.partCmd.busy && !(cmdHeld s.dev s.dev.partCmd.held)) = true := by simp [hbusy, hword, hheld]
  have hrun : cmdRun s.dev s.dev.partCmd.held = (rebuildParts (stopPart s.dev (fld v 8 2) 0) [fld v 8 2], 0, 0) := by
    rw [hword, cmdRun_reset (cmdWord_op v 2) (by rwa [cmdWord_part]) (by rwa [cmdWord_part]), if_pos htm, cmdWord_part]
  have hq : bit s.dev.partCmd.held 10 = false := by
    rw [hword, cmdWord_bit v 2 (by decide) (by decide), hquiet]
  rw [execPartCmdHoldEnd, onDev_eq, if_pos hgo, cmdFinish_eq hq, hrun]

/-- Settles O45: by what each command's run answers, and what a stop leaves of the partition it stops. -/
theorem partitionsComplete : Obligations.PartitionsComplete := by
  unfold Obligations.PartitionsComplete
  intro s v word done
  refine ⟨fun hidle hquiet => ⟨fun hheld => ⟨?build, ?buildFails⟩, fun hst => ⟨?reset, ?resetDead, ?teardown, ?held⟩⟩, ?holdEnd, ?fatal,
    ?zeroing⟩
  case build =>
    intro hcheck
    obtain ⟨u, hu, hstate, hmember⟩ := partCommand_build hidle hquiet hheld hcheck
    refine completes_onDev exec_partBuild_eq ?_
    rw [withDev_dev, hu]
    exact ⟨hstate, cmdEnded_partCmd .., hmember⟩
  case buildFails =>
    intro code detail hcheck hcode
    have hrun := cmdRun_build_fails (s := cmdBusy s.dev (cmdWord v 1)) (cmdWord_op v 1) hcheck hcode
    rw [exec_partBuild_eq, partCommand_runs hidle (by decide) hquiet hheld hrun, cmdPart_build]
    rfl
  case reset =>
    intro hheld hlive
    have hrun := cmdRun_reset (s := cmdBusy s.dev (cmdWord v 2)) (cmdWord_op v 2)
      (by rw [cmdWord_part]; exact hst) (by rw [cmdWord_part]; exact hlive)
    rw [cmdWord_part] at hrun
    refine ⟨fun htm => ?_, fun htm => ?_⟩
    · have hok : (cmdBusy s.dev (cmdWord v 2)).mgmt.tmOk = true := htm
      rw [if_pos hok] at hrun
      refine completes_onDev exec_partReset_eq ?_
      rw [withDev_dev, partCommand_runs hidle (by decide) hquiet hheld hrun, cmdPart_reset]
      rw [partSt_cmdEnded]
      exact ⟨reset_state _ hok, cmdEnded_partCmd ..⟩
    · have hno : ¬(cmdBusy s.dev (cmdWord v 2)).mgmt.tmOk = true := fun h => by
        rw [show (cmdBusy s.dev (cmdWord v 2)).mgmt.tmOk = s.dev.mgmt.tmOk from rfl, htm] at h
        cases h
      rw [if_neg hno] at hrun
      rw [exec_partReset_eq, partCommand_runs hidle (by decide) hquiet hheld hrun, cmdPart_reset]
      rfl
  case resetDead =>
    intro hheld t hdead
    have hrun := cmdRun_reset_dead (s := cmdBusy s.dev (cmdWord v 2)) (cmdWord_op v 2)
      (by rw [cmdWord_part]; exact hst) (by rw [cmdWord_part]; exact hdead)
    rw [exec_partReset_eq, partCommand_runs hidle (by decide) hquiet hheld hrun, cmdPart_reset]
    rfl
  case teardown =>
    intro hheld hgo
    have hrun := cmdRun_teardown (s := cmdBusy s.dev (cmdWord v 3)) (cmdWord_op v 3)
      (by rw [cmdWord_part]; exact hst) (by rw [cmdWord_part, cmdWord_bit v 3 (by decide) (by decide)]; exact hgo)
    rw [cmdWord_part] at hrun
    refine completes_onDev exec_partTeardown_eq ?_
    rw [withDev_dev, partCommand_runs hidle (by decide) hquiet hheld hrun, cmdPart_teardown]
    obtain ⟨hstate, hvalid⟩ := teardown_undefined (cmdBusy s.dev (cmdWord v 3)) (fld v 8 2)
    rw [partSt_cmdEnded]
    exact ⟨hstate, hvalid, cmdEnded_partCmd ..⟩
  case held =>
    intro hheld
    refine completes_onDev exec_partReset_eq ?_
    rw [partCommand_held hidle (by decide) hheld, cmdBusy, cmdPart_reset]
    exact ⟨rfl, rfl⟩
  case holdEnd =>
    intro hbusy htm hword hquiet hheld hst hlive
    refine completes_onDev ((exec_partCmdHoldEnd ..).trans
      (execPartCmdHoldEnd_reset hbusy htm hword hquiet hheld hst hlive)) ?_
    rw [withDev_dev, partSt_cmdEnded]
    exact ⟨reset_state _ htm, cmdEnded_partCmd ..⟩
  case fatal =>
    intro p id hvalid hst hpf hclass hid hfew
    have hgo : ((partSt s.dev p).valid && (catClass id.toNat == some 1 || catClass id.toNat == some 2) &&
        id.toNat != 0xA002) = true := by
      have hne : id.toNat ≠ 0xA002 := fun h => hid (BitVec.eq_of_toNat_eq h)
      rcases hclass with h | h <;> simp [hvalid, h, hne]
    have hzero : id.toNat ≠ 0 := fun h => by
      rw [h] at hclass
      revert hclass
      decide
    obtain ⟨u, hmgmt, hstate, heq⟩ := partFatal_eq (id := id.toNat) hpf hst hfew
    have hexec : exec (.partitionFatal p id none) s = .next (withDev s (rebuildFor u [p.val] id.toNat)) := by
      rw [exec_partitionFatal, execPartitionFatal, onDev_eq, if_pos hgo, Option.map_none, heq]
    refine ⟨fun htm => completes_onDev hexec ?_, fun htm => ?_⟩
    · rw [withDev_dev, rebuildFor_verified (by rw [hmgmt, htm])]
      exact rebuildNow_state u p
    · cases hfw : fwUp s.dev with
      | true =>
        refine completes_onDev hexec ?_
        rw [withDev_dev, rebuildFor_partFatal (by rw [hmgmt, htm]) (by rw [fwUp_of_mgmt hmgmt, hfw]) hzero]
        refine ⟨?_, fun _ => raiseErr_partFatal .., fun h => by cases h⟩
        rw [partSt_of_ruling (ruling_raiseErr ..), hstate]
      | false =>
        refine completes_onDev hexec ?_
        rw [withDev_dev, rebuildFor_waits p.val id.toNat (by rw [hmgmt, htm]) (by rw [fwUp_of_mgmt hmgmt, hfw])]
        exact ⟨hstate, fun h => Bool.noConfusion h, fun _ => List.mem_append_right _ (List.mem_singleton_self _)⟩
  case zeroing =>
    intro k a n r hz
    refine completes_onDev ((exec_grantZeroingDone ..).trans (execGrantZeroingDone_eq hz)) ?_
    exact ⟨rfl, rfl, fun b ha hn hlo hhi => zeroRange_zeroes (s := { s.dev with zeroing := r }) ha hn hlo hhi,
      fun key hkey => zeroRange_other (s := { s.dev with zeroing := r }) a n hkey⟩

end Sys2Proof.Machine
end

section
/-! PROOFS. The input stage (R134 to R136, R139 to R141, R153, R154, R156, R161): what the balls, the log, the rails and a held
START change of the part, and what each command of the stage does. -/

namespace Sys2Proof.Machine
open Sys2Proof

/-! ### The balls -/

theorem nxp_frame (s u : Dev) : { nxp s u with out := [] } = { u with out := [] } :=
  foldl_keeps (f := fun v : Dev => { v with out := [] }) (fun v i => by dsimp only; split <;> rfl) _ _

/-- The messages of the balls change nothing but what the part has sent (R163). -/
theorem nxp_eq (s u : Dev) : nxp s u = { u with out := (nxp s u).out } :=
  congrArg (fun v : Dev => { v with out := (nxp s u).out }) (nxp_frame s u)

/-- The part with other messages sent. -/
def withOut (d : Dev) (out : List Msg) : Dev := { d with out := out }

section
variable (d : Dev) (out : List Msg)
@[simp] theorem withOut_pwr : (withOut d out).pwr = d.pwr := rfl
@[simp] theorem withOut_tiles : (withOut d out).tiles = d.tiles := rfl
@[simp] theorem railOf_withOut (r : Nat) : railOf (withOut d out) r = railOf d r := rfl
end

/-- A command that ends with the balls completes with what holds of its effect whatever has been sent. -/
theorem completes_nxp {i : Instr} {s : State} {d : Dev} {P : State → Prop} (h : exec i s = .next (withDev s (nxp s.dev d)))
    (hp : ∀ out, P (withDev s (withOut d out))) : Completes i s P :=
  completes_onDev h (by rw [nxp_eq]; exact hp _)

/-! ### The log -/

section
variable (s : Dev) (code idx mv da : Nat)

/-- A record of the log changes the retention buffer and PWR_FAULT alone (R161). -/
theorem pwrLog_eq : let q := (pwrLog s code idx mv da).pwr
    pwrLog s code idx mv da = { s with pwr := { s.pwr with logSeq := q.logSeq, staged := q.staged, fault := q.fault } } := by
  unfold pwrLog pwrLogFor
  split <;> rfl

/-- Without VMGMT nothing is logged (R141). -/
theorem pwrLog_of_no_vmgmt (h : s.pwr.vmgmt = false) : pwrLog s code idx mv da = s := by simp [pwrLog, pwrLogFor, h]

/-- With VMGMT PWR_FAULT names the code of the record (R162). -/
theorem pwrLog_fault (h : s.pwr.vmgmt = true) : fld (pwrLog s code idx mv da).pwr.fault 15 0 = code % 65536 := by
  simp only [pwrLog, pwrLogFor, h, Bool.not_true, Bool.false_eq_true, if_false, fld, BitVec.toNat_ofNat, Nat.shiftRight_zero]
  omega

/-- With VMGMT the record is staged (R161). -/
theorem pwrLog_staged (h : s.pwr.vmgmt = true) : (pwrLog s code idx mv da).pwr.staged.length = s.pwr.staged.length + 1 := by
  simp [pwrLog, pwrLogFor, h]

@[simp] theorem pwrLog_tiles : (pwrLog s code idx mv da).tiles = s.tiles := congrArg (·.tiles) (pwrLog_eq s code idx mv da)
@[simp] theorem pwrLog_inRange : (pwrLog s code idx mv da).pwr.inRange = s.pwr.inRange :=
  congrArg (·.pwr.inRange) (pwrLog_eq s code idx mv da)
@[simp] theorem pwrLog_input : (pwrLog s code idx mv da).pwr.input = s.pwr.input :=
  congrArg (·.pwr.input) (pwrLog_eq s code idx mv da)
@[simp] theorem pwrLog_vin : (pwrLog s code idx mv da).pwr.vin = s.pwr.vin := congrArg (·.pwr.vin) (pwrLog_eq s code idx mv da)
@[simp] theorem pwrLog_exc : (pwrLog s code idx mv da).pwr.exc = s.pwr.exc := congrArg (·.pwr.exc) (pwrLog_eq s code idx mv da)
@[simp] theorem pwrLog_inrush : (pwrLog s code idx mv da).pwr.inrush = s.pwr.inrush :=
  congrArg (·.pwr.inrush) (pwrLog_eq s code idx mv da)
@[simp] theorem pwrLog_tries : (pwrLog s code idx mv da).pwr.tries = s.pwr.tries :=
  congrArg (·.pwr.tries) (pwrLog_eq s code idx mv da)
@[simp] theorem pwrLog_inrushLatch : (pwrLog s code idx mv da).pwr.inrushLatch = s.pwr.inrushLatch :=
  congrArg (·.pwr.inrushLatch) (pwrLog_eq s code idx mv da)
@[simp] theorem pwrLog_seq : (pwrLog s code idx mv da).pwr.seq = s.pwr.seq := congrArg (·.pwr.seq) (pwrLog_eq s code idx mv da)
end

/-- The oldest staged record leaves the retention buffer for stream 1 of the log (R161, R710). -/
theorem pwrCommit_cons {s : Dev} {r : List Word} {rest : List (List Word)} (h : s.pwr.staged = r :: rest) :
    (pwrCommit s).pwr.staged = rest ∧ mget 0 (pwrCommit s).mgmt.seqs 1 = (mget 0 s.mgmt.seqs 1 + 1) % 2 ^ 32 ∧
      (pwrCommit s).tiles = s.tiles := by
  unfold pwrCommit
  rw [h]
  dsimp only
  split <;> exact ⟨rfl, mget_mset_same .., rfl⟩

/-! ### Rails -/

@[simp] theorem railOf_modRail_same (s : Dev) (r : Nat) (f : RailSt → RailSt) : railOf (modRail s r f) r = f (railOf s r) :=
  mget_mmod_same ..

theorem railOf_modRail_other (s : Dev) {r q : Nat} (f : RailSt → RailSt) (h : q ≠ r) : railOf (modRail s r f) q = railOf s q :=
  mget_mmod_other _ _ _ h

theorem railOf_modPwr (s : Dev) {f : PwrSt → PwrSt} (h : (f s.pwr).rails = s.pwr.rails) (r : Nat) :
    railOf (modPwr s f) r = railOf s r := congrArg (mget RailSt.off · r) h

@[simp] theorem modRail_tiles (s : Dev) (r : Nat) (f : RailSt → RailSt) : (modRail s r f).tiles = s.tiles := rfl

/-- Power-up leaves the IB as it is: VMGMT and the IB are no rails of the sequence (R145). -/
theorem railOf_beginRails_ib (s : Dev) : railOf (beginRails s) 10 = railOf s 10 := by
  rw [beginRails, enableGroup, List.foldl_cons, List.foldl_nil, railOf_modRail_other _ _ (by decide)]
  exact (mget_filter_keys RailSt.off s.pwr.rails (fun k => k == 0 || k == 10) 10).trans (if_pos rfl)

/-- Power-up leaves the inrush stage, the IB and the tiles as they are (R145). -/
theorem startPower_keeps (s : Dev) (term : BitVec 32) : (startPower s term).pwr.inrush = s.pwr.inrush ∧
    (startPower s term).pwr.tries = s.pwr.tries ∧ railOf (startPower s term) 10 = railOf s 10 ∧
    (startPower s term).tiles = s.tiles := by
  refine ⟨rfl, rfl, ?_, ?_⟩
  · rw [startPower, railOf_beginRails_ib]
    rfl
  · simp [startPower, beginRails, enableGroup]

/-! ### A START that was held -/

section
variable (s : Dev)

theorem heldStart_cases : heldStart s = s ∨ heldStart s = startPower s s.kiln.term := by
  unfold heldStart
  split
  · exact .inr rfl
  · exact .inl rfl

/-- A held START leaves the inrush stage, the IB and the tiles as they are. -/
theorem heldStart_keeps : (heldStart s).pwr.inrush = s.pwr.inrush ∧ (heldStart s).pwr.tries = s.pwr.tries ∧
    railOf (heldStart s) 10 = railOf s 10 ∧ (heldStart s).tiles = s.tiles := by
  rcases heldStart_cases s with h | h <;> rw [h]
  · exact ⟨rfl, rfl, rfl, rfl⟩
  · exact startPower_keeps ..

/-- In Cold, with the inrush stage up and the firmware running, a held START begins power-up with the term it came with (R154). -/
theorem heldStart_starts (hseq : s.pwr.seq = 0) (hheld : s.pwr.startPend = true) (hrush : s.pwr.inrush = 4) (hfw : fwUp s = true) :
    (heldStart s).pwr.seq = 1 ∧ (heldStart s).kiln.term = s.kiln.term := by
  rw [heldStart, if_pos (by simp [hseq, hheld, startable, hrush, hfw])]
  exact ⟨rfl, rfl⟩

end

/-! ### Supplies that become good, and their loss -/

/-- A supply reads no less than its lower bound and no more than its range above it. -/
theorem goodReading_bounds (s : Dev) (lo range : Nat) :
    lo ≤ (goodReading s lo range).mv ∧ (goodReading s lo range).mv ≤ lo + range :=
  ⟨Nat.le_add_right .., Nat.add_le_add_left (Nat.le_of_lt_succ (Nat.mod_lt _ (Nat.succ_pos _))) _⟩

/-- The IB is good at 5.7 V (R139). -/
theorem goodReading_ib (s : Dev) : (goodReading s 5700 0).mv = 5700 :=
  Nat.le_antisymm (goodReading_bounds s 5700 0).2 (goodReading_bounds s 5700 0).1

/-- No tile holds anything once VMGMT is lost (R770). -/
theorem loseVmgmt_tiles (s : Dev) : (loseVmgmt s).tiles = [] := by
  have hlost : s.tiles.map (fun e => (e.1, lostTile false e.2)) = s.tiles.map (fun e => (e.1, Tile.reset)) := rfl
  simp only [loseVmgmt, loseDomains, hlost, List.filter_map, List.map_eq_nil_iff, List.filter_eq_nil_iff]
  simp

/-- The part once VMGMT is lost: with the inrush stage up the supply that was lost is kept, else what was kept before (R156). -/
def supplyLost (s : Dev) : Dev :=
  modPwr (loseVmgmt (drawFree s)) (fun p => { p with mgmtLost := if s.pwr.inrush = 4 then some (lostSupply s) else p.mgmtLost })

theorem tileOf_supplyLost (s : Dev) (t : Nat) : tileOf (supplyLost s) t = Tile.reset := by
  rw [tileOf, supplyLost, modPwr_tiles, loseVmgmt_tiles]
  rfl

theorem lostSupply_cases (s : Dev) : lostSupply s = 0 ∨ lostSupply s = 10 := by
  unfold lostSupply
  split
  · exact .inr rfl
  · exact .inl rfl

/-! ### What each command leaves of the part -/

/-- After an excursion (R135). -/
def excursionOver (s : Dev) (vin : BitVec 16) : Dev :=
  modPwr s (fun p => { p with input := 0, vin := vin.toNat, exc := if p.vmgmt then satAdd 16 p.exc 1 else p.exc })

/-- The input out of range for good, the switch open (R136). -/
def inputOut (s : Dev) (vin : BitVec 16) : Dev :=
  modPwr s (fun p => { p with input := 2, inRange := false, inrush := 0, vin := vin.toNat })

/-- The input back in range (R153, R156). -/
def inputBack (s : Dev) (vin : BitVec 16) (removed : Bool) : Dev :=
  modPwr s (fun p => { p with
    inRange := true, input := 0, vin := vin.toNat
    tries := if removed then 0 else p.tries, inrushLatch := p.inrushLatch && !removed })

/-- The IB good (R139). -/
def ibUp (s : Dev) : Dev := modRail (drawFree (drawFree s)) 10 (fun _ => goodReading s 5700 0)

/-- The inrush stage up again, VMGMT having stayed good on hold-up (R153). -/
def stageUp (s : Dev) : Dev := modPwr (ibUp s) (fun p => { p with inrush := 4, tries := 0 })

/-- VMGMT in soft start (R139). -/
def vmgmtStarts (s : Dev) : Dev := modRail (modPwr (ibUp s) (fun p => { p with inrush := 3 })) 0 (fun r => { r with st := 1 })

/-- The inrush stage up with VMGMT good (R139). -/
def vmgmtUp (s : Dev) : Dev :=
  modRail (modPwr (drawFree (drawFree s)) (fun p => { p with inrush := 4, vmgmt := true, tries := 0 })) 0
    (fun _ => goodReading s 760 80)

/-- The straps read, the management PLL locked and the management controller out of reset (R140, R566). -/
def strapsRead (s : Dev) : Dev :=
  modMgmt (modClk { s with lny := { s.lny with slot := s.lny.strap } } (fun c => { c with lock := setBit c.lock 29 true }))
    (fun m => { m with stage := 0 })

/-- The switch open after a missed window (R156). -/
def windowMissed (s : Dev) : Dev :=
  modPwr s (fun p => { p with inrush := 0, tries := min 3 (p.tries + 1), inrushLatch := decide (3 ≤ p.tries) })

theorem railOf_ibUp (s : Dev) : railOf (ibUp s) 10 = goodReading s 5700 0 := railOf_modRail_same (drawFree (drawFree s)) 10 _
theorem railOf_stageUp (s : Dev) : railOf (stageUp s) 10 = goodReading s 5700 0 := (railOf_modPwr _ rfl 10).trans (railOf_ibUp s)
theorem railOf_vmgmtUp (s : Dev) : railOf (vmgmtUp s) 0 = goodReading s 760 80 := railOf_modRail_same _ 0 _
theorem railOf_vmgmtStarts (s : Dev) : railOf (vmgmtStarts s) 10 = goodReading s 5700 0 :=
  (railOf_modRail_other _ _ (by decide)).trans ((railOf_modPwr _ rfl 10).trans (railOf_ibUp s))

section
variable (s : Dev)
theorem strapsRead_pwr : (strapsRead s).pwr = s.pwr := rfl
theorem strapsRead_lny : (strapsRead s).lny = { s.lny with slot := s.lny.strap } := rfl
theorem strapsRead_mgmt : (strapsRead s).mgmt = { s.mgmt with stage := 0 } := rfl
theorem strapsRead_tiles : (strapsRead s).tiles = s.tiles := rfl
theorem railOf_strapsRead (r : Nat) : railOf (strapsRead s) r = railOf s r := rfl
theorem strapsRead_lock : bit (strapsRead s).clk.lock 29 = true := (bit_setBit s.clk.lock 29 29 true (by decide)).trans (if_pos rfl)
end

section
variable {s : State}

theorem exec_inputExcursionEnd_counted {vin : BitVec 16} (h : s.dev.pwr.input = 1) :
    exec (.inputExcursionEnd vin) s = .next (withDev s (pwrLog (excursionOver s.dev vin) 1 0xFF 0 0)) := by
  rw [exec_inputExcursionEnd, execInputExcursionEnd, onDev_eq, if_pos h]
  rfl

theorem exec_inputFault_of_cold {high : Bool} {vin : BitVec 16} (hin : s.dev.pwr.input ≠ 2) (hr : s.dev.pwr.inRange = true)
    (hseq : s.dev.pwr.seq = 0) : exec (.inputFault high vin) s =
      .next (withDev s (nxp s.dev (pwrLog (inputOut s.dev vin) (if high then 3 else 2) 0xFF 0 0))) := by
  rw [exec_inputFault, execInputFault, onDev_eq]
  simp [hin, hr, hseq, inputOut]

theorem exec_inputReturn_taken {vin : BitVec 16} {removed : Bool} (h : s.dev.pwr.inRange = false) :
    exec (.inputReturn (vin, removed)) s = .next (withDev s (nxp s.dev (pwrLog (inputBack s.dev vin removed) 0x40 0xFF 0 0))) := by
  rw [exec_inputReturn, execInputReturn, onDev_eq, if_neg (by simp [h])]
  rfl

theorem exec_inputDebounceDone_closes (hr : s.dev.pwr.inRange = true) (hen : s.dev.pwr.pwrEn = true) (hrush : s.dev.pwr.inrush = 0)
    (hlatch : s.dev.pwr.inrushLatch = false) (hseq : s.dev.pwr.seq ≠ 3) : exec .inputDebounceDone s =
      .next (withDev s (nxp s.dev (modPwr s.dev (fun p => { p with inrush := 1, thermtrip := false })))) := by
  rw [exec_inputDebounceDone, execInputDebounceDone, onDev_eq, if_pos (by simp [hr, hen, hrush, hlatch, hseq])]

theorem exec_ibGood_of_vmgmt (hrush : s.dev.pwr.inrush = 2) (hv : s.dev.pwr.vmgmt = true) :
    exec .ibGood s = .next (withDev s (heldStart (stageUp s.dev))) := by
  have hup : (ibUp s.dev).pwr.vmgmt = true := hv
  rw [exec_ibGood, execIbGood, onDev_eq, if_pos hrush]
  exact congrArg (fun d => Host.Outcome.next (withDev s d)) (if_pos hup)

theorem exec_ibGood_of_no_vmgmt (hrush : s.dev.pwr.inrush = 2) (hv : s.dev.pwr.vmgmt = false) :
    exec .ibGood s = .next (withDev s (vmgmtStarts s.dev)) := by
  have hup : ¬(ibUp s.dev).pwr.vmgmt = true := Bool.not_eq_true _ ▸ hv
  rw [exec_ibGood, execIbGood, onDev_eq, if_pos hrush]
  exact congrArg (fun d => Host.Outcome.next (withDev s d)) (if_neg hup)

theorem exec_vmgmtGood_up (hrush : s.dev.pwr.inrush = 3) : exec .vmgmtGood s = .next (withDev s (strapsRead (vmgmtUp s.dev))) := by
  rw [exec_vmgmtGood, execVmgmtGood, onDev_eq, if_pos hrush]
  rfl

theorem exec_inrushWindowFault_missed (hlo : 1 ≤ s.dev.pwr.inrush) (hhi : s.dev.pwr.inrush ≤ 3) :
    exec .inrushWindowFault s = .next (withDev s (nxp s.dev (modRail (modRail (windowMissed s.dev) 10 (fun _ => RailSt.off)) 0
      (fun r => if s.dev.pwr.vmgmt then r else RailSt.off)))) := by
  rw [exec_inrushWindowFault, execInrushWindowFault, onDev_eq, if_pos ⟨hlo, hhi⟩]
  rfl

theorem exec_mgmtSupplyLost_lost (hv : s.dev.pwr.vmgmt = true) :
    exec .mgmtSupplyLost s = .next (withDev s (nxp s.dev (supplyLost s.dev))) := by
  rw [exec_mgmtSupplyLost, execMgmtSupplyLost, onDev_eq, if_pos hv, supplyLost]

end

/-- Settles O51: each command's guard holds, and what its effect leaves of the part is read off the lemmas of the balls, the log,
the rails and a held START. -/
theorem powerInputCompletes : Obligations.PowerInputCompletes := by
  unfold Obligations.PowerInputCompletes
  intro s vin
  dsimp only
  refine ⟨?enHigh, ?enLow, ?excursionStart, ?excursionEnd, ?fault, ?back, ?debounce, ?nodeUp, ?ib, ?vmgmt, ?window, ?lost,
    ?commit⟩
  case enHigh => exact completes_nxp ((exec_pwrEnHigh ..).trans (onDev_eq ..)) fun _ => ⟨rfl, rfl⟩
  case enLow => exact completes_nxp ((exec_pwrEnLow ..).trans (onDev_eq ..)) fun _ => ⟨rfl, rfl⟩
  case excursionStart =>
    intro hr hin
    refine completes_onDev ((exec_inputExcursionStart ..).trans (onDev_eq ..)) ?_
    rw [if_pos (by simp [hr, hin])]
    exact ⟨rfl, rfl⟩
  case excursionEnd =>
    intro hin
    refine completes_onDev (exec_inputExcursionEnd_counted hin) ?_
    rw [withDev_dev, pwrLog_tiles, pwrLog_input, pwrLog_vin, pwrLog_exc]
    refine ⟨rfl, rfl, fun hv => ⟨if_pos hv, pwrLog_fault (excursionOver s.dev vin) _ _ _ _ hv,
      pwrLog_staged (excursionOver s.dev vin) _ _ _ _ hv⟩, fun hv => ?_, rfl⟩
    rw [pwrLog_of_no_vmgmt (excursionOver s.dev vin) _ _ _ _ hv]
    simp [excursionOver, hv]
  case fault =>
    intro hin hr hseq high
    refine completes_nxp (exec_inputFault_of_cold hin hr hseq) fun out => ?_
    rw [withDev_dev, withOut_tiles, withOut_pwr, pwrLog_tiles, pwrLog_input, pwrLog_inRange, pwrLog_inrush]
    refine ⟨rfl, rfl, rfl, fun hv => ?_, rfl⟩
    rw [pwrLog_fault (inputOut s.dev vin) _ _ _ _ hv]
    cases high <;> rfl
  case back =>
    intro hr removed
    refine completes_nxp (exec_inputReturn_taken hr) fun out => ?_
    rw [withDev_dev, withOut_tiles, withOut_pwr, pwrLog_tiles, pwrLog_input, pwrLog_inRange, pwrLog_inrush, pwrLog_vin,
      pwrLog_tries, pwrLog_inrushLatch]
    exact ⟨rfl, rfl, rfl, fun hv => pwrLog_fault (inputBack s.dev vin removed) _ _ _ _ hv, rfl, rfl, rfl, rfl⟩
  case debounce =>
    intro hr hen hrush hlatch hseq
    exact completes_nxp (exec_inputDebounceDone_closes hr hen hrush hlatch hseq) fun _ => ⟨rfl, rfl⟩
  case nodeUp =>
    intro hrush
    refine completes_onDev ((exec_inrushNodeUp ..).trans (onDev_eq ..)) ?_
    rw [if_pos hrush, withDev_dev, railOf_modRail_same]
    exact ⟨rfl, rfl, rfl, rfl⟩
  case ib =>
    intro hrush
    cases hv : s.dev.pwr.vmgmt with
    | true =>
      obtain ⟨hup, htries, hib, htiles⟩ := heldStart_keeps (stageUp s.dev)
      refine completes_onDev (exec_ibGood_of_vmgmt hrush hv) ?_
      rw [withDev_dev, hup, htries, hib, htiles, railOf_stageUp]
      exact ⟨rfl, goodReading_ib _, fun _ => ⟨rfl, rfl, fun hseq hheld => heldStart_starts (stageUp s.dev) hseq hheld rfl⟩,
        fun h => Bool.noConfusion h, rfl⟩
    | false =>
      refine completes_onDev (exec_ibGood_of_no_vmgmt hrush hv) ?_
      rw [withDev_dev, railOf_vmgmtStarts]
      exact ⟨rfl, goodReading_ib _, fun h => Bool.noConfusion h,
        fun _ => ⟨rfl, congrArg RailSt.st (railOf_modRail_same _ 0 _)⟩, rfl⟩
  case vmgmt =>
    intro hrush
    obtain ⟨hlo, hhi⟩ := goodReading_bounds s.dev 760 80
    refine completes_onDev (exec_vmgmtGood_up hrush) ?_
    rw [withDev_dev, strapsRead_pwr, strapsRead_lny, strapsRead_mgmt, strapsRead_tiles, railOf_strapsRead, railOf_vmgmtUp]
    exact ⟨rfl, rfl, rfl, rfl, hlo, hhi, rfl, strapsRead_lock _, rfl, rfl⟩
  case window =>
    intro hlo hhi
    refine completes_nxp (exec_inrushWindowFault_missed hlo hhi) fun out => ?_
    rw [withDev_dev, railOf_withOut, railOf_modRail_other _ _ (by decide), railOf_modRail_same, withOut_tiles,
      modRail_tiles, modRail_tiles]
    exact ⟨rfl, rfl, rfl, rfl, rfl⟩
  case lost =>
    intro hv
    refine completes_nxp (exec_mgmtSupplyLost_lost hv) fun out => ?_
    rw [withDev_dev]
    refine ⟨rfl, rfl, fun hrush => ?_, fun hrush => if_neg hrush, rfl, rfl, rfl, rfl, rfl, rfl, rfl, tileOf_supplyLost _,
      rfl, rfl, rfl, rfl, rfl, rfl⟩
    rw [withOut_pwr, supplyLost, modPwr_pwr, if_pos hrush]
    exact (lostSupply_cases s.dev).imp (congrArg some) (congrArg some)
  case commit =>
    intro r rest hstaged
    exact completes_onDev ((exec_alwaysOnLogCommit ..).trans (onDev_eq ..)) (pwrCommit_cons hstaged)

end Sys2Proof.Machine
end

section
/-! PROOFS. Writes of one register or predicate and the ends of an instruction (R178, R183, R773): what each changes, and that
nothing else of the tile does. -/

namespace Sys2Proof.Machine.CoreLaws
open Sys2Proof

/-- A saturating count goes up by `k` and stops at all ones (R773). -/
theorem countUp_toNat (w : Word) (k : Nat) : (countUp w k).toNat = min (w.toNat + k) (2 ^ 64 - 1) := by
  rw [countUp, satAdd, BitVec.toNat_ofNat]
  exact Nat.mod_eq_of_lt (Nat.lt_of_le_of_lt (Nat.min_le_right ..) (by decide))

/-- Writing a general register changes the core and the digests only. -/
theorem setG_frame (x : Tile) (r : Nat) (v : Word) : setG x r v = { x with core := (setG x r v).core, dig := (setG x r v).dig } := by
  rw [setG_eq]

/-- Writing a predicate changes the core and the digests only. -/
theorem setP_frame (x : Tile) (p : Nat) (b : Bool) : setP x p b = { x with core := (setP x p b).core, dig := (setP x p b).dig } := by
  rw [setP_eq]

/-- A load that lands in g0 changes no register (R178). -/
theorem getG_landDue_zero {x : Tile} (v : Word) (r : Nat) :
    getG (landDue { x with core := { x.core with loads := [⟨0, v, x.core.slot⟩] } }) r = getG x r := by
  have hg : (landDue { x with core := { x.core with loads := [⟨0, v, x.core.slot⟩] } }).core.g = x.core.g := by
    rw [landDue_core]
    exact congrArg (·.core.g) ((if_pos (Nat.le_refl x.core.slot)).trans (setG_zero _ v))
  rw [getG, hg]
  rfl

/-- Settles O4: the writes by the laws of `setG` and `setP`, an advance and a branch by their definitions. -/
theorem registerAndPredicateWriteFrame : Obligations.RegisterAndPredicateWriteFrame := by
  unfold Obligations.RegisterAndPredicateWriteFrame
  refine ⟨fun x rd v => ⟨getG_zero x, setG_zero x v, fun r _ => getG_landDue_zero v r, fun r => ?_, setG_core x rd v,
    setG_frame x rd v, fun size occ => ⟨rfl, countUp_toNat _ 1, rfl⟩, fun target => ⟨rfl, rfl, rfl⟩⟩,
    fun x pd b => ⟨getP_zero x, setP_zero x b, fun p => getP_setP x pd p b, setP_core x pd b, setP_frame x pd b⟩⟩
  exact (getG_setG x rd r v).trans (if_congr (and_congr Fin.ext_iff.symm (not_congr Fin.val_eq_zero_iff)) rfl rfl)

end Sys2Proof.Machine.CoreLaws
end

section
/-! PROOFS. Products and quotients (R189 to R191, R232): the pair of a multiplication is the exact product, the signed pair of a
division is the library's truncating division, and the pair in flight lands. -/

namespace Sys2Proof.Machine.CoreLaws
open Sys2Proof

/-! ### Two's complement of 64 bits -/

theorem toSigned_toNat (a : Word) : toSigned 64 (a.toNat % 2 ^ 64) = a.toInt := by
  have h := a.isLt
  rw [BitVec.toInt_eq_toNat_cond, Nat.mod_eq_of_lt h, toSigned]
  simp only [Nat.mod_eq_of_lt h]
  split <;> split <;> omega

theorem sext64_ofSigned (q : Int) : sext64 64 (ofSigned 64 q) = BitVec.ofInt 64 q := by
  rw [sext64, BitVec.signExtend_eq]
  apply BitVec.eq_of_toNat_eq
  rw [BitVec.toNat_ofInt, BitVec.toNat_ofNat, ofSigned]
  have hlo : 0 ≤ q % 2 ^ 64 := Int.emod_nonneg q (by decide)
  have hhi : q % 2 ^ 64 < 2 ^ 64 := Int.emod_lt_of_pos q (by decide)
  exact Nat.mod_eq_of_lt ((Int.toNat_lt hlo).mpr hhi)

/-! ### Products -/

/-- The pair spells the product it was made of: the low word as a number, the high word by the sign of the form. -/
theorem mulOp_signed_exact (a b : Word) : (mulOp true a b).2.toInt * 2 ^ 64 + (mulOp true a b).1.toNat = a.toInt * b.toInt := by
  have hlo : -(2 ^ 126) ≤ a.toInt * b.toInt := BitVec.le_toInt_mul_toInt
  have hhi : a.toInt * b.toInt ≤ 2 ^ 126 := BitVec.toInt_mul_toInt_le
  simp only [mulOp, if_true, BitVec.toNat_ofInt]
  generalize a.toInt * b.toInt = p at hlo hhi
  rw [BitVec.toInt_ofInt_eq_self (by decide) (by omega) (by omega), Int.toNat_of_nonneg (Int.emod_nonneg _ (by decide))]
  exact Int.ediv_mul_add_emod ..

theorem mulOp_unsigned_exact (a b : Word) :
    (mulOp false a b).2.toNat * 2 ^ 64 + (mulOp false a b).1.toNat = a.toNat * b.toNat := by
  have h : a.toNat * b.toNat < 2 ^ 64 * 2 ^ 64 := Nat.mul_lt_mul'' a.isLt b.isLt
  simp only [mulOp, Bool.false_eq_true, if_false, BitVec.toNat_ofInt, ← Int.natCast_mul]
  generalize a.toNat * b.toNat = p at h
  show ((p / 2 ^ 64 % 2 ^ 64 : Nat) : Int).toNat * 2 ^ 64 + ((p % 2 ^ 64 : Nat) : Int).toNat = p
  rw [Int.toNat_natCast, Int.toNat_natCast, Nat.mod_eq_of_lt (Nat.div_lt_of_lt_mul h)]
  exact Nat.div_add_mod' p _

/-! ### Quotients -/

/-- A signed division by a divisor that is not zero truncates towards zero (R191). -/
theorem divOp_signed (a b : Word) (h : b ≠ 0) : divOp true 64 a b = (a.sdiv b, a.srem b) := by
  have hb : b.toNat % 2 ^ 64 ≠ 0 := by
    rw [Nat.mod_eq_of_lt b.isLt]
    exact fun e => h (BitVec.eq_of_toNat_eq e)
  have hq : BitVec.ofInt 64 (Int.tdiv a.toInt b.toInt) = a.sdiv b :=
    BitVec.eq_of_toInt_eq ((BitVec.toInt_ofInt _).trans (BitVec.toInt_sdiv a b).symm)
  have hr : BitVec.ofInt 64 (Int.tmod a.toInt b.toInt) = a.srem b := by
    rw [← BitVec.toInt_srem, BitVec.ofInt_toInt]
  simp only [divOp, if_neg hb, if_true, toSigned_toNat, sext64_ofSigned, hq, hr]

/-- An unsigned division by a divisor that is not zero is the Euclidean one (R191). -/
theorem divOp_unsigned (a b : Word) (h : b ≠ 0) : divOp false 64 a b = (a / b, a % b) := by
  have hb : b.toNat ≠ 0 := fun e => h (BitVec.eq_of_toNat_eq e)
  have hq : a.toNat / b.toNat < 2 ^ 64 := lt_of_le_of_lt (Nat.div_le_self _ _) a.isLt
  have hr : a.toNat % b.toNat < 2 ^ 64 := lt_of_le_of_lt (Nat.mod_le _ _) a.isLt
  simp only [divOp, Nat.mod_eq_of_lt a.isLt, Nat.mod_eq_of_lt b.isLt, if_neg hb, Bool.false_eq_true, if_false,
    Nat.mod_eq_of_lt hq, Nat.mod_eq_of_lt hr]
  rw [← BitVec.toNat_udiv, ← BitVec.toNat_umod, BitVec.ofNat_toNat, BitVec.ofNat_toNat,
    BitVec.setWidth_eq, BitVec.setWidth_eq]

/-- A division by zero gives all ones and the dividend (R191). -/
theorem divOp_zero (sgn : Bool) (a : Word) : divOp sgn 64 a 0 = (BitVec.allOnes 64, a) := by
  cases sgn <;> simp [divOp, sext64, Nat.mod_eq_of_lt a.isLt]

/-- The most negative number is the one word of its value, and so is −1. -/
theorem divOp_overflow (a b : Word) (ha : a.toInt = -2 ^ 63) (hb : b.toInt = -1) : divOp true 64 a b = (a, 0) := by
  obtain rfl : a = BitVec.intMin 64 := BitVec.eq_of_toInt_eq ha
  obtain rfl : b = -1 := BitVec.eq_of_toInt_eq hb
  decide

/-- Away from the one overflow the signed quotient is the truncated one. -/
theorem toInt_sdiv_of_no_overflow (a b : Word) (h : ¬ (a.toInt = -2 ^ 63 ∧ b.toInt = -1)) :
    (a.sdiv b).toInt = a.toInt.tdiv b.toInt := by
  apply BitVec.toInt_sdiv_of_ne_or_ne
  by_contra hc
  obtain ⟨rfl, rfl⟩ := not_or.mp hc |>.imp not_not.mp not_not.mp
  exact h (by decide)

/-- Settles O6: products and quotients are those of the library, which are exact. -/
theorem productAndQuotientAreExact : Obligations.ProductAndQuotientAreExact := by
  unfold Obligations.ProductAndQuotientAreExact
  refine ⟨fun a b => ⟨mulOp_signed_exact a b, mulOp_unsigned_exact a b⟩, fun a b => ⟨fun h => ?unsigned, fun h hov => ?signed,
    divOp_overflow a b, divOp_zero false a, divOp_zero true a⟩⟩
  case unsigned =>
    rw [divOp_unsigned a b h]
    have hb : 0 < b.toNat := Nat.pos_of_ne_zero fun e => h (BitVec.eq_of_toNat_eq e)
    exact ⟨Nat.div_add_mod' a.toNat b.toNat, Nat.mod_lt _ hb⟩
  case signed =>
    rw [divOp_signed a b h]
    have hb : 0 < b.toInt.natAbs := Int.natAbs_pos.mpr fun e => h (BitVec.eq_of_toInt_eq e)
    simp only [toInt_sdiv_of_no_overflow a b hov, BitVec.toInt_srem]
    refine ⟨Int.tdiv_mul_add_tmod _ _, ?_, ?_⟩
    · rw [Int.natAbs_tmod]
      exact Nat.mod_lt _ hb
    · by_cases hd : b.toInt ∣ a.toInt
      · exact .inl (Int.tmod_eq_zero_of_dvd hd)
      · right
        rw [← Int.sign_eq_neg_one_iff_neg, Int.sign_tmod, if_neg hd, Int.sign_eq_neg_one_iff_neg]

end Sys2Proof.Machine.CoreLaws
end

section
/-! PROOFS. Taking an exception and returning (R205, R206, R212): the bits of `status`, and that the delay state spells again
the writes in flight it was made of. -/

namespace Sys2Proof.Machine.CoreLaws
open Sys2Proof

/-! ### The delay state -/

/-- What the delay state can spell: two loads at most two slots from landing, and a product at most 33 (R212). -/
structure DelayFits (t : Tile) : Prop where
  loads : t.core.loads.length ≤ 2
  load : ∀ l ∈ t.core.loads, l.dst < 32 ∧ t.core.slot ≤ l.due ∧ l.due ≤ t.core.slot + 2
  prod : ∀ p, t.core.prod = some p → t.core.slot ≤ p.due ∧ p.due ≤ t.core.slot + 33

/-- A field is spelled by its own bits. -/
theorem fld_congr {v w : Word} {hi lo : Nat} (h : ∀ i, lo ≤ i → i ≤ hi → bit v i = bit w i) : fld v hi lo = fld w hi lo := by
  apply Nat.eq_of_testBit_eq
  intro j
  rw [fld_testBit, fld_testBit]
  by_cases hj : j < hi + 1 - lo
  · rw [h (lo + j) (by omega) (by omega)]
  · simp [hj]

/-- The bits of `dly_ctl` of one place for a load in flight. -/
def dlyPlaceBits (base slot : Nat) (l : Option PendLoad) : Word :=
  match l with
  | some l => dlyLoadBits base slot l
  | none => 0

/-- The bits of `dly_ctl` of the product in flight. -/
def dlyProdBits (slot : Nat) (p : Option PendProd) : Word :=
  match p with
  | some p => setFld (setFld 0 16 16 1) 22 17 (p.due - slot)
  | none => 0

theorem freezeDelay_ctl (t : Tile) : (freezeDelay t).ctl =
    dlyPlaceBits 0 t.core.slot t.core.loads[0]? ||| dlyPlaceBits 8 t.core.slot t.core.loads[1]? |||
      dlyProdBits t.core.slot t.core.prod := rfl

/-- The load one place of a delay state spells. -/
def thawPlace (ctl val : Word) (base slot : Nat) : List PendLoad :=
  if bit ctl base then [⟨fld ctl (base + 5) (base + 1), val, slot + min 2 (fld ctl (base + 7) (base + 6))⟩] else []

theorem thawLoads_eq (d : Delay) (slot : Nat) : thawLoads d slot = thawPlace d.ctl d.ld0 0 slot ++ thawPlace d.ctl d.ld1 8 slot :=
  rfl

/-- A place's bits lie in its own eight. -/
theorem bit_dlyPlaceBits_other {base slot i : Nat} (l : Option PendLoad) (hb : base ≤ 8) (h : i < base ∨ base + 8 ≤ i) :
    bit (dlyPlaceBits base slot l) i = false := by
  cases l with
  | none => exact bit_zero i
  | some l =>
    rw [dlyPlaceBits, dlyLoadBits, bit_setFld _ _ _ _ _ (by omega) (by omega), if_neg (by omega),
      bit_setFld _ _ _ _ _ (by omega) (by omega), if_neg (by omega), bit_setFld _ _ _ _ _ (by omega) (by omega),
      if_neg (by omega), bit_zero]

/-- The product's bits lie in bits 22 to 16. -/
theorem bit_dlyProdBits_other {slot i : Nat} (p : Option PendProd) (h : i < 16) : bit (dlyProdBits slot p) i = false := by
  cases p with
  | none => exact bit_zero i
  | some p =>
    rw [dlyProdBits, bit_setFld _ _ _ _ _ (by omega) (by omega), if_neg (by omega),
      bit_setFld _ _ _ _ _ (by omega) (by omega), if_neg (by omega), bit_zero]

theorem thawPlace_congr {v w : Word} {base : Nat} (h : ∀ i, base ≤ i → i < base + 8 → bit v i = bit w i) (val : Word)
    (slot : Nat) : thawPlace v val base slot = thawPlace w val base slot := by
  unfold thawPlace
  rw [h base (by omega) (by omega), fld_congr fun i hlo hhi => h i (by omega) (by omega),
    fld_congr fun i hlo hhi => h i (by omega) (by omega)]

/-- A place spells the load it was made of. -/
theorem thawPlace_dlyPlaceBits {base slot : Nat} (hb : base ≤ 8) {o : Option PendLoad}
    (h : ∀ l ∈ o, l.dst < 32 ∧ slot ≤ l.due ∧ l.due ≤ slot + 2) :
    thawPlace (dlyPlaceBits base slot o) ((o.map (·.val)).getD 0) base slot = o.toList := by
  cases o with
  | none => exact if_neg (ne_true_of_eq_false (bit_zero base))
  | some l =>
    obtain ⟨hdst, hlo, hhi⟩ := h l rfl
    have hspan : l.due - slot ≤ 2 := Nat.sub_le_iff_le_add'.mpr hhi
    have hvalid : bit (dlyLoadBits base slot l) base = true := by
      rw [dlyLoadBits, bit_setFld _ _ _ _ _ (by omega) (by omega), if_neg (by omega),
        bit_setFld _ _ _ _ _ (by omega) (by omega), if_neg (by omega), bit_setFld _ _ _ _ _ (by omega) (by omega)]
      simp
    have hd : fld (dlyLoadBits base slot l) (base + 5) (base + 1) = l.dst := by
      rw [dlyLoadBits, fld_setFld_other _ _ _ _ _ _ (by omega) (by omega) (by omega),
        fld_setFld_same _ _ _ _ (by omega) (by omega), show base + 5 + 1 - (base + 1) = 5 by omega]
      exact Nat.mod_eq_of_lt hdst
    have hs : fld (dlyLoadBits base slot l) (base + 7) (base + 6) = l.due - slot := by
      rw [dlyLoadBits, fld_setFld_same _ _ _ _ (by omega) (by omega), show base + 7 + 1 - (base + 6) = 2 by omega]
      exact Nat.mod_eq_of_lt (Nat.lt_of_le_of_lt hspan (by decide))
    have hdue : slot + min 2 (l.due - slot) = l.due := by rw [Nat.min_eq_right hspan, Nat.add_sub_of_le hlo]
    simp [thawPlace, dlyPlaceBits, hvalid, hd, hs, hdue]

theorem toList_getElem?_zero_one {α : Type} {l : List α} (h : l.length ≤ 2) : l[0]?.toList ++ l[1]?.toList = l := by
  match l, h with
  | [], _ => rfl
  | [_], _ => rfl
  | [_, _], _ => rfl

/-- The loads frozen come back as they were (R206). -/
theorem thawLoads_freezeDelay {t : Tile} (h : DelayFits t) : thawLoads (freezeDelay t) t.core.slot = t.core.loads := by
  have hfits (i : Nat) : ∀ l ∈ t.core.loads[i]?, l.dst < 32 ∧ t.core.slot ≤ l.due ∧ l.due ≤ t.core.slot + 2 :=
    fun l hl => h.load l (List.mem_of_getElem? hl)
  rw [thawLoads_eq, freezeDelay_ctl, thawPlace_congr (w := dlyPlaceBits 0 t.core.slot t.core.loads[0]?) (base := 0),
    thawPlace_congr (w := dlyPlaceBits 8 t.core.slot t.core.loads[1]?) (base := 8)]
  · calc _ = t.core.loads[0]?.toList ++ t.core.loads[1]?.toList :=
          congrArg₂ _ (thawPlace_dlyPlaceBits (by decide) (hfits 0)) (thawPlace_dlyPlaceBits (by decide) (hfits 1))
      _ = _ := toList_getElem?_zero_one h.loads
  · intro i hlo hhi
    rw [bit_or, bit_or, bit_dlyPlaceBits_other (base := 0) _ (by decide) (by omega), bit_dlyProdBits_other _ (by omega)]
    simp
  · intro i hlo hhi
    rw [bit_or, bit_or, bit_dlyPlaceBits_other (base := 8) _ (by decide) (by omega), bit_dlyProdBits_other _ (by omega)]
    simp

/-- The product frozen comes back as it was (R206). -/
theorem thawProd_freezeDelay {t : Tile} (h : DelayFits t) : thawProd (freezeDelay t) t.core.slot = t.core.prod := by
  have hbits : ∀ i, 16 ≤ i → bit (freezeDelay t).ctl i = bit (dlyProdBits t.core.slot t.core.prod) i := by
    intro i hi
    rw [freezeDelay_ctl, bit_or, bit_or, bit_dlyPlaceBits_other (base := 0) _ (by decide) (by omega),
      bit_dlyPlaceBits_other (base := 8) _ (by decide) (by omega)]
    simp
  rw [thawProd, hbits 16 (by decide), fld_congr (fun i hlo _ => hbits i (by omega))]
  cases hp : t.core.prod with
  | none => exact if_neg (ne_true_of_eq_false (bit_zero 16))
  | some p =>
    obtain ⟨hlo, hhi⟩ := h.prod p hp
    have hspan : p.due - t.core.slot ≤ 33 := Nat.sub_le_iff_le_add'.mpr hhi
    have hvalid : bit (dlyProdBits t.core.slot (some p)) 16 = true := by
      rw [dlyProdBits, bit_setFld _ _ _ _ _ (by decide) (by decide), if_neg (by decide),
        bit_setFld _ _ _ _ _ (by decide) (by decide)]
      rfl
    have hs : fld (dlyProdBits t.core.slot (some p)) 22 17 = p.due - t.core.slot := by
      rw [dlyProdBits, fld_setFld_same _ _ _ _ (by decide) (by decide)]
      exact Nat.mod_eq_of_lt (Nat.lt_of_le_of_lt hspan (by decide))
    have hdue : t.core.slot + min 33 (p.due - t.core.slot) = p.due := by
      rw [Nat.min_eq_right hspan, Nat.add_sub_of_le hlo]
    simp [hvalid, hs, hdue, freezeDelay, hp]

/-! ### Entry and return -/

/-- The bits of `status` as an entry leaves them: monitor mode, interrupts disabled, the old mode and enable saved (R205). -/
theorem bit_enterException_status (t : Tile) (code sub : Nat) (bad : Word) (i : Nat) :
    bit (enterException t code sub bad).core.status i =
      if i = 0 then true else if i = 1 then false else if i = 2 then bit t.core.status 0
      else if i = 3 then bit t.core.status 1 else bit t.core.status i := by
  show bit (setBit (setBit (setBit (setBit t.core.status 2 _) 3 _) 0 true) 1 false) i = _
  simp only [bit_setBit _ _ _ _ (show 0 < 64 by decide), bit_setBit _ _ _ _ (show 1 < 64 by decide),
    bit_setBit _ _ _ _ (show 2 < 64 by decide), bit_setBit _ _ _ _ (show 3 < 64 by decide)]
  by_cases h0 : i = 0
  · simp [h0]
  · by_cases h1 : i = 1
    · simp [h1]
    · by_cases h2 : i = 2
      · simp [h2]
      · simp [h0, h1, h2]

/-- With nothing in flight all of it has landed. -/
theorem landAll_idle (t : Tile) (h1 : t.core.loads = []) (h2 : t.core.prod = none) : landAll t = t := by
  obtain ⟨core⟩ := t
  obtain ⟨⟩ := core
  simp only at h1 h2
  subst h1 h2
  rfl

/-- A return with nothing in flight restores mode, enable, pc and the frozen writes (R205). -/
theorem returnException_idle (t : Tile) (h1 : t.core.loads = []) (h2 : t.core.prod = none) :
    returnException t = { t with core := redirect { t.core with
      status := setBit (setBit t.core.status 0 (bit t.core.status 2)) 1 (bit t.core.status 3)
      loads := thawLoads t.core.dly t.core.slot, prod := thawProd t.core.dly t.core.slot
      inHandler := false, stalled := false, cycle := countUp t.core.cycle 4 } t.core.epc } := by
  rw [returnException, landAll_idle t h1 h2]

/-- Only the four causes that name an address write `badaddr` (R205). -/
theorem hasBadaddr_iff (code : Nat) : hasBadaddr code = true ↔ code = 5 ∨ code = 6 ∨ code = 7 ∨ code = 8 := by
  simp [hasBadaddr, or_assoc]

/-- Settles O11: an entry by its definition, its `status` bit by bit; the return by what the delay state spells. -/
theorem exceptionEntryAndReturn : Obligations.ExceptionEntryAndReturn := by
  unfold Obligations.ExceptionEntryAndReturn
  refine ⟨fun x code sub bad hc hs => ?entry, fun x code sub bad hlen hload hprod => ?back⟩
  case entry =>
    have hst := bit_enterException_status x code sub bad
    have hcause : (enterException x code sub bad).core.cause = BitVec.ofNat 64 (code + 256 * sub) := by
      show BitVec.ofNat 64 (code % 256 + 256 * (sub % 256)) = _
      rw [Nat.mod_eq_of_lt hc, Nat.mod_eq_of_lt hs]
    have hbad : (enterException x code sub bad).core.badaddr =
        if code = 5 ∨ code = 6 ∨ code = 7 ∨ code = 8 then bad else x.core.badaddr :=
      if_congr (hasBadaddr_iff code) rfl rfl
    have hkept : ∀ i, 4 ≤ i → bit (enterException x code sub bad).core.status i = bit x.core.status i := by
      intro i hi
      rw [hst, if_neg (by omega), if_neg (by omega), if_neg (by omega), if_neg (by omega)]
    exact ⟨rfl, hcause, hbad, hst 0, hst 1, hst 2, hst 3, hkept, rfl, rfl, rfl, rfl, fun _ => rfl, rfl, rfl, rfl, rfl, rfl,
      rfl, rfl, rfl, rfl, rfl⟩
  case back =>
    have hfits : DelayFits x := ⟨hlen, hload, hprod⟩
    have hst := bit_enterException_status x code sub bad
    rw [returnException_idle (enterException x code sub bad) rfl rfl]
    refine ⟨rfl, ?_, ?_, thawLoads_freezeDelay hfits, thawProd_freezeDelay hfits, fun _ => rfl, rfl, rfl, rfl⟩
    · show bit (setBit (setBit (enterException x code sub bad).core.status 0 _) 1 _) 0 = _
      rw [bit_setBit _ _ _ _ (by decide), if_neg (by decide), bit_setBit _ _ _ _ (by decide)]
      exact hst 2
    · show bit (setBit (setBit (enterException x code sub bad).core.status 0 _) 1 _) 1 = _
      rw [bit_setBit _ _ _ _ (by decide)]
      exact hst 3

end Sys2Proof.Machine.CoreLaws
end

section
/-! PROOFS. What reset leaves (R178, R690), and the multiply and divide instructions (R189 to R191): how an instruction that issues
ends, and the pair in flight that lands. -/

namespace Sys2Proof.Machine.CoreLaws
open Sys2Proof

/-! ### Reset -/

/-- No memory holds anything at reset, and the empty map is canonical. -/
theorem memory_wf_reset : Memory.wf State.reset.dev = true := rfl

/-- Settles O3: the fields of the reset state are read off; g0 and p0 read the same of every tile. -/
theorem resetLeaves : Obligations.ResetLeaves := by
  unfold Obligations.ResetLeaves
  exact ⟨rfl, rfl, rfl, rfl, rfl, rfl, rfl, rfl, rfl, rfl, rfl, fun _ => ⟨getG_zero _, getP_zero _⟩, memory_wf_reset, rfl⟩

/-! ### An instruction that issues -/

section
variable {s : State} {t : TileId} {gu : Guard} {size : Nat} (h : Issues s t gu size)
include h

/-- An instruction that only changes its own tile. -/
theorem onDev_issueT {occ : Nat} {f : Tile → Tile} :
    onDev s (fun d => issueT d t gu size occ false f) = .next (putTile s t (advance (f (tileIn s t)) size occ)) := by
  rw [onDev_eq, issueT_ready h]
  rfl

/-- An instruction that is none raises ILLEGAL (R204). -/
theorem onDev_issue_illegal {ill : Dev → Tile → Bool} {body : Dev → Tile → Res} (hi : ill s.dev (tileIn s t) = true) :
    onDev s (fun d => issue d t gu size (ill d) (body d)) = .next (putTile s t (enterException (tileIn s t) 1 0 0)) := by
  rw [onDev_eq, issue_illegal h hi]
  rfl

variable {ill : Dev → Tile → Bool} {body : Dev → Tile → Res} (hi : ill s.dev (tileIn s t) = false)
include hi

/-- An instruction ends as its work ends. -/
theorem onDev_issue {r : Res} (hb : body s.dev (tileIn s t) = r) :
    onDev s (fun d => issue d t gu size (ill d) (body d)) = .next (withDev s (finish s.dev t (tileIn s t) size r)) := by
  rw [onDev_eq, issue_ready h hi, hb]

theorem onDev_issue_done {y : Tile} {occ : Nat} (hb : body s.dev (tileIn s t) = .done s.dev y occ) :
    onDev s (fun d => issue d t gu size (ill d) (body d)) = .next (putTile s t (advance y size occ)) := onDev_issue h hi hb

theorem onDev_issue_jump {y : Tile} {target : Word} (hb : body s.dev (tileIn s t) = .jump s.dev y target) :
    onDev s (fun d => issue d t gu size (ill d) (body d)) = .next (putTile s t (takeBranch y target)) := onDev_issue h hi hb

theorem onDev_issue_raw {y : Tile} (hb : body s.dev (tileIn s t) = .raw s.dev y) :
    onDev s (fun d => issue d t gu size (ill d) (body d)) = .next (putTile s t y) := onDev_issue h hi hb

theorem onDev_issue_exc {code sub : Nat} {bad : Word} (hb : body s.dev (tileIn s t) = .exc code sub bad) :
    onDev s (fun d => issue d t gu size (ill d) (body d)) = .next (putTile s t (enterException (tileIn s t) code sub bad)) :=
  onDev_issue h hi hb
end

/-- A command whose answer is the state with one tile replaced. -/
theorem completes_putTile {c : Instr} {s : State} {t : TileId} {y : Tile} {post : State → Prop}
    (h : exec c s = .next (putTile s t y)) (hp : post (putTile s t y)) : Completes c s post := ⟨_, h, hp⟩

@[simp] theorem tileOf_putTile_same (s : State) (t : Nat) (x : Tile) : tileOf (putTile s t x).dev t = x :=
  tileOf_setTile_same s.dev t x

theorem tileOf_putTile_other (s : State) {t q : TileId} (x : Tile) (h : q ≠ t) :
    tileOf (putTile s t x).dev q = tileOf s.dev q :=
  tileOf_setTile_other s.dev x fun e => h (Fin.ext e)

/-! ### Multiply and divide -/

@[simp] theorem passTo_pc (x : Tile) (slot : Nat) : (passTo x slot).core.pc = x.core.pc := by
  rw [passTo, landDue_pc]
  rfl

@[simp] theorem passTo_slot (x : Tile) {slot : Nat} (h : x.core.slot ≤ slot) : (passTo x slot).core.slot = slot := by
  rw [passTo, landDue_slot]
  exact Nat.add_sub_of_le h

/-- Passing the bubbles up to the slot in which a product is due lands it (R189). -/
theorem passTo_prod {x : Tile} {p : PendProd} (hp : x.core.prod = some p) (h : x.core.slot ≤ p.due) :
    (passTo x p.due).core.plo = p.plo ∧ (passTo x p.due).core.phi = p.phi ∧ (passTo x p.due).core.prod = none := by
  have hslot : p.due ≤ x.core.slot + (p.due - x.core.slot) := by omega
  obtain ⟨hprod, hplo, hphi⟩ := landDue_prod { x with core := passSlots x.core (p.due - x.core.slot) } p hp
  exact ⟨hplo.trans (if_pos hslot), hphi.trans (if_pos hslot), hprod.trans (if_pos hslot)⟩

theorem execProductLands_of_prod {s : State} {t : TileId} {p : PendProd} (hc : canIssue (tileOf s.dev t) = true)
    (hp : (tileOf s.dev t).core.prod = some p) :
    execProductLands t s = .next (putTile s t (passTo (tileOf s.dev t) p.due)) := by
  simp only [execProductLands, onDev_eq, hp, hc, if_true]
  rfl

/-- Settles O7: each instruction only changes its own tile; the pair lands in the slot the core passes to. -/
theorem multiplyDivideComplete : Obligations.MultiplyDivideComplete := by
  unfold Obligations.MultiplyDivideComplete
  intro s t gu x flies
  refine ⟨fun h ra rb => ?_, fun p hc hp hle => ?_⟩
  · exact ⟨(exec_mul ..).trans (onDev_issueT h), (exec_mulh ..).trans (onDev_issueT h), (exec_div ..).trans (onDev_issueT h),
      (exec_divu ..).trans (onDev_issueT h), (exec_divW ..).trans (onDev_issueT h), (exec_divuW ..).trans (onDev_issueT h)⟩
  · refine completes_putTile ((exec_productLands ..).trans (execProductLands_of_prod hc hp)) ?_
    obtain ⟨hplo, hphi, hprod⟩ := passTo_prod hp hle
    rw [tileOf_putTile_same]
    exact ⟨hplo, hphi, hprod, passTo_slot _ hle, passTo_pc _ _, rfl⟩

end Sys2Proof.Machine.CoreLaws
end

section
/-! PROOFS. Branches, fences, exceptions on purpose, interrupts, and the words that spell no instruction (R182, R199 to R207, R223,
R228, R239, R240). -/

namespace Sys2Proof.Machine.CoreLaws
open Sys2Proof

/-! ### Fences -/

section
variable {s : State} {t : TileId} {gu : Guard} (h : Issues s t gu 4)
include h

theorem execJump_aligned {rd ra : RegNo} (ha : (getG (tileIn s t) ra).toNat % 4 = 0) : execJump t gu rd ra s =
    .next (putTile s t (takeBranch (setG (tileIn s t) rd ((tileIn s t).core.pc + 4)) (getG (tileIn s t) ra))) :=
  onDev_issue_jump h rfl (if_neg (not_not.mpr ha))

theorem execJump_misaligned {rd ra : RegNo} (ha : (getG (tileIn s t) ra).toNat % 4 ≠ 0) : execJump t gu rd ra s =
    .next (putTile s t (enterException (tileIn s t) 3 0 0)) :=
  onDev_issue_exc h rfl (if_pos ha)

theorem execIsync_drained (hd : storesDrained (tileIn s t) = true) : execIsync t gu s =
    .next (putTile s t (takeBranch (tileIn s t) ((tileIn s t).core.pc + 4))) :=
  onDev_issue_jump h rfl (if_pos hd)

section
variable (hd : storesDrained (tileIn s t) = true) (hq : (tileIn s t).lvu.queue = [])
include hd hq

theorem execFence_clean (he : (bit (tileIn s t).core.engErr 0 || bit (tileIn s t).core.engErr 1) = false) : execFence t gu s =
    .next (putTile s t (advance (tileIn s t) 4 1)) :=
  onDev_issue_done h rfl (by simp [hd, lvIdle, hq, he])

theorem execFence_error (he : (bit (tileIn s t).core.engErr 0 || bit (tileIn s t).core.engErr 1) = true) : execFence t gu s =
    .next (putTile s t (enterException (tileIn s t) 11 0 0)) :=
  onDev_issue_exc h rfl (by simp [hd, lvIdle, hq, he])
end

/-- A return in user mode is PRIV (R203). -/
theorem execEret_user (hu : isUser (tileIn s t) = true) : execEret t gu s =
    .next (putTile s t (enterException (tileIn s t) 2 0 0)) := onDev_issue_exc h rfl (if_pos hu)

theorem execEret_monitor (hu : isUser (tileIn s t) = false) : execEret t gu s =
    .next (putTile s t (returnException (tileIn s t))) := onDev_issue_raw h rfl (if_neg (by simp [hu]))
end

/-! ### Interrupts -/

theorem tiles_abandonWaits (s : Dev) (t : Nat) : (abandonWaits s t).tiles = s.tiles :=
  abandonWaits_keeps (·.tiles) (fun s d m => (sameButLinks_sendPeer s d m).tiles) (fun _ _ => rfl) s t

theorem tiles_metroInc (s : Dev) (t hi lo : Nat) : (metroInc s t hi lo).tiles = s.tiles := by
  unfold metroInc
  split <;> rfl

/-- Tiles read the same where the part holds the same. -/
theorem tileOf_of_tiles {s u : Dev} (h : u.tiles = s.tiles) (t : Nat) : tileOf u t = tileOf s t := by simp only [tileOf, h]

/-- The lowest source that is enabled and pending is the one taken (R207). -/
theorem eligibleSub_eq {c : CoreSt} {k : Fin 3} (hk : bit (c.ien &&& c.ipend) k = true)
    (hlow : ∀ j : Fin 3, j < k → bit (c.ien &&& c.ipend) j = false) : eligibleSub c = some k.val := by
  refine (List.find?_range_eq_some (n := 3)).mpr ⟨hk, List.mem_range.mpr k.isLt, fun j hj => ?_⟩
  rw [hlow ⟨j, by omega⟩ hj]
  rfl

/-- A core that runs, neither waits nor stalls, and has interrupts enabled takes the lowest one; no other tile changes. -/
theorem completes_interruptEntry {s : State} {t : TileId} {k : Fin 3} (hrun : (tileOf s.dev t).core.run = true)
    (hhalt : (tileOf s.dev t).core.halted = false) (hwait : (tileOf s.dev t).core.wait = .none)
    (hstall : (tileOf s.dev t).core.stalled = false) (hen : bit (tileOf s.dev t).core.status 1 = true)
    (hk : eligibleSub (tileOf s.dev t).core = some k.val) :
    Completes (.interruptEntry t) s (fun u => tileOf u.dev t = enterException (tileIn s t) 0x10 k 0 ∧
      ∀ q : TileId, q ≠ t → tileOf u.dev q = tileOf s.dev q) := by
  have hexec : execInterruptEntry t s = .next (withDev s
      (setTile (metroInc (abandonWaits s.dev t) t 63 48) t (enterException (tileIn s t) 0x10 k 0))) := by
    simp [execInterruptEntry, onDev_eq, hrun, hhalt, hwait, hstall, hen, hk, waitAbandonable, tileIn]
  refine completes_onDev ((exec_interruptEntry ..).trans hexec) ⟨tileOf_setTile_same .., fun q hq => ?_⟩
  rw [withDev_dev, tileOf_setTile_other _ _ fun e => hq (Fin.ext e)]
  exact tileOf_of_tiles ((tiles_metroInc ..).trans (tiles_abandonWaits ..)) _

/-! ### Words that spell no instruction -/

/-- A reserved major spells none (R228). -/
theorem coreDecode_reserved (t : TileId) {w w2 : BitVec 32}
    (h : majorAt w ∈ [0x00, 0x17, 0x1F, 0x26, 0x27, 0x35, 0x39, 0x3A, 0x3B, 0x3C, 0x3D, 0x3F]) :
    coreDecode t w w2 = illegalAt t w := by
  unfold coreDecode decodeScalar decodeSv
  dsimp only
  generalize majorAt w = op at h ⊢
  revert op
  refine List.map_inj_left.mp ?_
  rfl

/-- An MD whose RD field is not zero spells none (R223). -/
theorem coreDecode_md {t : TileId} {w w2 : BitVec 32} (h : majorAt w = 7) (hrd : fld w 20 16 ≠ 0) :
    coreDecode t w w2 = illegalAt t w := by
  unfold coreDecode decodeScalar
  dsimp only
  generalize majorAt w = op at h ⊢
  subst h
  exact if_neg hrd

/-- Settles O10: each command's work ends in its branch, its exception or an advance; the words are decoded. -/
theorem controlFlowCompletes : Obligations.ControlFlowCompletes := by
  unfold Obligations.ControlFlowCompletes
  refine ⟨fun s t gu h => ?branches, fun s t gu => ⟨fun h => ?onPurpose, fun long h => ?illegal,
    fun k hrun hhalt hwait hstall hen hk hlow => ?interrupt⟩, fun t w w2 h => ?reserved,
    fun t w2 => ⟨?add, ?nop⟩⟩
  case branches =>
    exact ⟨fun disp => ⟨(exec_br ..).trans (onDev_issue_jump h rfl rfl), (exec_call ..).trans (onDev_issue_jump h rfl rfl)⟩,
      fun rd ra => ⟨fun ha => (exec_jump ..).trans (execJump_aligned h ha),
        fun ha => (exec_jump ..).trans (execJump_misaligned h ha)⟩,
      fun hd => (exec_isync ..).trans (execIsync_drained h hd),
      fun hd hq => ⟨fun he => (exec_fence ..).trans (execFence_clean h hd hq he),
        fun he => (exec_fence ..).trans (execFence_error h hd hq he)⟩⟩
  case onPurpose =>
    exact ⟨(exec_sys ..).trans (onDev_issue_exc h rfl rfl), (exec_brk ..).trans (onDev_issue_exc h rfl rfl),
      fun hu => (exec_eret ..).trans (execEret_monitor h hu), fun hu => (exec_eret ..).trans (execEret_user h hu)⟩
  case illegal => exact (exec_illegalInstruction ..).trans (onDev_issue_illegal h rfl)
  case interrupt => exact completes_interruptEntry hrun hhalt hwait hstall hen (eligibleSub_eq hk hlow)
  case reserved => exact h.elim (coreDecode_reserved t) fun ⟨hmd, hrd⟩ => coreDecode_md hmd hrd
  case add => rfl
  case nop => rfl

end Sys2Proof.Machine.CoreLaws
end

section
/-! PROOFS. What a long-vector instruction does at issue (R199, R260, R261, R268): it enters the queue with what it captured. -/

namespace Sys2Proof.Machine.CoreLaws
open Sys2Proof

/-- The tile with one more instruction in the unit's queue. -/
def lvQueued (x : Tile) (e : LvEntry) : Tile := { x with lvu := { x.lvu with queue := x.lvu.queue ++ [e] } }

/-- The unit of a tile takes an instruction: no spindles, no error, room in the queue (R261, R276, R284). -/
structure LvTakes (x : Tile) : Prop where
  spin : x.lvu.spin = false
  keeps : lvDropping x = false
  room : x.lvu.queue.length < 16

section
variable {s : State} {t : TileId} {gu : Guard} (h : Issues s t gu 4) (hx : LvTakes (tileIn s t))
include h hx

theorem onDev_lvIssue {ill : Tile → Bool} {mem : Bool} {mk : Tile → LvEntry} (hi : ill (tileIn s t) = false)
    (hm : mem = true → storesDrained (tileIn s t) = true) :
    onDev s (fun d => lvIssue d t gu ill mem mk) =
      .next (putTile s t (advance (lvQueued (tileIn s t) (mk (tileIn s t))) 4 1)) := by
  obtain ⟨hspin, hkeeps, hroom⟩ := hx
  refine onDev_issue_done (ill := fun _ x => x.lvu.spin || ill x) h (by simp [hspin, hi]) ?_
  have hwait : (mem && !storesDrained (tileIn s t)) = false := by
    cases mem with
    | false => rfl
    | true => simp [hm rfl]
  simp only [hkeeps, hwait, Nat.not_le.mpr hroom, Bool.false_eq_true, if_false]
  rfl

/-- A register instruction does not wait for the stores. -/
theorem onDev_lvIssue_reg {ill : Tile → Bool} {mk : Tile → LvEntry} (hi : ill (tileIn s t) = false) :
    onDev s (fun d => lvIssue d t gu ill false mk) =
      .next (putTile s t (advance (lvQueued (tileIn s t) (mk (tileIn s t))) 4 1)) :=
  onDev_lvIssue h hx hi fun e => Bool.noConfusion e

/-- A memory instruction goes once the stores have drained (R199). -/
theorem onDev_lvIssue_mem {ill : Tile → Bool} {mk : Tile → LvEntry} (hi : ill (tileIn s t) = false)
    (hd : storesDrained (tileIn s t) = true) :
    onDev s (fun d => lvIssue d t gu ill true mk) =
      .next (putTile s t (advance (lvQueued (tileIn s t) (mk (tileIn s t))) 4 1)) :=
  onDev_lvIssue h hx hi fun _ => hd
end

/-- Masks numbered below 8 are good (R268). -/
theorem badMasks_of_lt {a b c : Nat} (ha : a < 8) (hb : b < 8) (hc : c < 8) : badMasks a b c = false := by
  simp [badMasks, ha, hb, hc]

/-- Settles O17: every instruction is issued by `lvIssue`, and none of them is illegal as its clause has it. -/
theorem longVectorInstructionsQueue : Obligations.LongVectorInstructionsQueue := by
  unfold Obligations.LongVectorInstructionsQueue
  refine ⟨?registers, ?memory⟩
  case registers =>
    intro s t gu h x hspin hkeeps hroom q vd va vb ra vm
    have hx : LvTakes (tileIn s t) := ⟨hspin, hkeeps, hroom⟩
    refine ⟨fun fn => (exec_lvInteger ..).trans (onDev_lvIssue_reg h hx rfl),
      fun fn => (exec_lvLogicShift ..).trans (onDev_lvIssue_reg h hx rfl),
      fun ty hvl => ⟨(exec_vcvtI ..).trans (onDev_lvIssue_reg h hx ?vcvtI),
        fun hf => (exec_vcvt ..).trans (onDev_lvIssue_reg h hx ?vcvt)⟩,
      fun fn hf hz => (exec_lvFloat ..).trans (onDev_lvIssue_reg h hx ?float),
      fun fn hvd hf => (exec_lvCompare ..).trans (onDev_lvIssue_reg h hx ?compare),
      (exec_lvVbcast ..).trans (onDev_lvIssue_reg h hx rfl), (exec_vmv ..).trans (onDev_lvIssue_reg h hx rfl),
      (exec_vmsf ..).trans (onDev_lvIssue_reg h hx rfl),
      fun hvb => (exec_vcompress ..).trans (onDev_lvIssue_reg h hx (decide_eq_false (Nat.not_le.mpr hvb))),
      (exec_vid ..).trans (onDev_lvIssue_reg h hx rfl),
      fun hf => ⟨(exec_vexp ..).trans (onDev_lvIssue_reg h hx hf), (exec_vlog ..).trans (onDev_lvIssue_reg h hx hf),
        (exec_vrcp ..).trans (onDev_lvIssue_reg h hx hf), (exec_vrsqrt ..).trans (onDev_lvIssue_reg h hx hf),
        (exec_vtanh ..).trans (onDev_lvIssue_reg h hx hf), (exec_vmaxr ..).trans (onDev_lvIssue_reg h hx hf),
        (exec_vsumr ..).trans (onDev_lvIssue_reg h hx hf), (exec_vsoftmax ..).trans (onDev_lvIssue_reg h hx hf)⟩,
      fun hvd hva hvb => ?masks⟩
    case vcvtI => simpa using hvl
    case vcvt =>
      have hf' : fpAtSew0 (tileIn s t) = false := hf
      simpa [hf'] using hvl
    case float =>
      have hf' : fpAtSew0 (tileIn s t) = false := hf
      by_cases h4 : fn = 4
      · simp [hf', h4, hz h4]
      · simp [hf', h4]
    case compare =>
      have hf' : 4 ≤ fn.val → fpAtSew0 (tileIn s t) = false := hf
      simpa [hvd] using hf'
    case masks =>
      have hm := badMasks_of_lt hvd hva hvb
      exact ⟨(exec_vmand ..).trans (onDev_lvIssue_reg h hx hm), (exec_vmor ..).trans (onDev_lvIssue_reg h hx hm),
        (exec_vmxor ..).trans (onDev_lvIssue_reg h hx hm), (exec_vmandn ..).trans (onDev_lvIssue_reg h hx hm)⟩
  case memory =>
    intro s t gu h x hspin hkeeps hroom hd q vd ra rb vm
    have hx : LvTakes (tileIn s t) := ⟨hspin, hkeeps, hroom⟩
    exact ⟨(exec_vld ..).trans (onDev_lvIssue_mem h hx rfl hd), (exec_vlds ..).trans (onDev_lvIssue_mem h hx rfl hd),
      (exec_vldx ..).trans (onDev_lvIssue_mem h hx rfl hd), (exec_vst ..).trans (onDev_lvIssue_mem h hx rfl hd),
      (exec_vsts ..).trans (onDev_lvIssue_mem h hx rfl hd), (exec_vstx ..).trans (onDev_lvIssue_mem h hx rfl hd),
      fun hvd => ⟨(exec_vlm ..).trans (onDev_lvIssue_mem h hx (decide_eq_false (Nat.not_le.mpr hvd)) hd),
        (exec_vsm ..).trans (onDev_lvIssue_mem h hx (decide_eq_false (Nat.not_le.mpr hvd)) hd)⟩,
      (exec_spload ..).trans (onDev_lvIssue_mem h hx rfl hd)⟩

end Sys2Proof.Machine.CoreLaws
end

section
/-! PROOFS. Control registers (R203, R209 to R212, R216, R241): what a read gives, what a write changes, and the window onto a
halted core. -/

namespace Sys2Proof.Machine.CoreLaws
open Sys2Proof

/-! ### Reading -/

section
variable {s : State} {t : TileId} {gu : Guard} (h : Issues s t gu 4) {idx : Fin 64} (hr : cregReserved idx = false) {r : RegNo}
include h hr

/-- A register user mode may not read raises PRIV (R203). -/
theorem execMfc_priv (hu : isUser (tileIn s t) = true) (hn : cregUserReads idx = false) :
    execMfc t gu r idx s = .next (putTile s t (enterException (tileIn s t) 2 0 0)) :=
  onDev_issue_exc (ill := fun _ _ => cregReserved idx) h hr (if_pos (by simp [hu, hn]))

/-- The tile as the read of a control register leaves it: the read of `mbox` clears its pending bit (R208). -/
def mfcTile (x : Tile) (idx : Fin 64) : Tile :=
  if idx = 15 then { x with core := { x.core with ipend := setBit x.core.ipend 1 false } } else x

theorem execMfc_reads (hm : isUser (tileIn s t) = false ∨ cregUserReads idx = true)
    (hv : idx = 34 → (tileIn s t).lvu.queue = []) :
    execMfc t gu r idx s =
      .next (putTile s t (advance (setG (mfcTile (tileIn s t) idx) r (readCreg s.dev t (tileIn s t) idx)) 4 1)) := by
  have hpriv : (isUser (tileIn s t) && !cregUserReads idx) = false := by
    rcases hm with hm | hm <;> simp [hm]
  have hwait : (idx == 34 && !lvIdle (tileIn s t)) = false := by
    by_cases he : idx = 34
    · simp [lvIdle, hv he]
    · simp [he]
  exact onDev_issue_done (ill := fun _ _ => cregReserved idx) h hr (by simp only [hpriv, hwait, Bool.false_eq_true, if_false]; rfl)

/-- A register user mode may not write raises PRIV (R203). -/
theorem execMtc_priv (hf : cregRefuses idx (getG (tileIn s t) r) = false) (hu : isUser (tileIn s t) = true)
    (hn : cregUserWrites idx = false) :
    execMtc t gu idx r s = .next (putTile s t (enterException (tileIn s t) 2 0 0)) :=
  onDev_issue_exc (ill := fun _ x => cregReserved idx || cregRefuses idx (getG x r)) h (by simp [hr, hf])
    (if_pos (by simp [hu, hn]))

/-- The tile as a write of a control register leaves it, its record folded (R659). -/
def mtcTile (s : Dev) (t : Nat) (x : Tile) (idx : Nat) (v : Word) : Tile := foldCore (writeCreg s t x idx v) 3 idx 0 v

theorem execMtc_writes (hf : cregRefuses idx (getG (tileIn s t) r) = false) (hu : isUser (tileIn s t) = false) :
    execMtc t gu idx r s =
      .next (putTile s t (advance (mtcTile s.dev t (tileIn s t) idx (getG (tileIn s t) r)) 4 1)) :=
  onDev_issue_done (ill := fun _ x => cregReserved idx || cregRefuses idx (getG x r)) h (by simp [hr, hf])
    (if_neg (by simp [hu]))
end

/-! ### Writing -/

section
variable (s : Dev) (t : Nat) (x : Tile) (v : Word)

/-- What of a tile a write of a control register is looked at for: the registers of the core that MTC reaches, and what no
control register is. -/
structure CregView where
  (epc evec mscratch0 ctx fcsr ien plo cause pc : Word)
  g : SMap Word
  p : BitVec 16
  spad : SMap Byte

def cregView (x : Tile) : CregView :=
  ⟨x.core.epc, x.core.evec, x.core.mscratch0, x.core.ctx, x.core.fcsr, x.core.ien, x.core.plo, x.core.cause, x.core.pc,
    x.core.g, x.core.p, x.spad⟩

/-- That view with the register of an index written (R209 to R212). -/
def cregWritten (x : Tile) (v : Word) (i : Fin 64) : CregView :=
  ⟨if i = 1 then v else x.core.epc, if i = 4 then setFld v 5 0 0 else x.core.evec, if i = 5 then v else x.core.mscratch0,
    if i = 7 then lowBits v 8 else x.core.ctx, if i = 8 then lowBits v 8 else x.core.fcsr,
    if i = 13 then lowBits v 3 else x.core.ien, if i = 24 then v else x.core.plo, x.core.cause, x.core.pc,
    x.core.g, x.core.p, x.spad⟩

/-- MTC writes the register of its index and leaves the others: the 64 indices in one comparison. -/
theorem cregView_writeCreg (i : Fin 64) : cregView (writeCreg s t x i v) = cregWritten x v i := by
  have hall : (List.finRange 64).map (fun i : Fin 64 => cregView (writeCreg s t x i v)) =
      (List.finRange 64).map (cregWritten x v) := rfl
  exact List.map_inj_left.mp hall i (List.mem_finRange i)

end

/-- The record of a write changes nothing of the view (R659). -/
theorem cregView_mtcTile (s : Dev) (t : Nat) (x : Tile) (i : Nat) (v : Word) :
    cregView (mtcTile s t x i v) = cregView (writeCreg s t x i v) := by
  rw [cregView, mtcTile, foldCore_core, foldCore_spad]
  rfl

/-- Tiles with the same registers read the same. -/
theorem getG_of_g {x y : Tile} (h : y.core.g = x.core.g) (r : Nat) : getG y r = getG x r := by simp only [getG, h]

/-- What a write of TCB_CREG_DATA does (R216). -/
theorem cregDataWrite_running (s : Dev) (t : Nat) {x : Tile} (v : Word) (h : x.core.halted = false) :
    cregDataWrite s t x v = accessErr x := if_pos (by simp [h])

theorem cregDataWrite_epc (s : Dev) (t : Nat) {x : Tile} (v : Word) (h : x.core.halted = true)
    (hsel : fld x.core.cregSel 6 0 = 1) : cregDataWrite s t x v = { x with core := { x.core with epc := v } } := by
  unfold cregDataWrite
  rw [h, hsel]
  rfl

theorem cregDataWrite_halt_ld0 (s : Dev) (t : Nat) {x : Tile} (v : Word) (h : x.core.halted = true)
    (hsel : fld x.core.cregSel 6 0 = 65) :
    cregDataWrite s t x v = { x with core := { x.core with halt := { x.core.halt with ld0 := v } } } := by
  unfold cregDataWrite
  rw [h, hsel]
  rfl

/-- Settles O12: a read writes gd with the register's value, a write changes the one register its index names. -/
theorem controlRegisterAccessCompletes : Obligations.ControlRegisterAccessCompletes := by
  unfold Obligations.ControlRegisterAccessCompletes
  intro s t gu x
  refine ⟨fun h idx r hr => ⟨fun hm h15 hv => ?read, fun hm => ?mailbox, fun hu hn => (exec_mfc ..).trans (execMfc_priv h hr hu hn),
    fun hf hu hn => (exec_mtc ..).trans (execMtc_priv h hr hf hu hn), fun hf hm => ?write⟩, fun v => ?window⟩
  case read =>
    have hx : mfcTile (tileIn s t) idx = tileIn s t := if_neg h15
    have hread := execMfc_reads h hr (r := r) hm hv
    rw [hx] at hread
    exact (exec_mfc ..).trans hread
  case mailbox =>
    refine completes_putTile ((exec_mfc ..).trans (execMfc_reads h (idx := 15) rfl (.inl hm) fun e => absurd e (by decide))) ?_
    rw [tileOf_putTile_same]
    refine ⟨fun hr0 => ?_, ?_, by simp [mfcTile, x], rfl⟩
    · rw [getG_advance, getG_setG, if_pos ⟨rfl, Fin.val_ne_zero_iff.mpr hr0⟩]
      rfl
    · show bit (setG _ r _).core.ipend 1 = false
      rw [setG_core]
      exact (bit_setBit _ 1 1 false (by decide)).trans (if_pos rfl)
  case write =>
    refine completes_putTile ((exec_mtc ..).trans (execMtc_writes h hr hf hm)) ?_
    have hview := (cregView_mtcTile s.dev t x idx (getG x r)).trans (cregView_writeCreg s.dev t x (getG x r) idx)
    rw [tileOf_putTile_same]
    exact ⟨congrArg CregView.epc hview, congrArg CregView.cause hview, congrArg CregView.evec hview,
      congrArg CregView.mscratch0 hview, congrArg CregView.ctx hview, congrArg CregView.fcsr hview,
      congrArg CregView.ien hview, congrArg CregView.plo hview, congrArg (fun w => w.pc + 4) hview,
      getG_of_g (congrArg CregView.g hview), congrArg CregView.p hview, congrArg CregView.spad hview, rfl⟩
  case window =>
    refine completes_putTile (y := cregDataWrite s.dev t (tileOf s.dev t) v) ((exec_cregDataWrite ..).trans rfl) ?_
    rw [tileOf_putTile_same]
    exact ⟨rfl, fun h => cregDataWrite_running _ _ _ h, fun h hsel => cregDataWrite_epc _ _ _ h hsel,
      fun h hsel => cregDataWrite_halt_ld0 _ _ _ h hsel⟩

end Sys2Proof.Machine.CoreLaws
end

section
/-! PROOFS. What acts on a core from outside (R206 to R208, R214 to R219): doorbell, interrupts, halt, resume, reset, and the
window onto the instruction store. -/

namespace Sys2Proof.Machine.CoreLaws
open Sys2Proof

/-! ### Halting -/

/-- A core that can issue is not halted and waits for nothing. -/
theorem running_of_canIssue {x : Tile} (h : canIssue x = true) : x.core.halted = false ∧ x.core.wait = .none := by
  simp only [canIssue, Bool.and_eq_true, Bool.not_eq_true', decide_eq_true_eq] at h
  exact ⟨h.1.1.2, h.1.2⟩

@[simp] theorem landDue_wait (x : Tile) : (landDue x).core.wait = x.core.wait := by rw [landDue_core]
@[simp] theorem landDue_stalled (x : Tile) : (landDue x).core.stalled = x.core.stalled := by rw [landDue_core]
@[simp] theorem landDue_halted (x : Tile) : (landDue x).core.halted = x.core.halted := by rw [landDue_core]

theorem fld_low17 (w : Word) : fld w 16 0 = w.toNat % 2 ^ 17 := rfl

/-- A halt of a core that neither waits nor stalls freezes what is in flight and names the pc (R206). -/
theorem haltCore_idle {x : Tile} (hw : x.core.wait = .none) (hs : x.core.stalled = false) :
    haltCore x = { landDue x with core := { (landDue x).core with
      run := false, halted := true, halt := freezeDelay (landDue x), loads := [], prod := none, pq := []
      corePc := BitVec.ofNat 64 (x.core.pc.toNat % 2 ^ 17) } } := by
  have hw' := (landDue_wait x).trans hw
  have hs' := (landDue_stalled x).trans hs
  rw [haltCore, fld_low17, ← landDue_pc x]
  generalize landDue x = y at hw' hs'
  rw [← hw', ← hs']

/-- The tile as a halt leaves it whatever it waited for: halted, and TCB_CORE_PC names the pc (R206). -/
theorem haltCore_corePc (x : Tile) : (haltCore x).core.corePc = BitVec.ofNat 64 (x.core.pc.toNat % 2 ^ 17) := by
  rw [← landDue_pc]
  rfl

theorem ne_reset_of_not_halted {x : Tile} (h : x.core.halted = false) : x ≠ Tile.reset := by
  rintro rfl
  cases h

/-- A core whose RUN was cleared halts as soon as it neither waits nor stalls (R215). -/
theorem settle_setTile (s : Dev) (t : Nat) {x : Tile} (hr : x.core.run = false) (hh : x.core.halted = false)
    (hw : x.core.wait = .none) (hs : x.core.stalled = false) : settle (setTile s t x) t = setTile s t (haltCore x) := by
  unfold settle
  rw [tileOf_setTile_same]
  simp only [hr, hh, hw, hs, Bool.not_false, decide_true, Bool.and_self, if_true]
  exact setTile_setTile s t _ (ne_reset_of_not_halted hh)

/-- An instruction that stalled advances, its guard true or false, when its work is none; then the core halts (R206). -/
theorem execNop_stopped {s : State} {t : TileId} {gu : Guard} (h1 : s.dev.hold = false) (h2 : canIssue (tileOf s.dev t) = true)
    (hr : (tileOf s.dev t).core.run = false) (hf : fetchFault (landDue (tileOf s.dev t)) 4 false = none) :
    execNop t gu s = .next (putTile s t (haltCore (advance (tileIn s t) 4 1))) := by
  obtain ⟨hh, hw⟩ := running_of_canIssue h2
  have hs : settle (setTile s.dev t (advance (tileIn s t) 4 1)) t = setTile s.dev t (haltCore (advance (tileIn s t) 4 1)) :=
    settle_setTile _ _ ((landDue_run _).trans hr) ((landDue_halted _).trans hh) ((landDue_wait _).trans hw) rfl
  rw [putTile, ← hs, execNop, onDev_eq, issueT]
  cases hg : guardOf (landDue (tileOf s.dev t)) gu with
  | false => simp [issue, h1, h2, hr, hf, hg, tileIn]
  | true => rw [issue_stopped h1 h2 hf hg hr]; rfl

/-- A halt at a slot boundary (R206). -/
theorem completes_coreHalt {s : State} {t : TileId} (hh : (tileOf s.dev t).core.halted = false)
    (hw : (tileOf s.dev t).core.wait = .none) (hs : (tileOf s.dev t).core.stalled = false) :
    Completes (.coreHalt t) s (fun u => tileOf u.dev t = haltCore (tileOf s.dev t) ∧
      ∀ q : TileId, q ≠ t → tileOf u.dev q = tileOf s.dev q) := by
  have hx : { tileOf s.dev t with core := { (tileOf s.dev t).core with wait := .none } } = tileOf s.dev t := by rw [← hw]
  have hexec : execCoreHalt t s = .next (withDev s (setTile (abandonWaits s.dev t) t (haltCore (tileOf s.dev t)))) := by
    have hb : (waitAbandonable (tileOf s.dev t).core.wait && !(tileOf s.dev t).core.stalled) = true := by
      simp [hw, hs, waitAbandonable]
    rw [execCoreHalt, onDev_eq, haltTile, if_neg (by simp [hh]), if_pos hb, hx]
  refine completes_onDev ((exec_coreHalt ..).trans hexec) ⟨tileOf_setTile_same .., fun q hq => ?_⟩
  rw [withDev_dev, tileOf_setTile_other _ _ fun e => hq (Fin.ext e)]
  exact tileOf_of_tiles (tiles_abandonWaits ..) _

/-- A core that stalls or waits for data goes on until its instruction has issued: only RUN is cleared (R206). -/
theorem execCoreHalt_pending {s : State} {t : TileId} (hh : (tileOf s.dev t).core.halted = false)
    (hp : (tileOf s.dev t).core.stalled = true ∨ ∃ l, (tileOf s.dev t).core.wait = .load l) :
    execCoreHalt t s = .next (putTile s t { tileOf s.dev t with core := { (tileOf s.dev t).core with run := false } }) := by
  have hb : (waitAbandonable (tileOf s.dev t).core.wait && !(tileOf s.dev t).core.stalled) = false := by
    rcases hp with hp | ⟨l, hp⟩ <;> simp [hp, waitAbandonable]
  rw [execCoreHalt, onDev_eq, haltTile, if_neg (by simp [hh]), if_neg (by simp [hb])]
  rfl

/-! ### Core reset -/

@[simp] theorem spadPut_lvu (x : Tile) (o : Nat) (bs : List Byte) : (spadPut x o bs).lvu = x.lvu := by
  unfold spadPut
  dsimp only
  split <;> rfl

@[simp] theorem istFill_lvu (x : Tile) (o : Nat) (bs : List Byte) : (istFill x o bs).lvu = x.lvu := by
  unfold istFill
  exact foldl_keeps (f := Tile.lvu) (g := fun y k => istWrite y (o + 8 * k) 8 (leNat ((bs.drop (8 * k)).take 8)))
    (fun _ _ => rfl) _ _

/-- Spoiling what a block in flight would have written touches no tile's long-vector unit (R411). -/
theorem lvu_spoilPiece (s : Dev) (g : Target) (n t : Nat) : (tileOf (spoilPiece s g n) t).lvu = (tileOf s t).lvu := by
  have hfree : tileOf (freeBytes s n).1 t = tileOf s t := freeBytes_keeps (f := (tileOf · t)) (fun _ => rfl) s n
  have hmod (u : Nat) (f : Tile → Tile) (hf : ∀ x, (f x).lvu = x.lvu) :
      (tileOf (modTile (freeBytes s n).1 u f) t).lvu = (tileOf s t).lvu := by
    by_cases h : t = u
    · rw [← h, tileOf_modTile_same, hf, hfree]
    · rw [tileOf_modTile_other _ _ h, hfree]
  cases g with
  | scratch tt o =>
    show (tileOf (if transferMay (tileOf s tt) o && !drawerBusy (tileOf s tt) o then
      modTile (freeBytes s n).1 tt (fun x => spadPut x o (freeBytes s n).2) else s) t).lvu = _
    split
    · exact hmod _ _ fun x => spadPut_lvu ..
    · rfl
  | stacked a =>
    show (tileOf (stackPut (freeBytes s n).1 a (freeBytes s n).2) t).lvu = _
    rw [stackPut_eq, ← hfree]
    rfl
  | istore tt o => exact hmod tt _ fun x => istFill_lvu x o _
  | _ => rfl

theorem lvu_spoilBlocks (s : Dev) (l : List TeBlk) (t : Nat) : (tileOf (spoilBlocks s l) t).lvu = (tileOf s t).lvu := by
  refine foldl_keeps (f := fun s => (tileOf s t).lvu) (fun s k => ?_) _ _
  exact foldl_keeps (f := fun s => (tileOf s t).lvu) (fun s (q : Target × Nat × Nat) => lvu_spoilPiece s q.1 q.2.2 t) _ _

/-- Blocks that have not asked for their bytes spoil none. -/
theorem spoilBlocks_not_asked (s : Dev) {l : List TeBlk} (h : ∀ k ∈ l, k.asked = false) : spoilBlocks s l = s := by
  have hf : l.filter (·.asked) = [] := List.filter_eq_nil_iff.mpr fun k hk => by simp [h k hk]
  rw [spoilBlocks, hf]
  rfl

/-- The part as the spoilt blocks of a tile's channels leave it when the tile is reset (R411). -/
def channelsSpoilt (s : Dev) (t : Nat) : Dev := (tileOf s t).te.foldl (fun s e => spoilBlocks s e.2.blks) (abandonWaits s t)

theorem lvu_channelsSpoilt (s : Dev) (t : Nat) : (tileOf (channelsSpoilt s t) t).lvu = (tileOf s t).lvu := by
  have h := foldl_keeps (f := fun s => (tileOf s t).lvu) (fun s (e : Nat × TeChan) => lvu_spoilBlocks s e.2.blks t)
    (tileOf s t).te (abandonWaits s t)
  rw [channelsSpoilt, h, tileOf_of_tiles (tiles_abandonWaits s t)]

theorem channelsSpoilt_not_asked {s : Dev} {t : Nat} (h : ∀ e ∈ (tileOf s t).te, ∀ k ∈ e.2.blks, k.asked = false) :
    channelsSpoilt s t = abandonWaits s t := by
  have hfold : ∀ (l : List (Nat × TeChan)) (u : Dev), (∀ e ∈ l, ∀ k ∈ e.2.blks, k.asked = false) →
      l.foldl (fun s e => spoilBlocks s e.2.blks) u = u := by
    intro l
    induction l with
    | nil => exact fun _ _ => rfl
    | cons e r ih =>
      intro u hl
      rw [List.foldl_cons, spoilBlocks_not_asked u (hl e List.mem_cons_self)]
      exact ih u fun e he => hl e (List.mem_cons_of_mem _ he)
  exact hfold _ _ h

theorem tileOf_resetTile_same (s : Dev) (t : Nat) : tileOf (resetTile s t) t = coreReset (tileOf (channelsSpoilt s t) t) :=
  tileOf_modTile_same ..

theorem tileOf_resetTile_other (s : Dev) {t q : Nat} (h : q ≠ t) : tileOf (resetTile s t) q = tileOf (channelsSpoilt s t) q :=
  tileOf_modTile_other _ _ h

/-! ### The instruction-store window -/

theorem istWrite_bytes (x : Tile) (a n v : Nat) : mbytes 0 (istWrite x a n v).istore a n = leBytes n v := by
  have h := mbytes_mwrite 0 x.istore a (leBytes n v)
  rwa [leBytes_length] at h

theorem istWrite_other (x : Tile) {a n b : Nat} (v : Nat) (h : b < a ∨ a + n ≤ b) :
    mget 0 (istWrite x a n v).istore b = mget 0 x.istore b := by
  show mget 0 (mwrite 0 x.istore a (leBytes n v)) b = _
  rw [mget_mwrite, dif_neg (by rw [leBytes_length]; omega)]

theorem execIstoreWinWrite_aligned (s : State) (t : TileId) (off : Fin 4096) (size : Fin 9) (v : Word)
    (hn : size.val = 4 ∨ size.val = 8) (ha : off.val % size.val = 0) :
    execIstoreWinWrite t off size v s = .next (putTile s t (istWrite (tileOf s.dev t)
      ((tileOf s.dev t).core.istorePage * 0x1000 + off) size v.toNat)) := by
  rw [execIstoreWinWrite, onDev_eq, istWindow, if_pos ⟨hn.symm, ha⟩]
  rfl

/-- Settles O13: each act of the control block on its tile. -/
theorem coreControlCompletes : Obligations.CoreControlCompletes := by
  unfold Obligations.CoreControlCompletes
  intro s t y
  refine ⟨fun msg => rfl, rfl, fun hd => ?timer, fun hh hw hs => ?halt, fun hh hp => (exec_coreHalt ..).trans (execCoreHalt_pending hh hp),
    fun gu h1 h2 hr hf => ?stopped, fun hh => ?resume, fun hh => ?run, ?reset, fun off size v hn ha => ?window⟩
  case timer =>
    rw [exec_timerInterruptPending, execTimerInterruptPending, onDev_eq]
    have hdue : timerDue s.dev t (tileOf s.dev t) = true := decide_eq_true hd
    exact congrArg (fun d => Host.Outcome.next (withDev s d)) (if_pos hdue)
  case halt =>
    obtain ⟨u, hu, hx, hframe⟩ := completes_coreHalt hh hw hs
    exact ⟨u, hu, hx.trans (haltCore_idle hw hs), hframe⟩
  case stopped =>
    refine completes_putTile ((exec_nop ..).trans (execNop_stopped h1 h2 hr hf)) ?_
    rw [tileOf_putTile_same]
    refine ⟨rfl, rfl, (haltCore_corePc _).trans ?_, rfl⟩
    rw [advance_pc, tileIn, landDue_pc]
    rfl
  case resume =>
    rw [exec_coreResume, execCoreResume, onDev_eq]
    have hhalted : (tileOf s.dev t).core.halted = true := hh
    rw [modTile, if_pos hhalted]
    rfl
  case run =>
    rw [exec_coreResume, execCoreResume, onDev_eq]
    have hrunning : (tileOf s.dev t).core.halted = false := hh
    rw [modTile, if_neg (ne_true_of_eq_false hrunning)]
    rfl
  case reset =>
    refine completes_onDev ((exec_coreSreset ..).trans (onDev_eq ..)) ?_
    rw [withDev_dev, tileOf_resetTile_same]
    refine ⟨rfl, rfl, rfl, ?_, fun hk => ?_⟩
    · exact congrArg (fun l : LvuSt => { LvuSt.reset with nlvl := l.nlvl }) (lvu_channelsSpoilt s.dev t)
    · have htiles := tiles_abandonWaits s.dev t
      rw [channelsSpoilt_not_asked hk, tileOf_of_tiles htiles]
      refine ⟨rfl, fun q hq => ?_⟩
      rw [tileOf_resetTile_other _ fun e => hq (Fin.ext e), channelsSpoilt_not_asked hk, tileOf_of_tiles htiles]
  case window =>
    refine completes_putTile ((exec_istoreWinWrite ..).trans (execIstoreWinWrite_aligned s t off size v hn ha)) ?_
    rw [tileOf_putTile_same]
    exact ⟨istWrite_bytes .., fun a h => istWrite_other _ _ h, rfl, rfl, rfl⟩

end Sys2Proof.Machine.CoreLaws
end

section
/-! PROOFS. What happens behind the core (R182, R186, R188, R195, R382): stores that drain, loads that land or return, store
acknowledgements, fetch words. -/

namespace Sys2Proof.Machine.CoreLaws
open Sys2Proof

/-! ### Draining -/

/-- With nothing injected a merge finds no error (R352). -/
theorem mergeTouch_none {s : Dev} {t : Nat} (off n : Nat) (h : (tileOf s t).inject = []) : mergeTouch s t off n = s := by
  rw [mergeTouch, spadTouch_none h, ite_self]

@[simp] theorem spadPut_core (x : Tile) (off : Nat) (bs : List Byte) : (spadPut x off bs).core = x.core := by
  unfold spadPut
  dsimp only
  split <;> rfl

/-- The tile with the entries of its store buffer replaced. -/
def withSb (x : Tile) (r : List SbEntry) : Tile := { x with core := { x.core with sb := r } }

/-- The oldest entry, one of the tile's own scratchpad, drains into its bytes (R195). -/
theorem execStoreBufferDrain_own {s : State} {t : TileId} {off n : Nat} {v : Word} {r : List SbEntry}
    (hsb : (tileOf s.dev t).core.sb = ⟨.scratch t off, n, v⟩ :: r) (hi : (tileOf s.dev t).inject = []) :
    execStoreBufferDrain t s = .next (withDev s (modTile (setTile s.dev t (withSb (tileOf s.dev t) r)) t
      (fun x => spadPut x off (leBytes n v.toNat)))) := by
  have hdrain : drainEntry (modTile s.dev t (fun x => withSb x r)) t ⟨.scratch t off, n, v⟩ =
      modTile (setTile s.dev t (withSb (tileOf s.dev t) r)) t (fun x => spadPut x off (leBytes n v.toNat)) := by
    have htouch : mergeTouch (setTile s.dev t (withSb (tileOf s.dev t) r)) t off n =
        setTile s.dev t (withSb (tileOf s.dev t) r) := mergeTouch_none off n (by rw [tileOf_setTile_same]; exact hi)
    unfold drainEntry
    simp only [if_true, modTile, htouch]
  have hpwr : (drainEntry (modTile s.dev t (fun x => withSb x r)) t ⟨.scratch t off, n, v⟩).pwr = s.dev.pwr := by
    rw [hdrain]
    rfl
  rw [execStoreBufferDrain, onDev_eq, hsb]
  exact congrArg (fun d => Host.Outcome.next (withDev s d)) ((nxp_of_pwr_eq hpwr).trans hdrain)

/-! ### Loads -/

theorem getG_landDue (x : Tile) (r : Nat) : getG (landDue x) r = getG (landLoads x.core.loads x.core.slot x) r :=
  getG_of_g (by rw [landDue_core]) r

/-- Passing the bubbles up to the slot of the one load in flight lands it (R186; log entry 12). -/
theorem getG_passTo {x : Tile} {l : PendLoad} (hl : x.core.loads = [l]) (h : x.core.slot ≤ l.due) (q : Nat) :
    getG (passTo x l.due) q = if q = l.dst ∧ l.dst ≠ 0 then l.val else getG x q := by
  have hdue : l.due ≤ (passSlots x.core (l.due - x.core.slot)).slot := (Nat.add_sub_of_le h).ge
  have hloads : (passSlots x.core (l.due - x.core.slot)).loads = [l] := hl
  rw [passTo, getG_landDue, hloads, landLoads, landLoads, if_pos hdue, getG_setG]
  rfl

theorem passTo_loads {x : Tile} {l : PendLoad} (hl : x.core.loads = [l]) (h : x.core.slot ≤ l.due) :
    (passTo x l.due).core.loads = [] := by
  have hdue : ¬(x.core.slot + (l.due - x.core.slot) < l.due) := by omega
  rw [passTo, landDue_core]
  simp [passSlots, hl, hdue]

theorem execLoadLands_of_load {s : State} {t : TileId} {l : PendLoad} {r : List PendLoad}
    (hc : canIssue (tileOf s.dev t) = true) (hl : (tileOf s.dev t).core.loads = l :: r) :
    execLoadLands t s = .next (putTile s t (passTo (tileOf s.dev t) l.due)) := by
  simp only [execLoadLands, onDev_eq, hl, hc, if_true]
  rfl

/-! ### Data from host memory -/

/-- The cycles a wait has lasted enter two counters and nothing else of the tile. -/
def waited (s : Dev) (x : Tile) : Tile := { x with core := { x.core with
  cycle := countUp x.core.cycle (Config.freeCycles s.freeCtr)
  stallOther := incFld x.core.stallOther 63 32 (Config.freeCycles s.freeCtr) } }

theorem countWait_eq (s : Dev) (t : Nat) : countWait s t = setTile (drawFree s) t (waited s (tileOf s t)) := rfl

/-- The tile as a scalar load that waited leaves it: the data in flight to its register, the core past the load (R186, R188). -/
def loadReturned (x : Tile) (op rd size : Nat) (bs : List Byte) : Tile :=
  advance (pendLoad { x with core := { x.core with wait := .none } } rd (loadExt op (leNat bs))) size 1

/-- A core that runs goes on. -/
theorem settle_running {s : Dev} {t : Nat} (h : (tileOf s t).core.run = true) : settle s t = s := by simp [settle, h]

/-- A core that runs does not halt when its load arrives. -/
theorem loadArrives_scalar (s : Dev) (t : Nat) {l : RemoteLoad} (bs : List Byte) (hop : l.op < 7)
    (hr : (tileOf s t).core.run = true) :
    loadArrives s t l bs = setTile s t (loadReturned (tileOf s t) l.op l.rd l.size bs) := by
  have hsettle : loadArrives s t l bs = settle (setTile s t (loadReturned (tileOf s t) l.op l.rd l.size bs)) t := by
    have hall : (List.finRange 7).map (fun op : Fin 7 => loadArrives s t { l with op := op } bs) = (List.finRange 7).map
        (fun op : Fin 7 => settle (setTile s t (loadReturned (tileOf s t) op l.rd l.size bs)) t) := rfl
    exact List.map_inj_left.mp hall ⟨l.op, hop⟩ (List.mem_finRange _)
  rw [hsettle]
  exact settle_running (by rw [tileOf_setTile_same]; exact hr)

/-- No target refuses a load of host memory, or lets it wait, before the link has answered. -/
theorem judgeLoad_host_part (s : Dev) (ti : TileId) (ext : LoadAns) (a va n : Nat) :
    judgeLoad s ti ext [(.host a, va, n)] = judgeParts s ti ext 0 [(.host a, va, n)] := rfl

section
variable {s s1 : Dev} {ti : TileId} {ext : LoadAns} {p : Target × Nat × Nat} (k : Nat)

theorem judgeParts_got {v : List Byte} (h : judgePart s ti ext p = .got s1 v) :
    judgeParts s ti ext k [p] = (.got s1 v, k + 1, 0) := by
  dsimp only [judgeParts]
  rw [h]
  dsimp only
  rw [List.append_nil]

theorem judgeParts_bad {code : Nat} (h : judgePart s ti ext p = .bad s1 code) :
    judgeParts s ti ext k [p] = (.bad s1 code, k, p.2.1) := by
  dsimp only [judgeParts]
  rw [h]
end

/-- The one part of a load of host memory is judged by what the link answers, where the port has no cache (R188). -/
theorem judgeLoad_host (s : Dev) (ti : TileId) (a va : Nat) (v : List Byte) (hc : (hportOf s (tilePort s ti)).cache = false) :
    judgeLoad s ti (.data v) [(.host a, va, v.length)] = (.got s v, 1, 0) := by
  have hpart : judgePart s ti (.data v) (.host a, va, v.length) = .got s v := by
    unfold judgePart
    dsimp only
    rw [hc]
    exact if_pos rfl
  exact (judgeLoad_host_part ..).trans (judgeParts_got 0 hpart)

theorem loadReturn_host {s : Dev} {t : TileId} {op rd a va size id : Nat} {v : List Byte} (hop : op < 7)
    (hr : (tileOf s t).core.run = true) (hw : (tileOf s t).core.wait = .load ⟨op, rd, [(.host a, va, v.length)], size, id⟩)
    (hc : (hportOf s (tilePort s t)).cache = false) :
    loadReturn s t (.data v) = setTile (countWait s t) t (loadReturned (waited s (tileOf s t)) op rd size v) := by
  have hx : tileOf (countWait s t) t = waited s (tileOf s t) := tileOf_setTile_same ..
  have harr := loadArrives_scalar (countWait s t) t (l := ⟨op, rd, [(.host a, va, v.length)], size, id⟩) v hop
    (by rw [hx]; exact hr)
  rw [hx] at harr
  unfold loadReturn
  rw [hw]
  dsimp only
  rw [judgeLoad_host s t a va v hc, if_neg (by omega)]
  exact harr

/-! ### Fetch words -/

theorem execPrefetchFetch_good {s : State} {t : TileId} (hr : (tileOf s.dev t).core.run = true)
    (hh : (tileOf s.dev t).core.halted = false) (hq : (tileOf s.dev t).core.pq.length < 4)
    (ha : (tileOf s.dev t).core.fetchPc < 0x20000) (hi : (tileOf s.dev t).inject = [])
    (hp : mget false (tileOf s.dev t).istPoison ((tileOf s.dev t).core.fetchPc / 8) = false) :
    execPrefetchFetch t 0 s = .next (putTile s t { tileOf s.dev t with core := { (tileOf s.dev t).core with
      pq := (tileOf s.dev t).core.pq ++ [((tileOf s.dev t).core.fetchPc,
        BitVec.ofNat 64 (leNat (mbytes 0 (tileOf s.dev t).istore (tileOf s.dev t).core.fetchPc 8)), 0)]
      fetchPc := (tileOf s.dev t).core.fetchPc + 8 } }) := by
  have hgo : ((tileOf s.dev t).core.run && !(tileOf s.dev t).core.halted && decide ((tileOf s.dev t).core.pq.length < 4) &&
      decide ((tileOf s.dev t).core.fetchPc < 0x20000)) = true := by simp [hr, hh, hq, ha]
  rw [execPrefetchFetch, onDev_eq]
  dsimp only
  rw [if_pos hgo]
  simp only [hi, istBad, hp]
  rfl

/-- Settles O15: the drain, the landing, the return, the acknowledgement and the fetch, each by what its command does. -/
theorem coreBackgroundCompletes : Obligations.CoreBackgroundCompletes := by
  unfold Obligations.CoreBackgroundCompletes
  intro s t x
  refine ⟨fun off n v r hsb hi => ?drain, fun l hc hl hle hd => ?lands, fun op rd a va size id v hop hr hw hc => ?returns,
    fun a n v r hu hp => ?acked, fun hr hh hq ha hi hp => (exec_prefetchFetch ..).trans (execPrefetchFetch_good hr hh hq ha hi hp)⟩
  case drain =>
    refine completes_onDev ((exec_storeBufferDrain ..).trans (execStoreBufferDrain_own hsb hi)) ?_
    have hbytes := spadGet_spadPut (withSb x r) off (leBytes n v.toNat)
    have hother (a : Nat) := spadPut_other (withSb x r) off (leBytes n v.toNat) (a := a)
    rw [leBytes_length] at hbytes hother
    rw [withDev_dev, tileOf_modTile_same, tileOf_setTile_same]
    refine ⟨hbytes, fun a ha => hother a ha, spadPut_core .., fun q hq => ?_⟩
    have hne : q.val ≠ t.val := fun e => hq (Fin.ext e)
    rw [tileOf_modTile_other _ _ hne, tileOf_setTile_other _ _ hne]
  case lands =>
    refine completes_putTile ((exec_loadLands ..).trans (execLoadLands_of_load hc hl)) ?_
    rw [tileOf_putTile_same]
    refine ⟨?_, fun q hq => ?_, passTo_loads hl hle, passTo_slot _ hle, passTo_pc .., rfl⟩
    · rw [getG_passTo hl hle, if_pos ⟨rfl, hd⟩]
    · rw [getG_passTo hl hle, if_neg (fun h => hq h.1)]
  case returns =>
    refine completes_onDev ((exec_loadDataReturn ..).trans (onDev_eq ..)) ?_
    rw [withDev_dev, loadReturn_host hop hr hw hc, tileOf_setTile_same]
    exact ⟨rfl, rfl, rfl, fun _ => rfl, rfl⟩
  case acked =>
    have hhead : (tileOf s.dev t).core.unacked = ⟨.host a, n, v⟩ :: r := hu
    have hdone : ((tileOf s.dev t).core.unacked.head?.all (performed s.dev t)) = true := by simp [hhead, performed, hp]
    rw [exec_remoteStoreAck, execRemoteStoreAck, onDev_eq, if_neg (by simp only [hdone]; decide), modTile, hhead]
    rfl

end Sys2Proof.Machine.CoreLaws
end

section
/-! PROOFS. Scalar and short-vector accesses of the tile's own scratchpad in monitor mode (R186, R193 to R195, R236, R247, R248):
the pieces of an access pass their checks, a load reads its bytes, a store enters its buffer. -/

namespace Sys2Proof.Machine.CoreLaws
open Sys2Proof

/-! ### Ranges -/

/-- A run of bytes is its two parts one after the other. -/
theorem mbytes_add (d : BitVec 8) (m : SMap (BitVec 8)) (a k j : Nat) :
    mbytes d m a (k + j) = mbytes d m a k ++ mbytes d m (a + k) j := by
  induction k generalizing a with
  | zero => simp [mbytes]
  | succ k ih =>
    rw [Nat.succ_add, mbytes, mbytes, ih, List.cons_append, Nat.add_assoc, Nat.add_comm 1 k]

/-- The words a range touches are those between its ends. -/
theorem mem_wordsOf {off n w : Nat} : w ∈ wordsOf off n ↔ off / 64 ≤ w ∧ w < (off + n + 63) / 64 := by
  simp only [wordsOf, List.mem_map, List.mem_range]
  generalize off / 64 = a, (off + n + 63) / 64 = b
  constructor
  · rintro ⟨k, hk, rfl⟩
    exact ⟨Nat.le_add_left .., Nat.add_lt_of_lt_sub hk⟩
  · intro h
    exact ⟨w - a, Nat.sub_lt_sub_right h.1 h.2, Nat.sub_add_cancel h.1⟩

/-- A range inside one that touches no poison touches none. -/
theorem spadPoisoned_inside {x : Tile} {off n off' n' : Nat} (hlo : off ≤ off') (hhi : off' + n' ≤ off + n)
    (h : spadPoisoned x off n = false) : spadPoisoned x off' n' = false := by
  unfold spadPoisoned at h ⊢
  by_cases hn : n' = 0
  · simp [hn]
  · have hpos : n ≠ 0 := by omega
    simp only [bne_iff_ne.mpr hpos, Bool.true_and, List.any_eq_false] at h
    simp only [bne_iff_ne.mpr hn, Bool.true_and, List.any_eq_false]
    intro w hw
    rw [mem_wordsOf] at hw
    exact h w (mem_wordsOf.mpr ⟨(Nat.div_le_div_right hlo).trans hw.1,
      hw.2.trans_le (Nat.div_le_div_right (Nat.add_le_add_right hhi 63))⟩)

theorem sbOverlaps_inside {t off n off' n' : Nat} (hlo : off ≤ off') (hhi : off' + n' ≤ off + n) {e : SbEntry}
    (h : sbOverlaps t off n e = false) : sbOverlaps t off' n' e = false := by
  unfold sbOverlaps at h ⊢
  split
  · rename_i tt o ht
    simp only [ht, Bool.and_eq_false_iff, decide_eq_false_iff_not] at h ⊢
    rcases h with (h | h) | h
    · exact .inl (.inl h)
    · exact .inl (.inr (by omega))
    · exact .inr (by omega)
  · rfl

/-! ### The pieces of an access -/

/-- One piece of an access of the tile's own scratchpad: offset and bytes. -/
abbrev OwnPiece := Nat × Nat

/-- The pieces by the addresses the program used. -/
def ownPieces (t : TileId) (l : List OwnPiece) : List (Nat × Nat) := l.map (fun p => ((ownAddr t p.1).toNat, p.2))

/-- The pieces with the targets they lead to. -/
def ownParts (t : TileId) (l : List OwnPiece) : List (Target × Nat × Nat) :=
  l.map (fun p => (.scratch t p.1, (ownAddr t p.1).toNat, p.2))

/-- An access of `n` bytes in its pieces: two where it crosses an 8-byte boundary (R193). -/
def ownSplit (off n : Nat) : List OwnPiece :=
  if n ≤ 8 - off % 8 then [(off, n)] else [(off, 8 - off % 8), (off + (8 - off % 8), n - (8 - off % 8))]

/-- Every piece lies in a range, and none is empty. -/
def InRange (off n : Nat) (l : List OwnPiece) : Prop := ∀ p ∈ l, 0 < p.2 ∧ off ≤ p.1 ∧ p.1 + p.2 ≤ off + n

theorem ownSplit_inRange {off n : Nat} (hn : 0 < n) : InRange off n (ownSplit off n) := by
  unfold ownSplit InRange
  split
  · simp [hn]
  · rename_i h
    have hlt : 8 - off % 8 < n := Nat.lt_of_not_le h
    have hk : 0 < 8 - off % 8 := Nat.sub_pos_of_lt (Nat.mod_lt off (by decide))
    simp only [List.mem_cons, List.not_mem_nil, or_false, forall_eq_or_imp, forall_eq]
    exact ⟨⟨hk, le_refl _, Nat.add_le_add_left hlt.le _⟩, Nat.sub_pos_of_lt hlt, Nat.le_add_right .., by
      rw [Nat.add_assoc, Nat.add_sub_of_le hlt.le]⟩

theorem splitAccess_own (t : TileId) {off n : Nat} (h : off + n ≤ 0x300000) :
    splitAccess (ownAddr t off).toNat n = ownPieces t (ownSplit off n) := by
  have hmod : (ownAddr t off).toNat % 8 = off % 8 := ownAddr_mod8 t (by omega)
  have hone : off % 8 + n ≤ 8 ↔ n ≤ 8 - off % 8 := (Nat.le_sub_iff_add_le' (Nat.mod_lt off (by decide)).le).symm
  have hk : off + (8 - off % 8) < 0x400000 :=
    Nat.lt_of_le_of_lt (Nat.add_le_add (Nat.le_of_add_right_le h) (Nat.sub_le ..)) (by decide)
  have hnext : (ownAddr t off).toNat + (8 - off % 8) = (ownAddr t (off + (8 - off % 8))).toNat := by
    rw [ownAddr_toNat t (Nat.lt_of_le_of_lt (Nat.le_add_right ..) hk), ownAddr_toNat t hk, Nat.add_assoc]
  unfold splitAccess ownSplit
  rw [hmod, hnext, Nat.mod_eq_of_lt (BitVec.isLt _), if_congr hone rfl rfl]
  split
  · rfl
  · rfl

/-! ### The checks -/

section
variable {s : Dev} {t : TileId} {x : Tile} {off n : Nat} (hx : ownBytes x off n)
include hx

theorem coreTarget_own (wr : Bool) {p : OwnPiece} (hp : 0 < p.2 ∧ off ≤ p.1 ∧ p.1 + p.2 ≤ off + n) :
    coreTarget (setTile s t x) t wr (ownAddr t p.1).toNat p.2 = (setTile s t x, .ok (.scratch t p.1)) := by
  obtain ⟨hu, hm, hend, -⟩ := hx
  have hpop : populated (p.1 + p.2 - 1) = true := by simp only [populated, decide_eq_true_eq]; omega
  have hsame : samePart (setTile s t x) t t = true := by
    rw [samePart, tileOf_setTile_same, bne_iff_ne.mpr hm, beq_self_eq_true]
    rfl
  have htarget : monitorTarget (setTile s t x) t (ownAddr t p.1).toNat p.2 wr = some (.scratch t p.1) := by
    unfold monitorTarget
    rw [ownAddr_toNat t (by omega), devDecode_own t (by omega)]
    dsimp only
    rw [hsame, hpop]
    rfl
  unfold coreTarget
  dsimp only
  rw [tileOf_setTile_same, hu, htarget]
  rfl

theorem drawerSays_own (wr : Bool) {a : Nat} (hlo : off ≤ a) (hhi : a < off + n) :
    drawerSays (setTile s t x) t wr (.scratch t a) = 0 := by
  obtain ⟨hu, -, -, hd⟩ := hx
  obtain ⟨hbusy, hown⟩ := hd a hlo hhi
  simp [drawerSays, hbusy, portMay, hu, hown]

variable {l : List OwnPiece} (hl : InRange off n l)
include hl

/-- The pieces lead to the scratchpad. -/
theorem targetsOf_own (wr : Bool) : targetsOf (setTile s t x) t wr (ownPieces t l) =
    (setTile s t x, l.map (fun p => ((ownAddr t p.1).toNat, p.2, .ok (.scratch t p.1)))) := by
  induction l with
  | nil => rfl
  | cons p r ih =>
    have hp := coreTarget_own (s := s) (t := t) hx wr (hl p List.mem_cons_self)
    have hr := ih fun q hq => hl q (List.mem_cons_of_mem _ hq)
    unfold ownPieces at hr ⊢
    rw [List.map_cons, targetsOf]
    simp only [hp, hr]
    simp

end

theorem firstPiece_none {l : List (Nat × Nat × TRes)} {f : Nat × Nat × TRes → Bool} (h : ∀ p ∈ l, f p = false) :
    firstPiece l f = none := by
  unfold firstPiece
  rw [List.find?_eq_none.mpr, Option.map_none]
  rintro ⟨p, i⟩ hp
  simp [h p (List.fst_mem_of_mem_zipIdx hp)]

section
variable {s : Dev} {t : TileId} {x : Tile} {off n : Nat} (hx : ownBytes x off n) {l : List OwnPiece} (hl : InRange off n l)
include hx hl

/-- An access of bytes the scalar port may reach passes its checks and leaves the state as it is (R194, R354, R363). -/
theorem checkParts_ownPieces (wr : Bool) (v : Nat) :
    checkParts (setTile s t x) t wr v (ownPieces t l) = .ok (setTile s t x) (ownParts t l) := by
  have hsays : ∀ p ∈ l, drawerSays (setTile s t x) t wr (.scratch t p.1) = 0 := fun p hp =>
    drawerSays_own hx wr (hl p hp).2.1 (by have := hl p hp; omega)
  have hall {f : Nat × Nat × TRes → Bool} (h : ∀ p ∈ l, f ((ownAddr t p.1).toNat, p.2, .ok (.scratch t p.1)) = false) :
      ∀ q ∈ l.map (fun p => ((ownAddr t p.1).toNat, p.2, TRes.ok (.scratch t p.1))), f q = false := by
    intro q hq
    obtain ⟨p, hp, rfl⟩ := List.mem_map.mp hq
    exact h p hp
  have hfirst {f : Nat × Nat × TRes → Bool} (h : ∀ p ∈ l, f ((ownAddr t p.1).toNat, p.2, .ok (.scratch t p.1)) = false) :=
    firstPiece_none (hall h)
  have hany := List.any_eq_false.mpr fun q hq => Bool.not_eq_true _ ▸ hall (f := notScratch (setTile s t x) t) (fun _ _ => rfl) q hq
  have hfind {f : (Nat × Nat × TRes) × Nat → Bool}
      (h : ∀ p ∈ l, ∀ k, f (((ownAddr t p.1).toNat, p.2, .ok (.scratch t p.1)), k) = false) :
      (l.map (fun p => ((ownAddr t p.1).toNat, p.2, TRes.ok (.scratch t p.1)))).zipIdx.find? f = none := by
    refine List.find?_eq_none.mpr fun ⟨q, k⟩ hq => ?_
    obtain ⟨p, hp, rfl⟩ := List.mem_map.mp (List.fst_mem_of_mem_zipIdx hq)
    rw [h p hp k]
    exact Bool.false_ne_true
  have hparts : (l.map (fun p => ((ownAddr t p.1).toNat, p.2, TRes.ok (.scratch t p.1)))).filterMap
      (fun p => match p.2.2 with | .ok g => some (g, p.1, p.2.1) | _ => none) = ownParts t l := by
    rw [List.filterMap_map]
    exact congrFun List.filterMap_eq_map' _
  unfold checkParts
  rw [targetsOf_own hx hl]
  dsimp only
  generalize l.map (fun p => ((ownAddr t p.1).toNat, p.2, TRes.ok (.scratch t p.1))) = ts at *
  cases l with
  | nil => rfl
  | cons p r =>
    rw [ownPieces, List.map_cons]
    dsimp only
    rw [hany, Bool.and_false, if_neg Bool.false_ne_true, hfirst fun _ _ => rfl]
    dsimp only
    rw [hfirst fun _ _ => rfl]
    dsimp only
    rw [hfirst fun _ _ => rfl]
    dsimp only
    rw [hfirst fun q hq => congrArg (· == 2) (hsays q hq)]
    dsimp only
    rw [hfind fun q hq _ => congrArg (· == 1) (hsays q hq)]
    exact congrArg (ChkRes.ok _) hparts
end

/-! ### Loads -/

/-- A range of the tile's scratchpad that a load reads plainly: no buffered store on it, nothing injected, no poison. -/
structure PlainBytes (t : TileId) (x : Tile) (off n : Nat) : Prop where
  unbuffered : x.core.sb.any (sbOverlaps t off n) = false
  clean : x.inject = []
  sound : spadPoisoned x off n = false

theorem PlainBytes.inside {t : TileId} {x : Tile} {off n off' n' : Nat} (h : PlainBytes t x off n) (hlo : off ≤ off')
    (hhi : off' + n' ≤ off + n) : PlainBytes t x off' n' where
  unbuffered := List.any_eq_false.mpr fun e he => by
    simp [sbOverlaps_inside hlo hhi (Bool.eq_false_iff.mpr (List.any_eq_false.mp h.unbuffered e he))]
  clean := h.clean
  sound := spadPoisoned_inside hlo hhi h.sound

/-- The bytes of the pieces one after the other. -/
def piecesBytes (x : Tile) (l : List OwnPiece) : List Byte := l.flatMap (fun p => spadGet x p.1 p.2)

/-- The pieces of an access spell its bytes. -/
theorem piecesBytes_ownSplit (x : Tile) (off n : Nat) : piecesBytes x (ownSplit off n) = spadGet x off n := by
  unfold ownSplit
  split
  · exact List.append_nil _
  · have h := mbytes_add 0 x.spad off (8 - off % 8) (n - (8 - off % 8))
    rw [Nat.add_sub_of_le (by omega)] at h
    simpa [piecesBytes, spadGet] using h.symm

section
variable {s : Dev} {t : TileId} {x : Tile} {off n : Nat}

theorem readOwn_plain (hp : PlainBytes t x off n) {l : List OwnPiece} (hl : InRange off n l) (k : Nat) :
    readOwn (setTile s t x) t k (ownParts t l) = (setTile s t x, .ok (piecesBytes x l)) := by
  induction l generalizing k with
  | nil => rfl
  | cons p r ih =>
    have hin := hl p List.mem_cons_self
    obtain ⟨hun, hclean, hsound⟩ := hp.inside hin.2.1 hin.2.2
    have hfwd : forwardPiece x t p.1 p.2 = .read := by rw [forwardPiece, youngest_none hun]
    have htouch : spadTouch (setTile s t x) t p.1 = setTile s t x := spadTouch_none (by rw [tileOf_setTile_same]; exact hclean)
    have hr := ih (fun q hq => hl q (List.mem_cons_of_mem _ hq)) (k + 1)
    unfold ownParts at hr ⊢
    rw [List.map_cons]
    dsimp only [readOwn]
    rw [tileOf_setTile_same, hfwd, htouch, tileOf_setTile_same, hsound, hr]
    rfl

/-- The targets of an own access are the tile's own. -/
theorem ownParts_isOwn (t : TileId) (l : List OwnPiece) : (ownParts t l).all (fun p => isOwn t p.1) = true := by
  simp [ownParts, isOwn]

theorem loadSize_pos : ∀ op : Fin 7, 0 < loadSize op := by decide

/-- A load of plain bytes puts them in flight (R186, R236). -/
theorem loadBody_own {op : Fin 7} (hx : ownBytes x off (loadSize op)) (hp : PlainBytes t x off (loadSize op)) (rd size : Nat) :
    loadBody s t op rd (ownAddr t off) size x =
      .done (setTile s t x) (pendLoad x rd (loadExt op (leNat (spadGet x off (loadSize op))))) 1 := by
  have hl := ownSplit_inRange (off := off) (loadSize_pos op)
  unfold loadBody
  rw [splitAccess_own t hx.2.2.1, checkParts_ownPieces hx hl]
  dsimp only
  rw [if_pos (ownParts_isOwn t _), readOwn_plain hp hl, piecesBytes_ownSplit]
  simp only [tileOf_setTile_same]

end

/-- An instruction that leaves its own tile in the state and then ends on another. -/
theorem onDev_issue_done_put {s : State} {t : TileId} {gu : Guard} {size occ : Nat} (h : Issues s t gu size)
    {body : Dev → Tile → Res} {y : Tile} (hb : body s.dev (tileIn s t) = .done (setTile s.dev t (tileIn s t)) y occ) :
    onDev s (fun d => issue d t gu size (fun _ => false) (body d)) = .next (putTile s t (advance y size occ)) := by
  rw [onDev_issue (ill := fun _ _ => false) h rfl hb, finish, setTile_setTile _ _ _ (tileIn_ne_reset h)]
  rfl

/-! ### Stores -/

/-- A store's entries are the pieces of the access, each with its bytes of the value (R195). -/
theorem sbPieces_ownSplit (t : TileId) (off n v : Nat) :
    sbPieces (v % 2 ^ (8 * n)) (ownParts t (ownSplit off n)) = ownEntries t off n v := by
  unfold ownSplit ownEntries
  dsimp only
  split
  · simp [ownParts, sbPieces]
  · have hk : 8 * (8 - off % 8) ≤ 8 * n := by omega
    have hsplit : 2 ^ (8 * n) = 2 ^ (8 * (8 - off % 8)) * 2 ^ (8 * (n - (8 - off % 8))) := by
      rw [← pow_add]
      congr 1
      omega
    have hlow : v % 2 ^ (8 * n) % 2 ^ (8 * (8 - off % 8)) = v % 2 ^ (8 * (8 - off % 8)) :=
      Nat.mod_mod_of_dvd v (pow_dvd_pow 2 hk)
    have hhigh : v % 2 ^ (8 * n) / 2 ^ (8 * (8 - off % 8)) =
        v / 2 ^ (8 * (8 - off % 8)) % 2 ^ (8 * (n - (8 - off % 8))) := by rw [hsplit, Nat.mod_mul_right_div_self]
    simp [ownParts, sbPieces, hlow, hhigh]

theorem ownEntries_length (t : TileId) (off n v : Nat) : (ownEntries t off n v).length = (ownSplit off n).length := by
  unfold ownSplit ownEntries
  dsimp only
  split <;> rfl

/-- The tile with a store's entries in its buffer, the store folded (R195, R659). -/
def stored (x : Tile) (v : Nat) (parts : List (Target × Nat × Nat)) (es : List SbEntry) : Tile :=
  foldPieces v (withSb x (x.core.sb ++ es)) parts

theorem stored_core (x : Tile) (v : Nat) (parts : List (Target × Nat × Nat)) (es : List SbEntry) :
    (stored x v parts es).core = { x.core with sb := x.core.sb ++ es } := by rw [stored, foldPieces_eq]; rfl

/-- What a store that enters the buffer changes of its tile, and what it leaves. -/
theorem stored_frame (x : Tile) (v : Nat) (parts : List (Target × Nat × Nat)) (es : List SbEntry) :
    (stored x v parts es).core.sb = x.core.sb ++ es ∧ (stored x v parts es).spad = x.spad ∧
    (∀ r, getG (stored x v parts es) r = getG x r) ∧ (stored x v parts es).core.p = x.core.p ∧
    (stored x v parts es).core.sv = x.core.sv ∧ (stored x v parts es).core.pc = x.core.pc := by
  have hspad : (stored x v parts es).spad = x.spad := by rw [stored, foldPieces_eq]; rfl
  have hg : (stored x v parts es).core.g = x.core.g := by rw [stored_core]
  exact ⟨by rw [stored_core], hspad, getG_of_g hg, by rw [stored_core], by rw [stored_core], by rw [stored_core]⟩

/-- A store that fits into the buffer enters it whole (R195). -/
theorem enterStore_fits {s : Dev} {t : TileId} {x : Tile} {v occ : Nat} {parts : List (Target × Nat × Nat)}
    (h : x.core.sb.length + parts.length ≤ 8) :
    enterStore (setTile s t x) t v parts occ = .done (setTile s t x) (stored x v parts (sbPieces v parts)) occ := by
  unfold enterStore
  simp only [tileOf_setTile_same]
  exact if_neg (Nat.not_lt.mpr h)

theorem storeBody_own {s : Dev} {t : TileId} {x : Tile} {off : Nat} {op : Fin 4} {rs : RegNo}
    (hx : ownBytes x off (storeSize op))
    (hfit : x.core.sb.length + (ownEntries t off (storeSize op) (getG x rs).toNat).length ≤ 8) :
    ∃ v parts, storeBody s t op rs (ownAddr t off) x =
      .done (setTile s t x) (stored x v parts (ownEntries t off (storeSize op) (getG x rs).toNat)) 1 := by
  have hl := ownSplit_inRange (off := off) (n := storeSize op) (Nat.two_pow_pos _)
  unfold storeBody
  rw [splitAccess_own t hx.2.2.1]
  dsimp only
  rw [checkParts_ownPieces hx hl]
  dsimp only
  rw [ownEntries_length] at hfit
  rw [enterStore_fits (by rwa [ownParts, List.length_map]), sbPieces_ownSplit]
  exact ⟨_, _, rfl⟩

/-! ### Short vectors -/

/-- A short-vector access of the own scratchpad at an aligned address passes its checks in one piece (R247). -/
theorem svCheck_own {s : Dev} {t : TileId} {x : Tile} {off n : Nat} (wr : Bool) (hx : ownBytes x off n) (hn : n = 32 ∨ n = 64)
    (ha : off % n = 0) : svCheck (setTile s t x) t wr (ownAddr t off).toNat n =
      .ok (setTile s t x) [(.scratch t off, (ownAddr t off).toNat, n)] := by
  have hn' : 0 < n ∧ n ∣ 0x4000000000 ∧ n ∣ 0x400000 := by
    rcases hn with rfl | rfl
    · decide
    · decide
  have hin : 0 < n ∧ off ≤ off ∧ off + n ≤ off + n := ⟨hn'.1, le_refl _, le_refl _⟩
  have hend := hx.2.2.1
  have halign : (ownAddr t off).toNat % n = 0 := by
    rw [ownAddr_toNat t (Nat.lt_of_le_of_lt (Nat.le_of_add_right_le hend) (by decide))]
    exact Nat.mod_eq_zero_of_dvd (Nat.dvd_add (Nat.dvd_add hn'.2.1 (hn'.2.2.mul_right _)) (Nat.dvd_of_mod_eq_zero ha))
  have htarget := coreTarget_own (s := s) (t := t) hx wr (p := (off, n)) hin
  unfold svCheck
  rw [if_neg (not_not.mpr halign), htarget]
  exact checkParts_ownPieces hx (l := [(off, n)]) (fun p hp => by rwa [List.mem_singleton.mp hp]) wr 0

/-- The entries of a short-vector store: its 8-byte elements, lowest first (R248). -/
def svEntries (t : TileId) (off k : Nat) (v : SvWord) : List SbEntry :=
  (List.range k).map (fun i => ⟨.scratch t (off + 8 * i), 8, BitVec.ofNat 64 (elem v 64 i)⟩)

/-- Pieces of eight bytes enter as the words of the value (R195). -/
theorem sbPieces_words (g : Nat → Target) (a : Nat → Nat) (k v : Nat) :
    sbPieces v ((List.range k).map (fun i => (g i, a i, 8))) =
      (List.range k).map (fun i => ⟨g i, 8, BitVec.ofNat 64 (v / 2 ^ (64 * i) % 2 ^ 64)⟩) := by
  induction k generalizing g a v with
  | zero => rfl
  | succ k ih =>
    have hw (i : Nat) : v / 2 ^ 64 / 2 ^ (64 * i) = v / 2 ^ (64 * (i + 1)) := by
      rw [Nat.div_div_eq_div_mul, ← pow_add]
      congr 2
      omega
    have hr := ih (fun i => g (i + 1)) (fun i => a (i + 1)) (v / 2 ^ 64)
    simp only [hw] at hr
    rw [List.range_succ_eq_map, List.map_cons, List.map_map, List.map_cons, List.map_map, sbPieces]
    exact congrArg₂ List.cons (by simp) hr

/-- A word of a number that has been cut beyond it is the word of the number. -/
theorem word_mod (v : Nat) {i k : Nat} (h : i < k) : v % 2 ^ (64 * k) / 2 ^ (64 * i) % 2 ^ 64 = v / 2 ^ (64 * i) % 2 ^ 64 := by
  apply Nat.eq_of_testBit_eq
  intro j
  simp only [Nat.testBit_mod_two_pow, Nat.testBit_div_two_pow]
  by_cases hj : j < 64
  · have hlt : j + 64 * i < 64 * k := by omega
    simp [hj, hlt]
  · simp [hj]

theorem sbPieces_svParts (t : TileId) (off a k : Nat) (v : SvWord) :
    sbPieces (v.toNat % 2 ^ (64 * k)) (svParts (.scratch t off) a k) = svEntries t off k v := by
  refine (sbPieces_words (fun i => .scratch t (off + 8 * i)) (fun i => a + 8 * i) k _).trans ?_
  refine List.map_congr_left fun i hi => ?_
  rw [word_mod _ (List.mem_range.mp hi), elem, Nat.shiftRight_eq_div_pow]

/-- The bytes of a short-vector access (R245). -/
def svBytes (full : Bool) : Nat := if full then 64 else 32

theorem svBytes_cases (full : Bool) : svBytes full = 32 ∨ svBytes full = 64 := by cases full <;> simp [svBytes]

section
variable {s : State} {t : TileId} {gu : Guard} {full : Bool} {v : PredNo} {ra : RegNo} {imm : BitVec 10} {off : Nat}
  (h : Issues s t gu 4) (hx : ownBytes (tileIn s t) off (svBytes full)) (ha : off % svBytes full = 0)
  (hva : getG (tileIn s t) ra + imm.signExtend 64 * BitVec.ofNat 64 (svBytes full) = ownAddr t off)
include h hx ha hva

theorem execSvld_own (hp : PlainBytes t (tileIn s t) off (svBytes full)) : execSvld t gu full v ra imm s =
    .next (putTile s t (advance (setSv (tileIn s t) v full (leNat (spadGet (tileIn s t) off (svBytes full)))) 4
      (svBytes full / 8))) := by
  obtain ⟨hun, hclean, hsound⟩ := hp
  have htouch : spadTouch (setTile s.dev t (tileIn s t)) t off = setTile s.dev t (tileIn s t) :=
    spadTouch_none (by rw [tileOf_setTile_same]; exact hclean)
  have hchk := svCheck_own (s := s.dev) (t := t) false hx (svBytes_cases full) ha
  unfold svBytes at hva hun hsound hchk ⊢
  refine onDev_issue_done_put h ?_
  dsimp only
  rw [hva, hchk]
  simp only [tileOf_setTile_same, hun, htouch, hsound, Bool.false_eq_true, if_false, if_true]

theorem execSvst_own (hfit : (tileIn s t).core.sb.length + svBytes full / 8 ≤ 8) : ∃ n parts, execSvst t gu full v ra imm s =
    .next (putTile s t (advance (stored (tileIn s t) n parts (svEntries t off (svBytes full / 8) (getSv (tileIn s t) v))) 4
      (svBytes full / 8))) := by
  have hk : 8 * svBytes full = 64 * (svBytes full / 8) := by rcases svBytes_cases full with e | e <;> rw [e]
  have hchk := svCheck_own (s := s.dev) (t := t) true hx (svBytes_cases full) ha
  have hlen (a : Nat) : (svParts (.scratch t off) a (svBytes full / 8)).length = svBytes full / 8 := by simp [svParts]
  have henter (a : Nat) := enterStore_fits (s := s.dev) (t := t) (x := tileIn s t)
    (v := (getSv (tileIn s t) v).toNat % 2 ^ (8 * svBytes full)) (occ := svBytes full / 8)
    (parts := svParts (.scratch t off) a (svBytes full / 8)) (by rwa [hlen])
  refine ⟨(getSv (tileIn s t) v).toNat % 2 ^ (8 * svBytes full),
    svParts (.scratch t off) (ownAddr t off).toNat (svBytes full / 8), onDev_issue_done_put h ?_⟩
  dsimp only
  rw [show (if full = true then 64 else 32) = svBytes full from rfl, hva, hchk]
  dsimp only
  have hent := henter (ownAddr t off).toNat
  conv at hent => rhs; rw [hk, sbPieces_svParts, ← hk]
  exact hent
end

/-- Settles O14: the pieces of an access pass their checks; a load reads plain bytes, a store enters its buffer. -/
theorem ownScratchpadAccessesComplete : Obligations.OwnScratchpadAccessesComplete := by
  unfold Obligations.OwnScratchpadAccessesComplete
  refine ⟨?scalar, ?vector⟩
  case scalar =>
    intro s t gu off x
    refine ⟨?load, ?store⟩
    case load =>
      intro op rd ra hx hun hclean hsound y
      have hload := loadBody_own (s := s.dev) hx ⟨hun, hclean, hsound⟩ rd
      refine ⟨fun imm h ha => (exec_load ..).trans (onDev_issue_done_put h ?_),
        fun imm h ha => (exec_longLoad ..).trans (onDev_issue_done_put h ?_)⟩
      · rw [ha]
        exact hload 4
      · rw [ha]
        exact hload 8
    case store =>
      intro op rs ra hx hfit stored'
      obtain ⟨v, parts, hstore⟩ := storeBody_own (s := s.dev) hx hfit
      have hdone (size : Nat) : stored' (putTile s t (advance (stored x v parts
          (ownEntries t off (storeSize op) (getG x rs).toNat)) size 1)) size := by
        simp only [stored', tileOf_putTile_same]
        obtain ⟨hsb, hspad, hg, hp, -, hpc⟩ := stored_frame x v parts (ownEntries t off (storeSize op) (getG x rs).toNat)
        exact ⟨hsb, fun a => by rw [advance_spad, hspad], hg, hp, congrArg (· + BitVec.ofNat 64 size) hpc, trivial⟩
      refine ⟨fun imm h ha => completes_putTile ((exec_store ..).trans (onDev_issue_done_put h ?_)) (hdone 4),
        fun imm h ha => completes_putTile ((exec_longStore ..).trans (onDev_issue_done_put h ?_)) (hdone 8)⟩
      · rw [ha]
        exact hstore
      · rw [ha]
        exact hstore
  case vector =>
    intro s t gu full v ra imm off x n h hx ha hva
    refine ⟨fun hun hclean hsound => (exec_svld ..).trans (execSvld_own h hx ha hva ⟨hun, hclean, hsound⟩), fun hfit => ?_⟩
    obtain ⟨w, parts, hexec⟩ := execSvst_own h hx ha hva hfit
    refine completes_putTile ((exec_svst ..).trans hexec) ?_
    rw [tileOf_putTile_same]
    obtain ⟨hsb, hspad, -, -, hsv, hpc⟩ := stored_frame x w parts (svEntries t off (svBytes full / 8) (getSv x v))
    exact ⟨hsb, fun a => by rw [advance_spad, hspad], hsv, congrArg (· + 4) hpc, rfl⟩

end Sys2Proof.Machine.CoreLaws
end

section
/-! PROOFS. The requests of a live host port (R363, R378, R470, R474 to R489, R494): configuration, flush reads, completions and
timeouts, accesses through the BARs. -/

namespace Sys2Proof.Machine.CoreLaws
open Sys2Proof

/-! ### Ports and functions -/

@[simp] theorem hportOf_modHport_same (s : Dev) (p : Nat) (f : HPort → HPort) : hportOf (modHport s p f) p = f (hportOf s p) :=
  mget_mmod_same ..

theorem hportOf_modHport_other (s : Dev) {p q : Nat} (f : HPort → HPort) (h : q ≠ p) : hportOf (modHport s p f) q = hportOf s q :=
  mget_mmod_other _ _ f h

theorem hportOf_of_hports {s u : Dev} (h : u.hports = s.hports) (p : Nat) : hportOf u p = hportOf s p := by
  rw [hportOf, hportOf, h]

@[simp] theorem fnOf_modFn_same (s : Dev) (p f : Nat) (g : FnSt → FnSt) : fnOf (modFn s p f g) p f = g (fnOf s p f) := by
  rw [fnOf, modFn, hportOf_modHport_same]
  exact mget_mmod_same ..

theorem fnOf_modFn_other (s : Dev) {p f k : Nat} (g : FnSt → FnSt) (h : k ≠ f) : fnOf (modFn s p f g) p k = fnOf s p k := by
  rw [fnOf, modFn, hportOf_modHport_same]
  exact mget_mmod_other _ _ g h

@[simp] theorem raiseErr_hports (s : Dev) (part : Option Nat) (id cls unit : Nat) (ctx : Option Nat) (addr detail : Nat) :
    (raiseErr s part id cls unit ctx addr detail).hports = s.hports :=
  congrArg (·.hports) (raiseErr_eq s part id cls unit ctx addr detail)

/-! ### Configuration requests -/

/-- A function with the first three configuration fields (log entry 18) set to a bit. -/
def cfgEnabled (field : Fin 32) (b : Bool) (f : FnSt) : FnSt :=
  if field = 0 then { f with memEn := b } else if field = 1 then { f with master := b } else { f with relaxed := b }

theorem odd_eq_bit (w : Word) : (w.toNat % 2 == 1) = bit w 0 := by
  rw [bit, ← BitVec.testBit_toNat, Nat.testBit_zero]
  rfl

/-- A write of Memory Space Enable, Bus Master Enable or Enable Relaxed Ordering sets that field (R474, R483). -/
theorem cfgWrite_enable (s : Dev) (port fn : Nat) (w : Word) {field : Fin 32} (h : field.val < 3) :
    cfgWrite s port fn field w.toNat = modFn s port fn (cfgEnabled field (bit w 0)) := by
  rw [← odd_eq_bit]
  have hmem : ∀ k : Fin 32, k.val < 3 → k ∈ ([0, 1, 2] : List (Fin 32)) := by decide
  have hall : ([0, 1, 2] : List (Fin 32)).map (fun k : Fin 32 => cfgWrite s port fn k w.toNat) =
      ([0, 1, 2] : List (Fin 32)).map (fun k => modFn s port fn (cfgEnabled k (w.toNat % 2 == 1))) := rfl
  exact List.map_inj_left.mp hall field (hmem field h)

theorem cfgRead_bar2 (s : Dev) (port fn : Nat) : cfgRead s port fn 14 = (fnOf s port fn).bar2.toNat + 0xC := rfl

/-- A write of BAR2 keeps the address bits (R470). -/
theorem cfgRead_cfgWrite_bar2 (s : Dev) (port fn : Nat) (w : Word) :
    cfgRead (cfgWrite s port fn 14 w.toNat) port fn 14 = w.toNat / 2 ^ 30 * 2 ^ 30 + 0xC := by
  have hw : w.toNat / 2 ^ 30 * 2 ^ 30 < 2 ^ 64 := lt_of_le_of_lt (Nat.div_mul_le_self ..) w.isLt
  have hbar : (fnOf (cfgWrite s port fn 14 w.toNat) port fn).bar2 = BitVec.ofNat 64 (w.toNat / 2 ^ 30 * 2 ^ 30) :=
    congrArg FnSt.bar2 (fnOf_modFn_same s port fn _)
  rw [cfgRead_bar2, hbar, BitVec.toNat_ofNat, Nat.mod_eq_of_lt hw]

section
variable {s : State} {port : Fin 2} (hup : (hportOf s.dev port).dlUp = true)
include hup

theorem execConfigRequest_notReady (hr : (hportOf s.dev port).ready = false) (fn : Fin 128) (field : Fin 32) (v : Option Word) :
    execConfigRequest port fn field v s = .next (withDev s (send s.dev (.cfgReply 1 0))) := by
  rw [execConfigRequest, onDev_eq]
  simp only [hup, hr, Bool.not_true, Bool.not_false, Bool.false_eq_true, if_false, if_true]

section
variable {fn : Fin 128} (hr : (hportOf s.dev port).ready = true) (hf : cfgReaches s.dev port fn = true)
include hr hf

theorem execConfigRequest_read (field : Fin 32) : execConfigRequest port fn field none s =
    .next (withDev s (send s.dev (.cfgReply 0 (cfgRead s.dev port fn field)))) := by
  rw [execConfigRequest, onDev_eq]
  simp only [hup, hr, hf, Bool.not_true, Bool.false_eq_true, if_false]

theorem execConfigRequest_write (field : Fin 32) (w : Word) : execConfigRequest port fn field (some w) s =
    .next (withDev s (send (cfgWrite s.dev port fn field w.toNat) (.cfgReply 0 0))) := by
  rw [execConfigRequest, onDev_eq]
  simp only [hup, hr, hf, Bool.not_true, Bool.false_eq_true, if_false]
end

theorem execFlushRead_uncached (hc : (hportOf s.dev port).cache = false) : execFlushRead port s =
    .next (withDev s (coverWrites (send s.dev (.hostRead port 0 0)) port)) := by
  rw [execFlushRead, onDev_eq]
  simp only [hup, hc, Bool.not_false, Bool.and_self, if_true]
end

/-! ### Flush reads -/

/-- The part but for what the MSI-X messages of visible writes may change: the functions of its ports and what it sends. -/
def coverView (port : Nat) (s : Dev) : List (List HostSrc) × List HostSrc × SMap Tile × SMap Byte :=
  ((hportOf s port).cov, (hportOf s port).uncov, s.tiles, s.stack)

theorem coverView_modFn (port : Nat) (s : Dev) (p f : Nat) (g : FnSt → FnSt) : coverView port (modFn s p f g) = coverView port s := by
  by_cases h : port = p
  · subst h
    simp only [coverView, modFn, hportOf_modHport_same]
    rfl
  · simp only [coverView, modFn, hportOf_modHport_other s _ h]
    rfl

theorem coverView_sendMsix (port : Nat) (s : Dev) (p f vec : Nat) : coverView port (sendMsix s p f vec) = coverView port s := by
  unfold sendMsix
  dsimp only
  split
  · rfl
  · split
    · exact coverView_modFn ..
    · rfl

theorem coverView_hostVisible (port : Nat) (s : Dev) (a : HostSrc) : coverView port (hostVisible s a) = coverView port s := by
  cases a with
  | record q m n =>
    cases m with
    | none => rfl
    | some v =>
      obtain ⟨p, f, vec⟩ := v
      show coverView port (if hostPending s (.record q (some (p, f, vec)) n) then s else sendMsix s p f vec) = _
      split
      · rfl
      · exact coverView_sendMsix ..
  | _ => rfl

/-- The completion of the oldest flush read ends its cover (R482). -/
theorem coverView_flushDone {s : Dev} {port : Nat} {l : List HostSrc} {r : List (List HostSrc)}
    (h : (hportOf s port).cov = l :: r) : coverView port (flushDone s port) = (r, (hportOf s port).uncov, s.tiles, s.stack) := by
  unfold flushDone
  rw [h]
  dsimp only
  rw [foldl_keeps (coverView_hostVisible port), coverView, hportOf_modHport_same, h]
  rfl

theorem execHostReadCompletion_flush {s : State} {port : Fin 2} {l : List HostSrc} {r : List (List HostSrc)}
    (h : (hportOf s.dev port).cov = l :: r) (v : List Byte) :
    execHostReadCompletion (.flush port) (.data v) s = .next (withDev s (flushDone s.dev port)) := by
  have hreader : readerOf s.dev (.flush port) = some (none, none) := by simp [readerOf, h]
  rw [execHostReadCompletion, onDev_eq, hreader]
  rfl

/-! ### Reads a load waits for -/

/-- The load of a core that waits for host memory over a link without a cache is a reader (R486). -/
theorem readerOf_core {s : Dev} {t : TileId} {op rd a va n size id : Nat}
    (hw : (tileOf s t).core.wait = .load ⟨op, rd, [(.host a, va, n)], size, id⟩)
    (hc : (hportOf s (tilePort s t)).cache = false) :
    readerOf s (.core t) = some (partOf (tileOf s t), coreCtx (tileOf s t)) := by
  have hl : loadsHost (tileOf s t) = true := by
    rw [loadsHost, hw]
    rfl
  simp only [readerOf, hl, hc, Bool.not_false, Bool.and_self, if_true]

theorem execHostReadCompletion_core {s : State} {t : TileId} {op rd a va size id : Nat} {v : List Byte} (hop : op < 7)
    (hr : (tileOf s.dev t).core.run = true)
    (hw : (tileOf s.dev t).core.wait = .load ⟨op, rd, [(.host a, va, v.length)], size, id⟩)
    (hc : (hportOf s.dev (tilePort s.dev t)).cache = false) : execHostReadCompletion (.core t) (.data v) s =
    .next (withDev s (setTile (countWait s.dev t) t (loadReturned (waited s.dev (tileOf s.dev t)) op rd size v))) := by
  rw [execHostReadCompletion, onDev_eq, readerOf_core hw hc]
  exact congrArg (fun d => Host.Outcome.next (withDev s d)) (loadReturn_host hop hr hw hc)

/-- The one part of a load of host memory fails where the link gives no data (R188, R489). -/
theorem judgeLoad_host_fault (s : Dev) (ti : TileId) (a va n : Nat) :
    judgeLoad s ti .fault [(.host a, va, n)] = (.bad s 7, 0, va) := by
  have hpart : judgePart s ti .fault (.host a, va, n) = .bad s 7 := by
    unfold judgePart
    dsimp only
    rw [show (LoadAns.fault == LoadAns.fault) = true from rfl, Bool.or_true]
    rfl
  exact (judgeLoad_host_part ..).trans (judgeParts_bad 0 hpart)

theorem loadReturn_host_fault {s : Dev} {t : TileId} {op rd a va n size id : Nat} (hop : op < 7)
    (hw : (tileOf s t).core.wait = .load ⟨op, rd, [(.host a, va, n)], size, id⟩) :
    loadReturn s t .fault = loadFails s t 7 0 va := by
  unfold loadReturn
  rw [hw]
  dsimp only
  rw [judgeLoad_host_fault, if_neg (by omega)]

/-- The tile as a load that failed leaves it: what was due has landed, and the exception is taken at the load (R188, R205). -/
def loadFailed (x : Tile) (code sub bad : Nat) : Tile :=
  enterException (landDue { x with core := { x.core with wait := .none } }) code sub (BitVec.ofNat 64 bad)

/-- A core that runs takes the exception of its load and does not halt. -/
theorem loadFails_eq {s : Dev} {t : Nat} (code sub bad : Nat) (hr : (tileOf s t).core.run = true) :
    loadFails s t code sub bad = setTile (countWait s t) t (loadFailed (waited s (tileOf s t)) code sub bad) := by
  have hx : tileOf (countWait s t) t = waited s (tileOf s t) := tileOf_setTile_same ..
  unfold loadFails modTile
  rw [hx]
  refine settle_running ?_
  rw [tileOf_setTile_same]
  show (landDue _).core.run = true
  rw [landDue_run]
  exact hr

theorem landDue_spad (x : Tile) : (landDue x).spad = x.spad := by
  have hprod (y : Tile) (n : Nat) : (landProd y n).spad = y.spad := by
    unfold landProd
    cases y.core.prod with
    | none => rfl
    | some p =>
      dsimp only
      split
      · rfl
      · rfl
  have hloads : (landLoads x.core.loads x.core.slot x).spad = x.spad := by rw [landLoads_eq]
  exact (hprod ..).trans hloads

/-- What a failed load leaves in the core and the scratchpad (R205). -/
theorem loadFailed_access (x : Tile) (bad : Nat) : (loadFailed x 7 0 bad).core.cause = 7 ∧
    (loadFailed x 7 0 bad).core.badaddr = BitVec.ofNat 64 bad ∧ (loadFailed x 7 0 bad).core.epc = x.core.pc ∧
    (loadFailed x 7 0 bad).core.pc = x.core.evec ∧ (loadFailed x 7 0 bad).core.wait = .none ∧
    bit (loadFailed x 7 0 bad).core.status 0 = true ∧ (loadFailed x 7 0 bad).spad = x.spad := by
  have hevec (y : Tile) : (landDue y).core.evec = y.core.evec := by rw [landDue_core]
  exact ⟨rfl, rfl, landDue_pc _, (BitVec.add_zero _).trans (hevec _), rfl, bit_enterException_status .., landDue_spad _⟩

/-- A record of a read and its count in CPL_TMO: what of it a core's exception can see (R494). -/
theorem hportOf_countCplTmo (s : Dev) (port : Nat) : hportOf (countCplTmo s port) port =
    { hportOf s port with stats := incFld (hportOf s port).stats 63 48 1 } := hportOf_modHport_same ..

/-- The part once a read has timed out: the record, the AER error and the count (R489, R494). -/
def timedOut (s : Dev) (port : Nat) (part ctx : Option Nat) : Dev := countCplTmo (readErr s port part ctx 0x2002 2) port

@[simp] theorem timedOut_tiles (s : Dev) (port : Nat) (part ctx : Option Nat) : (timedOut s port part ctx).tiles = s.tiles := by
  show (raiseErr ..).tiles = _
  rw [raiseErr_tiles]

theorem timedOut_stats (s : Dev) (port : Nat) (part ctx : Option Nat) :
    (hportOf (timedOut s port part ctx) port).stats = incFld (hportOf s port).stats 63 48 1 := by
  have hsame : hportOf (readErr s port part ctx 0x2002 2) port = hportOf s port :=
    hportOf_of_hports (raiseErr_hports ..) port
  rw [timedOut, hportOf_countCplTmo, hsame]

theorem execCompletionTimeout_core {s : State} {t : TileId} {op rd a va n size id p : Nat} (hop : op < 7)
    (hw : (tileOf s.dev t).core.wait = .load ⟨op, rd, [(.host a, va, n)], size, id⟩) (hp : partOf (tileOf s.dev t) = some p)
    (hc : (hportOf s.dev (tilePort s.dev t)).cache = false)
    (ho : (fnOf s.dev (pPort (partSt s.dev p)) (pFunc (partSt s.dev p))).ctoDis = false) :
    execCompletionTimeout (.core t) s = .next (withDev s (loadFails
      (timedOut s.dev (pPort (partSt s.dev p)) (some p) (coreCtx (tileOf s.dev t))) t 7 0 va)) := by
  have hoff : ctoOff s.dev (some p) = false := ho
  have hx := tileOf_of_tiles (timedOut_tiles s.dev (pPort (partSt s.dev p)) (some p) (coreCtx (tileOf s.dev t))) t
  have hfail := loadReturn_host_fault hop ((congrArg (·.core.wait) hx).trans hw)
  rw [execCompletionTimeout, onDev_eq, readerOf_core hw hc, hp]
  dsimp only
  rw [hoff, if_neg Bool.false_ne_true]
  exact congrArg (fun d => Host.Outcome.next (withDev s d)) hfail

/-! ### Requests through the BARs -/

/-- The part with other requests that wait. -/
def withBarq (s : Dev) (l : List BarReq) : Dev := { s with barq := l }

@[simp] theorem withBarq_pwr (s : Dev) (l : List BarReq) : (withBarq s l).pwr = s.pwr := rfl

/-- While none waits, a request is performed, or is the first to wait. -/
theorem barTake_barPump {s : Dev} (hq : s.barq = []) (r : BarReq) : barTake (barPump s) r =
    if (r.bar == 1 && bar2Stalls s r.port r.fn r.off r.n) then withBarq s [r] else barServe s r := by
  have hpump : barPump s = s := by
    unfold barPump
    rw [hq, List.foldl_nil, ← hq]
  have hw : barWaits s r = (r.bar == 1 && bar2Stalls s r.port r.fn r.off r.n) := by simp [barWaits, hq]
  rw [hpump, barTake, hw, hq]
  rfl

section
variable {s : State} {port : Fin 2} {fn : Fin 128} {req : BitVec 16} {bar : Fin 3} {off : BitVec 38}
  (hid : hostidOk s.dev port req.toNat = true) (hq : s.dev.barq = [])
include hid hq

/-- A write in a live BAR of a requester that is served, with none before it that waits (R485). -/
theorem execHostBarWrite_live {data : List Byte} (hl : barLive s.dev port fn bar off.toNat data.length = true) :
    execHostBarWrite port fn req bar off data false s = .next (withDev s (nxp s.dev
      (if (bar.val == 1 && bar2Stalls s.dev port fn off.toNat data.length) then
        withBarq s.dev [⟨port, fn, req.toNat, bar, off.toNat, data.length, some (data, false)⟩]
      else barWrite s.dev port fn bar off.toNat data false))) := by
  have hport : Fin.ofNat 2 port.val = port := Fin.ofNat_val_eq_self port
  have hfn : Fin.ofNat 128 fn.val = fn := Fin.ofNat_val_eq_self fn
  rw [execHostBarWrite, onDev_eq]
  simp only [hl, hid, Bool.not_true, Bool.false_eq_true, if_false, barTake_barPump hq, barServe, hport, hfn]

theorem execHostBarRead_live {n : Fin 4097} (hl : barLive s.dev port fn bar off.toNat n = true) :
    execHostBarRead port fn req bar off n s = .next (withDev s
      (if (bar.val == 1 && bar2Stalls s.dev port fn off.toNat n) then
        withBarq s.dev [⟨port, fn, req.toNat, bar, off.toNat, n, none⟩]
      else send (barRead s.dev port fn bar off.toNat n).1
        (.hostReply (barRead s.dev port fn bar off.toNat n).2.1 (barRead s.dev port fn bar off.toNat n).2.2))) := by
  have hport : Fin.ofNat 2 port.val = port := Fin.ofNat_val_eq_self port
  have hfn : Fin.ofNat 128 fn.val = fn := Fin.ofNat_val_eq_self fn
  have hup : (hportOf s.dev port).dlUp = true := by
    rw [barLive] at hl
    simp only [Bool.and_eq_true] at hl
    exact hl.1.1.1
  rw [execHostBarRead, onDev_eq]
  simp only [hl, hid, Bool.not_true, Bool.false_eq_true, if_false, barTake_barPump hq, barServe, hport, hfn, hup, if_true]
end

/-! ### BAR2 -/

section
variable {s : Dev} {port fn off t n : Nat} (ht : bar2Tile s port fn off = some t) (hn : 0 < n)
  (hpop : off % 0x400000 + n ≤ 0x300000)

theorem bar2Part_populated (h : off % 0x400000 + n ≤ 0x300000) : bar2Part off n = n := by
  exact Nat.min_eq_left (Nat.le_sub_of_add_le' h)

include ht hn hpop

theorem bar2Stalls_eq : bar2Stalls s port fn off n = bar2Busy (tileOf s t) (off % 0x400000) n := by
  simp [bar2Stalls, ht, bar2Part_populated hpop, hn]

variable (hp : bar2Private (tileOf s t) (off % 0x400000) n = false) (hi : (tileOf s t).inject = [])
include hp hi

/-- A write of populated scratchpad that the transfer port may use puts its bytes (R476, R772). -/
theorem bar2Write_own {bs : List Byte} (hb : bs.length = n) : bar2Write s port fn off bs false =
    modTile s t (fun x => spadPut x (off % 0x400000) bs) := by
  subst hb
  have hne : bs ≠ [] := List.length_pos_iff.mp hn
  unfold bar2Write
  simp only [if_neg hne, ht, bar2Part_populated hpop, if_neg hn.ne', hp, spadTouch_none hi, ite_self, List.take_length,
    lt_irrefl, Bool.false_eq_true, if_false]

theorem bar2Read_own (hs : spadPoisoned (tileOf s t) (off % 0x400000) n = false) : bar2Read s port fn off n =
    (s, spadGet (tileOf s t) (off % 0x400000) n, false) := by
  unfold bar2Read
  simp only [if_neg hn.ne', ht, bar2Part_populated hpop, hp, spadTouch_none hi, hs, lt_irrefl, Bool.false_eq_true, if_false,
    Nat.sub_self, ones, List.replicate_zero, List.append_nil]
end

/-! ### Dowels in BAR0 -/

/-- The offset in BAR0 of a dowel, for the PF (R475). -/
def dowelOff (t : TileId) (idx : Fin 512) : BitVec 38 := BitVec.ofNat 38 (0x100000 + 0x1000 * t.val + 8 * idx.val)

theorem dowelOff_toNat (t : TileId) (idx : Fin 512) : (dowelOff t idx).toNat = 0x100000 + 0x1000 * t.val + 8 * idx.val := by
  rw [dowelOff, BitVec.toNat_ofNat]
  omega

/-- The PF reaches every dowel at its offset (R475). -/
theorem winOf_dowelOff {s : Dev} {port p : Nat} (t : TileId) (idx : Fin 512) (hb : boundPart s port 0 = some p) :
    winOf s port 0 (dowelOff t idx).toNat = .dowel t idx := by
  have hlt : 8 * idx.val < 0x1000 := by omega
  have htile : (0x100000 + 0x1000 * t.val + 8 * idx.val - 0x100000) / 0x1000 = t.val := by
    rw [Nat.add_assoc, Nat.add_sub_cancel_left, Nat.mul_add_div (by decide), Nat.div_eq_of_lt hlt, Nat.add_zero]
  have hidx : (0x100000 + 0x1000 * t.val + 8 * idx.val) % 0x1000 / 8 = idx.val := by
    rw [show 0x100000 + 0x1000 * t.val = 0x1000 * (0x100 + t.val) from (Nat.mul_add 0x1000 0x100 t.val).symm, Nat.mul_add_mod,
      Nat.mod_eq_of_lt hlt, Nat.mul_div_cancel_left _ (by decide)]
  have hlo : 0x100000 ≤ 0x100000 + 0x1000 * t.val + 8 * idx.val := Nat.le_add_right_of_le (Nat.le_add_right ..)
  have hhi : 0x100000 + 0x1000 * t.val + 8 * idx.val < 0x200000 := by omega
  rw [dowelOff_toNat]
  generalize 0x100000 + 0x1000 * t.val + 8 * idx.val = o at htile hidx hlo hhi
  unfold winOf
  rw [if_neg (by omega), if_neg (by omega), if_neg (by omega), if_pos (by omega), htile, hidx, hb]
  rfl

/-- An 8-byte write at a dowel is a store command (R378). -/
theorem bar0Write_dowel {s : Dev} {port : Fin 2} {p : Nat} {t : TileId} {idx : Fin 512} {bs : List Byte}
    (hb : boundPart s port 0 = some p) (hlen : bs.length = 8)
    (hop : fld (BitVec.ofNat 64 (leNat bs)) 33 32 ≠ 3) (hz : fld (BitVec.ofNat 64 (leNat bs)) 63 34 = 0) :
    bar0Write s port 0 (dowelOff t idx).toNat bs =
      applyDowel s t idx (fld (BitVec.ofNat 64 (leNat bs)) 33 32) (fld (BitVec.ofNat 64 (leNat bs)) 31 0) := by
  have hok : bar0Ok (dowelOff t idx).toNat 8 = true := by
    rw [dowelOff_toNat]
    simp only [bar0Ok, Bool.and_eq_true, beq_iff_eq]
    exact ⟨rfl, by omega⟩
  have hcmd : storeCommand (BitVec.ofNat 64 (leNat bs)) =
      some (fld (BitVec.ofNat 64 (leNat bs)) 33 32, fld (BitVec.ofNat 64 (leNat bs)) 31 0) := by
    simp [storeCommand, hop, hz]
  have hwin : winOf s port (0 : Fin 128).val (dowelOff t idx).toNat = .dowel t idx := winOf_dowelOff t idx hb
  unfold bar0Write
  dsimp only
  rw [hlen, hok, hwin]
  simp only [dowelStore, hcmd]
  rfl

/-- Settles O33: each request by the one branch of its command that it takes. -/
theorem hostRequestsComplete : Obligations.HostRequestsComplete := by
  unfold Obligations.HostRequestsComplete
  refine ⟨?config, ?covered, ?load, ?bars⟩
  case config =>
    intro s port fn hup
    refine ⟨fun hr field v => (exec_configRequest ..).trans (execConfigRequest_notReady hup hr fn field v), fun hr hf =>
      ⟨fun field => (exec_configRequest ..).trans (execConfigRequest_read hup hr hf field), fun w field h3 => ?enable,
        fun w => ?bar2⟩, fun hc => ?flush⟩
    case enable =>
      have hexec := execConfigRequest_write hup hr hf field w
      rw [cfgWrite_enable _ _ _ _ h3] at hexec
      exact completes_onDev ((exec_configRequest ..).trans hexec)
        ⟨fnOf_modFn_same .., fun g hg => fnOf_modFn_other _ _ hg, rfl, rfl, rfl⟩
    case bar2 =>
      exact completes_onDev ((exec_configRequest ..).trans (execConfigRequest_write hup hr hf 14 w))
        ⟨cfgRead_cfgWrite_bar2 .., rfl⟩
    case flush =>
      exact completes_onDev ((exec_flushRead ..).trans (execFlushRead_uncached hup hc))
        ⟨hportOf_modHport_same .., rfl, rfl⟩
  case covered =>
    intro s port l r v h
    refine completes_onDev ((exec_hostReadCompletion ..).trans (execHostReadCompletion_flush h v)) ?_
    have hview := coverView_flushDone h
    simp only [coverView, Prod.mk.injEq] at hview
    exact hview
  case load =>
    intro s t op rd a va size id p v x hop hrun hw hp hc
    refine ⟨?data, fun ho => ?timeout⟩
    case data =>
      have hy := tileOf_setTile_same (countWait s.dev t) t (loadReturned (waited s.dev x) op rd size v)
      exact completes_onDev ((exec_hostReadCompletion ..).trans (execHostReadCompletion_core hop hrun hw hc))
        ⟨congrArg (·.core.loads) hy, congrArg (·.core.wait) hy, congrArg (·.core.pc) hy, fun r => (congrArg (getG · r) hy).trans rfl,
          (congrArg (·.spad) hy).trans rfl, rfl⟩
    case timeout =>
      have hexec := execCompletionTimeout_core hop hw hp hc ho
      have hstats := timedOut_stats s.dev (pPort (partSt s.dev p)) (some p) (coreCtx x)
      have hx := tileOf_of_tiles (timedOut_tiles s.dev (pPort (partSt s.dev p)) (some p) (coreCtx x)) t
      generalize timedOut s.dev (pPort (partSt s.dev p)) (some p) (coreCtx x) = d at hexec hstats hx
      rw [loadFails_eq 7 0 va (by rw [hx]; exact hrun), hx] at hexec
      have hy := tileOf_setTile_same (countWait d t) t (loadFailed (waited d x) 7 0 va)
      obtain ⟨hcause, hbad, hepc, hpc, hwait, hst, hspad⟩ := loadFailed_access (waited d x) va
      rw [← hy] at hcause hbad hepc hpc hwait hst hspad
      exact completes_onDev ((exec_completionTimeout ..).trans hexec) ⟨hcause, hbad, hepc, hpc, hwait, hst, hspad, hstats⟩
  case bars =>
    intro s port fn req hid hq
    refine ⟨?access, ?waits, ?dowel⟩
    case access =>
      intro off t data n o x hl ht hn hpop hbusy hpriv hi
      have hgo : ((1 : Fin 3).val == 1 && bar2Stalls s.dev port fn off.toNat n) = false := by
        rw [bar2Stalls_eq ht hn hpop, hbusy]
        rfl
      refine ⟨fun hlen => ?write, fun hs => ?read⟩
      case write =>
        have hput : barWrite s.dev port fn (1 : Fin 3).val off.toNat data false = _ := bar2Write_own ht hn hpop hpriv hi hlen
        have hexec := execHostBarWrite_live (bar := 1) (data := data) hid hq (hlen.symm ▸ hl)
        rw [hlen, hgo, if_neg Bool.false_ne_true, hput, nxp_of_pwr_eq (modTile_pwr ..)] at hexec
        have hother (a : Nat) := spadPut_other x o data (a := a)
        have hbytes := spadGet_spadPut x o data
        rw [hlen] at hother hbytes
        have hy : tileOf (modTile s.dev t (fun y => spadPut y o data)) t = spadPut x o data := tileOf_modTile_same ..
        exact completes_onDev ((exec_hostBarWrite ..).trans hexec) ⟨(congrArg (spadGet · o n) hy).trans hbytes,
          fun a ha => (congrArg (fun y => mget 0 y.spad a) hy).trans (hother a ha), (congrArg (·.core) hy).trans (spadPut_core ..),
          fun q hq => tileOf_modTile_other _ _ (fun e => hq (Fin.ext e)), rfl, rfl⟩
      case read =>
        have hread : barRead s.dev port fn (1 : Fin 3).val off.toNat n = _ := bar2Read_own ht hn hpop hpriv hi hs
        have hexec := execHostBarRead_live (bar := 1) hid hq hl
        rw [hgo, if_neg Bool.false_ne_true, hread] at hexec
        exact (exec_hostBarRead ..).trans hexec
    case waits =>
      intro off t data o hl ht hn hpop hbusy
      have hwait : ((1 : Fin 3).val == 1 && bar2Stalls s.dev port fn off.toNat data.length) = true := by
        rw [bar2Stalls_eq ht hn hpop, hbusy]
        rfl
      have hexec := execHostBarWrite_live (bar := 1) hid hq hl
      rw [hwait, if_pos rfl, nxp_of_pwr_eq (withBarq_pwr ..)] at hexec
      exact (exec_hostBarWrite ..).trans hexec
    case dowel =>
      intro p t idx data off v hl hb hlen hop hz
      have hput : barWrite s.dev port 0 (0 : Fin 3).val (dowelOff t idx).toNat data false = _ := bar0Write_dowel hb hlen hop hz
      have hexec := execHostBarWrite_live (bar := 0) (fn := 0) (off := dowelOff t idx) hid hq (hlen.symm ▸ hl)
      rw [if_neg (by simp), hput] at hexec
      exact completes_nxp ((exec_hostBarWrite ..).trans hexec) (fun out => ⟨rfl, rfl, rfl, rfl⟩)

end Sys2Proof.Machine.CoreLaws
end

section
/-! PROOFS. Elements of a number: of its lower part, of the part above, of a packed register. -/

namespace Sys2Proof.Machine.CoreLaws
open Sys2Proof

theorem elem_lt {n : Nat} (x : BitVec n) (w i : Nat) : elem x w i < 2 ^ w := Nat.mod_lt _ (Nat.two_pow_pos w)

/-- Cutting a number behind `k` elements leaves those. -/
theorem elem_mod {w k i : Nat} (v : Nat) (h : i < k) : (v % 2 ^ (w * k)) >>> (w * i) % 2 ^ w = v >>> (w * i) % 2 ^ w := by
  refine Nat.eq_of_testBit_eq fun j => ?_
  rw [Nat.testBit_mod_two_pow, Nat.testBit_mod_two_pow]
  by_cases hj : j < w
  · have hlt : w * i + j < w * k := Nat.mul_comm k w ▸ Nat.mul_add_lt_mul_of_lt_of_lt h hj
    refine congrArg (decide (j < w) && ·) ?_
    rw [Nat.testBit_shiftRight, Nat.testBit_shiftRight, Nat.testBit_mod_two_pow, decide_eq_true hlt, Bool.true_and]
  · rw [decide_eq_false hj]
    rfl

section
variable {w k lo : Nat} (hi : Nat) (hlo : lo < 2 ^ (w * k))
include hlo

theorem elem_append_low {i : Nat} (h : i < k) : (2 ^ (w * k) * hi + lo) >>> (w * i) % 2 ^ w = lo >>> (w * i) % 2 ^ w :=
  (elem_mod _ h).symm.trans (congrArg (fun v => v >>> (w * i) % 2 ^ w) ((Nat.mul_add_mod ..).trans (Nat.mod_eq_of_lt hlo)))

theorem shiftRight_append (i : Nat) : (2 ^ (w * k) * hi + lo) >>> (w * (k + i)) = hi >>> (w * i) := by
  rw [Nat.mul_add, Nat.shiftRight_add, Nat.shiftRight_eq_div_pow _ (w * k), Nat.mul_add_div (Nat.two_pow_pos _),
    Nat.div_eq_of_lt hlo, Nat.add_zero]

theorem shiftRight_append_of_le {i : Nat} (h : k ≤ i) : (2 ^ (w * k) * hi + lo) >>> (w * i) = hi >>> (w * (i - k)) :=
  (congrArg (fun i => (2 ^ (w * k) * hi + lo) >>> (w * i)) (Nat.add_sub_cancel' h).symm).trans (shiftRight_append hi hlo _)

end

theorem append_lt {a lo : Nat} (h : lo < 2 ^ a) (b c : Nat) : 2 ^ a * (c % 2 ^ b) + lo < 2 ^ (a + b) :=
  (Nat.mul_add_lt_mul_of_lt_of_lt (Nat.mod_lt c (Nat.two_pow_pos b)) h).trans_eq
    ((Nat.mul_comm ..).trans (Nat.pow_add 2 a b).symm)

theorem packElems_succ (w k : Nat) (f : Nat → Nat) : packElems w (k + 1) f = 2 ^ (w * k) * (f k % 2 ^ w) + packElems w k f :=
  (Nat.add_comm ..).trans (congrArg (· + _) (Nat.mul_comm ..))

theorem packElems_lt (w k : Nat) (f : Nat → Nat) : packElems w k f < 2 ^ (w * k) := by
  induction k with
  | zero => exact Nat.two_pow_pos _
  | succ k ih => exact packElems_succ w k f ▸ append_lt ih w (f k)

theorem packElems_elem {w k i : Nat} (f : Nat → Nat) (hi : i < k) : packElems w k f >>> (w * i) % 2 ^ w = f i % 2 ^ w := by
  induction k with
  | zero => exact absurd hi (Nat.not_lt_zero i)
  | succ k ih =>
    rw [packElems_succ]
    obtain hlt | rfl := Nat.lt_succ_iff_lt_or_eq.mp hi
    · exact (elem_append_low _ (packElems_lt w k f) hlt).trans (ih hlt)
    · exact (congrArg (· % 2 ^ w) (shiftRight_append _ (packElems_lt w i f) 0)).trans (Nat.mod_mod ..)

/-- An element reads what spelled it, cut to its width. -/
theorem elem_packElems {n w k i : Nat} (f : Nat → Nat) (hn : w * k ≤ n) (hi : i < k) :
    elem (BitVec.ofNat n (packElems w k f)) w i = f i % 2 ^ w :=
  (congrArg (fun v => v >>> (w * i) % 2 ^ w) (Nat.mod_eq_of_lt
    ((packElems_lt w k f).trans_le (Nat.pow_le_pow_right Nat.two_pos hn)))).trans (packElems_elem f hi)

/-- A byte of a number with a run of bytes replaced (R7). -/
theorem putBytes_byte (v off n b i : Nat) : putBytes v off n b >>> (8 * i) % 2 ^ 8 =
    if off ≤ i ∧ i < off + n then b >>> (8 * (i - off)) % 2 ^ 8 else v >>> (8 * i) % 2 ^ 8 := by
  have hlow : v % 2 ^ (8 * off) < 2 ^ (8 * off) := Nat.mod_lt _ (Nat.two_pow_pos _)
  have hmid : 2 ^ (8 * off) * (b % 2 ^ (8 * n)) + v % 2 ^ (8 * off) < 2 ^ (8 * (off + n)) :=
    Nat.mul_add 8 off n ▸ append_lt hlow (8 * n) b
  have hput : putBytes v off n b = 2 ^ (8 * (off + n)) * (v >>> (8 * (off + n))) +
      (2 ^ (8 * off) * (b % 2 ^ (8 * n)) + v % 2 ^ (8 * off)) :=
    (Nat.add_comm ..).trans (congrArg₂ (· + ·) (Nat.mul_comm ..)
      ((Nat.add_comm ..).trans (congrArg (· + _) (Nat.mul_comm ..))))
  refine (congrArg (· >>> (8 * i) % 2 ^ 8) hput).trans ?_
  by_cases hhi : i < off + n
  · refine (elem_append_low _ hmid hhi).trans ?_
    by_cases hlo : off ≤ i
    · exact ((congrArg (· % 2 ^ 8) (shiftRight_append_of_le _ hlow hlo)).trans
        (elem_mod b (Nat.sub_lt_left_of_lt_add hlo hhi))).trans (if_pos ⟨hlo, hhi⟩).symm
    · exact ((elem_append_low _ hlow (Nat.not_le.mp hlo)).trans (elem_mod v (Nat.not_le.mp hlo))).trans
        (if_neg fun h => hlo h.1).symm
  · have hle := Nat.not_lt.mp hhi
    have hshift : v >>> (8 * (off + n)) >>> (8 * (i - (off + n))) = v >>> (8 * i) :=
      (Nat.shiftRight_add ..).symm.trans (congrArg (v >>> ·) ((Nat.mul_add ..).symm.trans
        (congrArg (8 * ·) (Nat.add_sub_cancel' hle))))
    exact (congrArg (· % 2 ^ 8) ((shiftRight_append_of_le _ hmid hle).trans hshift)).trans (if_neg fun h => hhi h.2).symm

theorem elem_ofNat {w k i : Nat} (v : Nat) (hi : i < k) : elem (BitVec.ofNat (w * k) v) w i = v >>> (w * i) % 2 ^ w :=
  elem_mod v hi

end Sys2Proof.Machine.CoreLaws
end

section
/-! PROOFS. What the long-vector unit does when it starts a register instruction (R261, R263, R266): the masked write of vd, and
that the queue stays until the instruction leaves it. -/

namespace Sys2Proof.Machine.CoreLaws
open Sys2Proof

/-! ### The masked write -/

theorem getV_setV (x : Tile) (r k v : Nat) : getV (setV x r v) k = if k = r then BitVec.ofNat 16384 v else getV x k :=
  mget_mset 0 x.lvu.v r k _

theorem lvActive_iff (x : Tile) (vl vm i : Nat) :
    lvActive x vl vm i = true ↔ i < vl ∧ (vm = 0 ∨ (getVm x vm).getLsbD i = true) := by
  rw [lvActive, Bool.and_eq_true, Bool.or_eq_true, decide_eq_true_iff, beq_iff_eq]

/-- Active elements take the value computed, cut to the width; the others keep theirs (R263). -/
theorem elem_lvMap (x : Tile) (e : LvEntry) (f : Nat → Nat × Nat) {i : Nat} (hi : i < 16384 / ltWidth e.vtype) :
    elem (getV (lvMap x e f) e.vd) (ltWidth e.vtype) i =
      if i < e.vl ∧ (e.vm = 0 ∨ (getVm x e.vm).getLsbD i = true) then (f i).1 % 2 ^ ltWidth e.vtype
      else elem (getV x e.vd) (ltWidth e.vtype) i := by
  have hvd := (getV_setV x e.vd e.vd (packElems (ltWidth e.vtype) (16384 / ltWidth e.vtype)
    fun i => (if lvActive x e.vl e.vm i then f i else (lvEl x e e.vd i, 0)).1)).trans (if_pos rfl)
  refine ((congrArg (elem · _ i) hvd).trans (elem_packElems _ (Nat.mul_div_le ..) hi)).trans ?_
  by_cases ha : lvActive x e.vl e.vm i = true
  · rw [if_pos ha, if_pos ((lvActive_iff ..).mp ha)]
  · rw [if_neg ha, if_neg (fun h => ha ((lvActive_iff ..).mpr h))]
    exact Nat.mod_eq_of_lt (elem_lt ..)

theorem getV_lvMap_other (x : Tile) (e : LvEntry) (f : Nat → Nat × Nat) {r : Nat} (h : r ≠ e.vd) :
    getV (lvMap x e f) r = getV x r := (getV_setV x e.vd r _).trans (if_neg h)

/-! ### No instruction touches the queue by what it computes -/

/-- A property of each number below a bound, as a conjunction. -/
def Below (P : Nat → Prop) (k : Nat) : Prop := k.rec True fun k below => below ∧ P k

/-- Numbers below `k` one by one, the others at once. -/
theorem forall_of_below {P : Nat → Prop} (k : Nat) (hb : Below P k) (h : ∀ n, P (n + k)) (n : Nat) : P n := by
  induction k with
  | zero => exact h n
  | succ k ih =>
    refine ih hb.1 fun n => ?_
    cases n with
    | zero => exact (Nat.zero_add k).symm ▸ hb.2
    | succ n => exact (Nat.succ_add n k).symm ▸ h n

theorem accrueV_queue (x : Tile) (fl : Nat) : (accrueV x fl).lvu.queue = x.lvu.queue := rfl
theorem setVm_queue (x : Tile) (r v : Nat) : (setVm x r v).lvu.queue = x.lvu.queue := rfl

theorem lvMapMask_queue (x : Tile) (vd vl : Nat) (act : Nat → Bool) (f : Nat → Bool × Nat) :
    (lvMapMask x vd vl act f).lvu.queue = x.lvu.queue := by
  delta lvMapMask
  exact (accrueV_queue _ _).trans (setVm_queue _ _ _)

section
variable (native : Option Nat) (x : Tile) (e : LvEntry)

/-- The instruction of a given major and function keeps the queue. -/
def KeepsQueue (fn major : Nat) : Prop := (lvCompute native x { e with major := major, fn := fn }).lvu.queue = x.lvu.queue

/-- Logic and conversions: functions 0 to 7 one by one, the others at once. -/
theorem logic_keepsQueue : ∀ fn, KeepsQueue native x e fn 0x29 := by
  refine forall_of_below 8 ?_ fun _ => Eq.refl x.lvu.queue
  iterate 8 refine ⟨?_, Eq.refl x.lvu.queue⟩
  trivial

/-- Moves and the vector compress: likewise. -/
theorem move_keepsQueue : ∀ fn, KeepsQueue native x e fn 0x2D := by
  refine forall_of_below 8 ?_ fun _ => Eq.refl x.lvu.queue
  iterate 8 refine ⟨?_, Eq.refl x.lvu.queue⟩
  trivial

/-- Reductions and transcendentals: function 7, the softmax row, may set a bit of `vcsr`. -/
theorem reduce_keepsQueue : ∀ fn, KeepsQueue native x e fn 0x2E := by
  refine forall_of_below 8 ⟨?_, (apply_ite (fun y : Tile => y.lvu.queue) _ _ _).trans (ite_self _)⟩
    fun _ => Eq.refl x.lvu.queue
  iterate 7 refine ⟨?_, Eq.refl x.lvu.queue⟩
  trivial

/-- The majors below 0x30 one by one; another computes nothing. -/
theorem major_keepsQueue (fn : Nat) : ∀ major, KeepsQueue native x e fn major := by
  refine forall_of_below 0x30 ⟨⟨⟨⟨⟨⟨⟨⟨?_, Eq.refl x.lvu.queue⟩, logic_keepsQueue ..⟩, Eq.refl x.lvu.queue⟩,
    lvMapMask_queue ..⟩, Eq.refl x.lvu.queue⟩, move_keepsQueue ..⟩, reduce_keepsQueue ..⟩, lvMapMask_queue ..⟩
    fun _ => Eq.refl x.lvu.queue
  iterate 0x28 refine ⟨?_, Eq.refl x.lvu.queue⟩
  trivial

theorem lvCompute_queue : (lvCompute native x e).lvu.queue = x.lvu.queue := major_keepsQueue native x e e.fn e.major
end

/-! ### The head of the queue -/

theorem casesOn_cons {α β : Type} {l r : List α} {e : α} (h : l = e :: r) (a : β) (k : α → List α → β) :
    List.casesOn (motive := fun _ => β) l a k = k e r := h ▸ rfl

theorem casesOn_none {α β : Type} {o : Option α} (h : o = none) (a : β) (k : α → β) :
    Option.casesOn (motive := fun _ => β) o a k = a := h ▸ rfl

section
-- The unifier then sees the branches behind a `match` as the cases and conditions they compile to.
set_option smartUnfolding false

theorem lvCompute_int (native : Option Nat) (x : Tile) {e : LvEntry} (h : e.major = 0x28) :
    lvCompute native x e =
      lvMap x e (fun i => (lvIntElem e.fn (ltWidth e.vtype) (lvEl x e e.va i) (lvEl x e e.vb i), 0)) :=
  (congrArg (fun m => lvCompute native x { e with major := m }) h).trans rfl

theorem lvCompute_logic (native : Option Nat) (x : Tile) {e : LvEntry} (h : e.major = 0x29) (h7 : e.fn ≠ 7) :
    lvCompute native x e =
      lvMap x e (fun i => (lvLogicElem e.fn (ltWidth e.vtype) (lvEl x e e.va i) (lvEl x e e.vb i), 0)) :=
  (congrArg (fun m => lvCompute native x { e with major := m }) h).trans (dif_neg h7)

/-- The element function of the integer majors (R266). -/
def lvIntegerVal (x : Tile) (e : LvEntry) (i : Nat) : Nat :=
  if e.major = 0x28 then lvIntElem e.fn (ltWidth e.vtype) (lvEl x e e.va i) (lvEl x e e.vb i)
  else lvLogicElem e.fn (ltWidth e.vtype) (lvEl x e e.va i) (lvEl x e e.vb i)

theorem lvCompute_integer (native : Option Nat) (x : Tile) {e : LvEntry} (h : e.major = 0x28 ∨ e.major = 0x29 ∧ e.fn ≠ 7) :
    lvCompute native x e = lvMap x e (fun i => (lvIntegerVal x e i, 0)) :=
  h.elim (fun h => (lvCompute_int native x h).trans (congrArg (lvMap x e) (funext fun _ => congrArg (·, 0) (if_pos h).symm)))
    fun h => (lvCompute_logic native x h.1 h.2).trans (congrArg (lvMap x e) (funext fun _ => congrArg (·, 0)
      (if_neg fun h28 => absurd (h28.symm.trans h.1) (by decide)).symm))

theorem lvStart_register {s : Dev} {t : Nat} {e : LvEntry} {r : List LvEntry} (hq : (tileOf s t).lvu.queue = e :: r)
    (hh : s.hold = false) (hd : (lvDropping (tileOf s t) || lvEmpty e) = false) (hm : lvMem e = none) :
    lvStart s t = lvPop (setTile s t (lvCompute (tileNative s t) (tileOf s t) e)) t :=
  (casesOn_cons hq _ _).trans ((if_neg (ne_true_of_eq_false hh)).trans
    ((if_neg (ne_true_of_eq_false hd)).trans (casesOn_none hm _ _)))
end

theorem lvMem_integer {e : LvEntry} (h : e.major = 0x28 ∨ e.major = 0x29 ∧ e.fn ≠ 7) : lvMem e = none :=
  h.elim (fun h => (congrArg (fun m => lvMem { e with major := m }) h).trans rfl)
    fun h => (congrArg (fun m => lvMem { e with major := m }) h.1).trans rfl

/-- An entry whose length is not 0 has an effect (R263). -/
theorem lvEmpty_eq_false {e : LvEntry} (h : e.vl ≠ 0) : lvEmpty e = false := by
  rw [lvEmpty, beq_eq_false_iff_ne.mpr h, Bool.false_and, Bool.false_and]

/-- A tile whose unit has an instruction queued is not the tile no command has touched. -/
theorem ne_reset_of_queue {x : Tile} {e : LvEntry} {r : List LvEntry} (h : x.lvu.queue = e :: r) : x ≠ Tile.reset :=
  fun hx => List.cons_ne_nil e r (h.symm.trans (congrArg (fun x : Tile => x.lvu.queue) hx))

/-- The tile with the rest of the unit's queue. -/
def lvPopped (x : Tile) (r : List LvEntry) : Tile := { x with lvu := { x.lvu with queue := r } }

theorem lvPop_setTile (s : Dev) (t : Nat) {y : Tile} {e : LvEntry} {r : List LvEntry} (h : y.lvu.queue = e :: r) :
    lvPop (setTile s t y) t = setTile s t (lvPopped y r) := by
  have hpop : lvPopped y (y.lvu.queue.drop 1) = lvPopped y r := congrArg (fun q => lvPopped y (q.drop 1)) h
  refine (setTile_setTile s t _ (ne_reset_of_queue h)).trans (congrArg (setTile s t) ?_)
  exact (congrArg (fun z : Tile => lvPopped z (z.lvu.queue.drop 1)) (tileOf_setTile_same s t y)).trans hpop

/-- A register instruction has its effect and leaves the queue (R261). -/
theorem exec_lvStart_register {s : State} {t : TileId} {e : LvEntry} {r : List LvEntry}
    (hq : (tileOf s.dev t).lvu.queue = e :: r) (hh : s.dev.hold = false) (hd : lvDropping (tileOf s.dev t) = false)
    (hvl : e.vl ≠ 0) (hm : lvMem e = none) :
    exec (.lvStart t) s = .next (putTile s t (lvPopped (lvCompute (tileNative s.dev t) (tileOf s.dev t) e) r)) :=
  congrArg (fun d => Host.Outcome.next (withDev s d))
    ((lvStart_register hq hh (Bool.or_eq_false_iff.mpr ⟨hd, lvEmpty_eq_false hvl⟩) hm).trans
      (lvPop_setTile s.dev t ((lvCompute_queue (tileNative s.dev t) (tileOf s.dev t) e).trans hq)))

/-- Settles O19: the masked write element by element; the unit's start ends in that write and the shorter queue. -/
theorem longVectorStartComputes : Obligations.LongVectorStartComputes := by
  refine ⟨?write, ?start⟩
  case write =>
    intro x e f w y
    exact ⟨fun i hi => elem_lvMap x e f hi, fun r hr => getV_lvMap_other x e f hr, fun _ => rfl, rfl, rfl, rfl, rfl, rfl,
      rfl⟩
  case start =>
    intro s t e r x hq hh hd hvl
    refine ⟨fun hm => completes_putTile (exec_lvStart_register hq hh hd hvl hm) rfl, fun h => ?integer⟩
    case integer =>
      refine completes_putTile ((exec_lvStart_register hq hh hd hvl (lvMem_integer h)).trans
        (congrArg (fun y => Host.Outcome.next (putTile s t (lvPopped y r))) (lvCompute_integer _ _ h))) ?_
      exact (tileOf_putTile_same s t _).symm ▸ ⟨fun i hi => elem_lvMap x e _ hi,
        fun k hk => getV_lvMap_other x e _ hk, fun _ => rfl, rfl, rfl, rfl, rfl⟩

end Sys2Proof.Machine.CoreLaws
end

section
/-! PROOFS. The long-vector instructions that give the core a value or set the unit's length (R259, R263, R266, R272, R276). -/

namespace Sys2Proof.Machine.CoreLaws
open Sys2Proof

/-- The lowest number of which a test holds, where the test itself keeps it in the range. -/
theorem find?_range_lowest {p : Nat → Bool} {n i : Nat} (hi : i < n) (hp : p i = true) (hlow : ∀ j, j < i → p j = false) :
    (List.range n).find? p = some i :=
  List.find?_range_eq_some.mpr ⟨hp, List.mem_range.mpr hi, fun j hj => congrArg not (hlow j hj)⟩

theorem altBit : ∀ alt, 4 * b2n alt = if alt then 4 else 0
  | true => rfl
  | false => rfl

section
variable {s : State} {t : TileId} {gu : Guard} (h : Issues s t gu 4)
include h

/-- An instruction that only changes its own tile, found legal. -/
theorem onDev_issueT_legal {illegal : Bool} (hi : illegal = false) {f : Tile → Tile} {y : Tile} (hy : f (tileIn s t) = y) :
    onDev s (fun d => issueT d t gu 4 1 illegal f) = .next (putTile s t (advance y 4 1)) :=
  hi ▸ hy ▸ onDev_issueT h

omit h in
/-- SETVL is ILLEGAL only where ALT comes with another SEW than 1 (R259). -/
theorem setvl_legal {sew : Fin 4} {alt : Bool} (ha : alt = true → sew = 1) : (alt && sew != 1) = false := by
  cases alt with
  | false => rfl
  | true => rw [ha rfl, bne_self_eq_false, Bool.and_false]

variable (hspin : (tileIn s t).lvu.spin = false) (hidle : lvIdle (tileIn s t) = true)
include hspin hidle

theorem exec_vsync_idle : exec (.vsync t gu) s = .next (putTile s t (advance (tileIn s t) 4 1)) :=
  (exec_vsync ..).trans (onDev_issue_done h hspin (if_pos hidle))

variable (hkeeps : lvDropping (tileIn s t) = false)
include hkeeps

/-- An idle unit with no error recorded returns its value (R266). -/
theorem onDev_lvReturns {ill : Tile → Bool} (hi : ill (tileIn s t) = false) (rd : Nat) {f : Tile → Word} {v : Word}
    (hv : f (tileIn s t) = v) :
    onDev s (fun d => lvReturns d t gu ill rd f) = .next (putTile s t (advance (setG (tileIn s t) rd v) 4 1)) :=
  onDev_issue_done (ill := fun _ x => x.lvu.spin || ill x) h (Bool.or_eq_false_iff.mpr ⟨hspin, hi⟩)
    ((if_neg (ne_true_of_eq_false (congrArg not hidle))).trans
      (congrArg (fun v => Res.done s.dev (setG (tileIn s t) rd v) 1) ((if_neg (ne_true_of_eq_false hkeeps)).trans hv)))

set_option smartUnfolding false in
theorem exec_vfirst_found {rd va : RegNo} {vm : Fin 8} (hva : va.val < 8) {o : Option Nat}
    (ho : (List.range (tileIn s t).lvu.vl).find?
      (fun i => lvActive (tileIn s t) (tileIn s t).lvu.vl vm i && (getVm (tileIn s t) va).getLsbD i) = o) :
    exec (.vfirst t gu rd va vm) s =
      .next (putTile s t (advance (setG (tileIn s t) rd (o.elim (BitVec.allOnes 64) (BitVec.ofNat 64))) 4 1)) :=
  (exec_vfirst ..).trans (onDev_lvReturns h hspin hidle hkeeps (decide_eq_false (Nat.not_le.mpr hva)) rd
    (congrArg (fun o : Option Nat => o.elim (BitVec.allOnes 64) (BitVec.ofNat 64)) ho))
end

/-- Settles O18: each form issues; what VFIRST finds is the lowest active set bit. -/
theorem longVectorScalarFormsComplete : Obligations.LongVectorScalarFormsComplete := by
  intro s t gu h rd ra va vm x
  refine ⟨fun sew alt ha hdrop => ?dropped, ?setvl, fun hspin hidle => ⟨exec_vsync_idle h hspin hidle, ?values⟩⟩
  case dropped => exact (exec_setvl ..).trans (onDev_issueT_legal h (setvl_legal ha) (if_pos hdrop))
  case setvl =>
    intro sew alt ha hkeeps vl
    exact (exec_setvl ..).trans (onDev_issueT_legal h (setvl_legal ha) ((if_neg (ne_true_of_eq_false hkeeps)).trans
      (congrArg (fun n : Nat => setG { x with lvu := { x.lvu with vl := vl, vtype := sew + n } } rd (BitVec.ofNat 64 vl))
        (altBit alt))))
  case values =>
    intro hkeeps act
    refine ⟨(exec_vmfs ..).trans (onDev_lvReturns h hspin hidle hkeeps rfl rd rfl), fun hva =>
      ⟨(exec_vpopc ..).trans (onDev_lvReturns h hspin hidle hkeeps (decide_eq_false (Nat.not_le.mpr hva)) rd rfl),
        fun hnone => ?none, fun i hi hlow => ?some⟩⟩
    case none =>
      exact exec_vfirst_found h hspin hidle hkeeps hva (o := none)
        (List.find?_eq_none.mpr fun i _ => ne_true_of_eq_false (hnone i))
    case some =>
      exact exec_vfirst_found h hspin hidle hkeeps hva (o := some i)
        (find?_range_lowest (of_decide_eq_true (Bool.and_elim_left (Bool.and_elim_left hi))) hi hlow)

end Sys2Proof.Machine.CoreLaws
end

section
/-! PROOFS. The windows onto the vector registers (R289) and the accumulators (R318): a read shows the bytes, a write replaces
exactly those it covers. -/

namespace Sys2Proof.Machine.CoreLaws
open Sys2Proof

/-! ### The vector registers -/

/-- The step that answers a window's read to the host. -/
def answerWith (s : State) (r : Dev × List Byte) : Host.Outcome State Fault Refusal :=
  .next (withDev s (send r.1 (.hostReply r.2 false)))

theorem vwinActs_of {x : Tile} (hh : x.core.halted = true) (hi : lvIdle x = true) (hspin : x.lvu.spin = false) :
    vwinActs x = true := Bool.and_eq_true_iff.mpr ⟨Bool.and_eq_true_iff.mpr ⟨hh, hi⟩, congrArg not hspin⟩

/-! ### The accumulators -/

section
variable {sel : Nat} (acc : SMap (BitVec 32))

/-- The byte the window shows in accumulator `sel`. -/
def accByte (sel : Nat) (acc : SMap (BitVec 32)) (o : Nat) : Byte :=
  BitVec.ofNat 8 ((mget 0 acc (1024 * sel + o / 4)).toNat >>> (8 * (o % 4)))

/-- The accumulators with one byte of accumulator `sel` replaced. -/
def accPut (sel : Nat) (acc : SMap (BitVec 32)) (o : Nat) (b : Byte) : SMap (BitVec 32) :=
  mmod 0 acc (1024 * sel + o / 4) fun w => BitVec.ofNat 32 (putBytes w.toNat (o % 4) 1 b.toNat)

theorem mget_accPut (o : Nat) (b : Byte) (k : Nat) : mget 0 (accPut sel acc o b) k = if k = 1024 * sel + o / 4 then
    BitVec.ofNat 32 (putBytes (mget 0 acc (1024 * sel + o / 4)).toNat (o % 4) 1 b.toNat) else mget 0 acc k := mget_mset ..

/-- A byte of a word of which a byte was replaced. -/
theorem byte_putByte (w : BitVec 32) (k : Nat) (b : Byte) {i : Nat} (hi : i < 4) :
    elem (BitVec.ofNat 32 (putBytes w.toNat k 1 b.toNat)) 8 i = if i = k then b.toNat else elem w 8 i := by
  refine (elem_ofNat (w := 8) (k := 4) _ hi).trans ((putBytes_byte ..).trans ?_)
  by_cases h : i = k
  · rw [if_pos h, if_pos ⟨h.ge, Nat.lt_succ_of_le h.le⟩, h, Nat.sub_self]
    exact Nat.mod_eq_of_lt b.isLt
  · rw [if_neg h, if_neg fun hk => h (Nat.le_antisymm (Nat.le_of_lt_succ hk.2) hk.1)]
    rfl

theorem accByte_accPut_same (o : Nat) (b : Byte) : accByte sel (accPut sel acc o b) o = b :=
  BitVec.eq_of_toNat_eq ((congrArg (elem · 8 (o % 4)) ((mget_accPut acc o b _).trans (if_pos rfl))).trans
    ((byte_putByte _ _ b (Nat.mod_lt o (by decide))).trans (if_pos rfl)))

theorem accByte_accPut_other {i o : Nat} (h : i ≠ o) (b : Byte) : accByte sel (accPut sel acc o b) i = accByte sel acc i := by
  refine BitVec.eq_of_toNat_eq ((congrArg (elem · 8 (i % 4)) (mget_accPut acc o b _)).trans ?_)
  by_cases hk : 1024 * sel + i / 4 = 1024 * sel + o / 4
  · have hm : i % 4 ≠ o % 4 := fun hm => h (by
      rw [← Nat.div_add_mod i 4, Nat.add_left_cancel hk, hm, Nat.div_add_mod])
    rw [if_pos hk]
    refine (byte_putByte _ _ b (Nat.mod_lt i (by decide))).trans ((if_neg hm).trans ?_)
    rw [← hk]
    rfl
  · rw [if_neg hk]
    rfl

/-- The accumulators with a run of bytes of accumulator `sel` replaced from byte `off + k` on. -/
def accFill (sel off k : Nat) (bs : List Byte) : SMap (BitVec 32) :=
  (bs.zipIdx k).foldl (fun acc p => accPut sel acc (off + p.2) p.1) acc

/-- A key that is none of the window's elements keeps its value. -/
theorem mget_accFill {key : Nat} (hkey : ∀ o, o < 4096 → key ≠ 1024 * sel + o / 4) (off n v k : Nat)
    (hn : off + k + n ≤ 4096) :
    mget 0 (accFill acc sel off k (leBytes n v)) key = mget 0 acc key := by
  induction n generalizing acc v k with
  | zero => rfl
  | succ n ih =>
    refine (ih (accPut sel acc (off + k) (BitVec.ofNat 8 v)) (v >>> 8) (k + 1)
      ((Nat.succ_add_eq_add_succ ..).trans_le hn)).trans ?_
    exact (mget_accPut ..).trans (if_neg (hkey _ (Nat.lt_of_lt_of_le (Nat.lt_add_of_pos_right (Nat.succ_pos n)) hn)))

theorem accByte_accFill_below (off n v k : Nat) {i : Nat} (hi : i < off + k) :
    accByte sel (accFill acc sel off k (leBytes n v)) i = accByte sel acc i := by
  induction n generalizing acc v k with
  | zero => rfl
  | succ n ih =>
    exact (ih (accPut sel acc (off + k) (BitVec.ofNat 8 v)) (v >>> 8) (k + 1) (Nat.lt_succ_of_lt hi)).trans
      (accByte_accPut_other acc hi.ne _)

/-- The bytes from the run's first on: those of the number, then those that stood there. -/
theorem accByte_accFill (off n v k j : Nat) {i : Nat} (hi : off + k + j = i) :
    accByte sel (accFill acc sel off k (leBytes n v)) i =
      if j < n then BitVec.ofNat 8 (v >>> (8 * j)) else accByte sel acc i := by
  induction n generalizing acc v k j with
  | zero => rfl
  | succ n ih =>
    cases j with
    | zero =>
      subst hi
      exact (accByte_accFill_below _ off n _ (k + 1) (Nat.lt_succ_self _)).trans
        ((accByte_accPut_same acc (off + k) (BitVec.ofNat 8 v)).trans (if_pos (Nat.succ_pos n)).symm)
    | succ j =>
      have hne : i ≠ off + k := hi ▸ (Nat.lt_add_of_pos_right (Nat.succ_pos j)).ne'
      refine (ih (accPut sel acc (off + k) (BitVec.ofNat 8 v)) (v >>> 8) (k + 1) j
        ((Nat.succ_add_eq_add_succ ..).trans hi)).trans ?_
      rw [← Nat.shiftRight_add, Nat.add_comm 8]
      exact if_congr Nat.succ_lt_succ_iff.symm rfl (accByte_accPut_other acc hne _)
end

theorem accKey_div (m : Nat) {c : Nat} (hc : c < 1024) : (1024 * m + c) / 1024 = m :=
  (Nat.mul_add_div (by decide) m c).trans (congrArg (m + ·) (Nat.div_eq_of_lt hc))

/-- No element of another accumulator is one the window shows. -/
theorem accKey_ne {sel m i j o : Nat} (hi : i < 32) (hj : j < 32) (hm : m ≠ sel) (ho : o < 4096) :
    accKey m i j ≠ 1024 * sel + o / 4 := fun h =>
  hm (by
    rw [← accKey_div m (Nat.mul_add_lt_mul_of_lt_of_lt hi hj), ← Nat.add_assoc]
    exact (congrArg (· / 1024) h).trans (accKey_div sel (Nat.div_lt_of_lt_mul ho)))

/-- The tile with other accumulators. -/
def withAcc (x : Tile) (acc : SMap (BitVec 32)) : Tile := { x with me := { x.me with acc := acc } }

theorem maccPut_withAcc {x : Tile} (hs : x.me.sel < 4) (acc : SMap (BitVec 32)) (o : Nat) (b : Byte) :
    maccPut (withAcc x acc) o b = withAcc x (accPut x.me.sel acc o b) := if_pos hs

/-- Bytes written through the window change the accumulators. -/
theorem foldl_maccPut {x : Tile} (hs : x.me.sel < 4) (off : Nat) (ps : List (Byte × Nat)) (acc : SMap (BitVec 32)) :
    ps.foldl (fun y p => maccPut y (off + p.2) p.1) (withAcc x acc) =
      withAcc x (ps.foldl (fun acc p => accPut x.me.sel acc (off + p.2) p.1) acc) :=
  List.foldl_hom (withAcc x) fun acc p => maccPut_withAcc hs acc (off + p.2) p.1

theorem maccByte_withAcc {x : Tile} (hs : x.me.sel < 4) (acc : SMap (BitVec 32)) (o : Nat) :
    maccByte (withAcc x acc) o = accByte x.me.sel acc o := if_pos hs

/-- The bytes of the window after a write of a word's first bytes. -/
theorem maccByte_filled {x : Tile} (hs : x.me.sel < 4) (off n : Nat) (w : Word) (i : Nat) :
    maccByte (withAcc x (accFill x.me.acc x.me.sel off 0 (leBytes n w.toNat))) i =
      if off ≤ i ∧ i < off + n then BitVec.ofNat 8 (elem w 8 (i - off)) else maccByte x i := by
  refine (maccByte_withAcc hs _ i).trans ?_
  by_cases hin : off ≤ i
  · rw [accByte_accFill _ off _ _ 0 (i - off) (Nat.add_sub_cancel' hin)]
    exact if_congr ⟨fun h => ⟨hin, (Nat.sub_lt_iff_lt_add' hin).mp h⟩, fun h => (Nat.sub_lt_iff_lt_add' hin).mpr h.2⟩
      (BitVec.eq_of_toNat_eq (Nat.mod_mod ..).symm) (maccByte_withAcc hs _ i).symm
  · rw [if_neg fun h => hin h.1]
    exact (accByte_accFill_below _ off _ _ 0 (Nat.not_le.mp hin)).trans (maccByte_withAcc hs _ i).symm

/-- Settles O21: the bytes of the register written, and the bytes written one by one into the selected accumulator. -/
theorem engineWindowsComplete : Obligations.EngineWindowsComplete := by
  refine ⟨?vectors, ?accumulators⟩
  case vectors =>
    intro s t off size w x n hh hi hspin hr v
    have hacts := ne_true_of_eq_false (congrArg not (vwinActs_of hh hi hspin))
    refine ⟨(exec_vregWinAccess ..).trans (congrArg (answerWith s) ((if_neg hacts).trans
        (congrArg (fun v => (s.dev, leBytes n v)) ((congrArg (· >>> (8 * off.val)) (if_pos hr)).trans
          (Nat.shiftRight_eq_div_pow ..))))),
      completes_putTile ((exec_vregWinAccess ..).trans ((congrArg (fun r : Dev × List Byte => Host.Outcome.next (withDev s r.1))
        (if_neg hacts)).trans (congrArg (fun x => Host.Outcome.next (putTile s t x)) (if_pos hr)))) ?_⟩
    exact (tileOf_putTile_same s t _).symm ▸ ⟨fun i hi => (congrArg (elem · 8 i) ((getV_setV ..).trans (if_pos rfl))).trans
      ((elem_ofNat (w := 8) (k := 2048) _ hi).trans (putBytes_byte ..)),
      fun r hr => (getV_setV ..).trans (if_neg hr), rfl, rfl, rfl⟩
  case accumulators =>
    intro s t off size w x n hi hs
    have hidle := ne_true_of_eq_false (congrArg not hi)
    refine ⟨(exec_maccWinAccess ..).trans (congrArg (answerWith s) (if_neg hidle)),
      completes_putTile ((exec_maccWinAccess ..).trans ((congrArg (fun r : Dev × List Byte => Host.Outcome.next (withDev s r.1))
        (if_neg hidle)).trans (congrArg (fun x => Host.Outcome.next (putTile s t x)) (foldl_maccPut hs off _ x.me.acc)))) ?_⟩
    exact (tileOf_putTile_same s t _).symm ▸ ⟨fun i _ => maccByte_filled hs off n w i, fun m i j hi hj hm => mget_accFill _
      (fun _ => accKey_ne hi hj hm) off _ _ 0
      ((Nat.add_le_add_left (Nat.min_le_right ..) off.val).trans_eq (Nat.add_sub_cancel' off.isLt.le)), rfl, rfl, rfl, rfl⟩

end Sys2Proof.Machine.CoreLaws
end
